-- ==== Sys2Proof/Word.lean ====
section
/-! DEFINITION. The word types of the PL-VL8 and the sparse table that holds everything the device keeps by number.

`FMap α` is a list of (key, value) pairs. Its canonical form (keys strictly rising, no pair at the value an unlisted key
reads as) is `FMap.wf` of `Sys2Proof/Machine/FMap.lean`; the same type serves registers, counters, table entries and,
as a list of `Host.Cell`, the bytes of memory. -/

namespace Sys2Proof

/-- A byte. -/
abbrev W8 := BitVec 8

/-- A lane register (R23): 32 bits. -/
abbrev W32 := BitVec 32

/-- A uniform register, an address or a control register (R24, R265): 64 bits. -/
abbrev W64 := BitVec 64

/-- A table by number: unlisted keys read as a default that each reader names. -/
abbrev FMap (α : Type) := List (Nat × α)

end Sys2Proof
end

