-- ==== Sys2Proof/Syntax.lean ====
section
/-! DEFINITION. The instructions and the machine events of the PL-VL8, one constructor for each row of
spec/opcode_table.json, and the plain data that the events carry. -/

namespace Sys2Proof

/-- A register or flag of one lane or party, as the scoreboard names it (R212). -/
inductive RegRef where
  /-- lane register v0 to v119 (0 to 119) or temporary t0 to t7 (120 to 127), R23 -/
  | v (n : Nat)
  /-- uniform register s0 to s63, R24 -/
  | s (n : Nat)
  /-- condition flag c0 to c3, R26 -/
  | c (n : Nat)
  deriving DecidableEq, Repr

/-- How an instruction fetch fails (R93). -/
inductive FetchFail where
  /-- no translation: the lane parks -/
  | missing
  /-- an access violation with its detail of R331 -/
  | violation (detail : Nat)
  deriving DecidableEq, Repr

/-- What a peer-window request does at its target (R406, R417). -/
inductive PeerOp where
  | load
  /-- a release store or a drained write-combining line -/
  | store
  | atom
  | red
  /-- `ldv` and `ldv.tag`: refused on a versioned page (R296), else a load -/
  | ldv
  deriving DecidableEq, Repr

/-- The bytes and operands of one lane of a peer-window request. -/
structure PeerLane where
  /-- lane number in its strand; 0 for a sequencer context -/
  lane : Nat
  /-- target address A[45:0] (R267) -/
  addr : W64
  /-- access size in bytes -/
  size : Nat
  /-- store bytes, or the operand x of `atom` and `red`, or the expected value of cas -/
  x    : Nat
  /-- the new value of cas -/
  y    : Nat
  deriving DecidableEq, Repr

/-- One request of a request channel (R416, R417). -/
structure PeerReq where
  /-- the requester's module in the pod -/
  src   : Nat
  /-- the target's module in the pod -/
  dst   : Nat
  /-- sr.coreid of the requesting core -/
  core  : Nat
  asid  : BitVec 16
  /-- sequence number on the channel (R417) -/
  seq   : Nat
  op    : PeerOp
  /-- operation code and type code of `atom` (R105) or `red` (R107) -/
  code  : Nat
  ty    : Nat
  /-- requesting strand, for the violation log (R333) -/
  strand : Nat
  lanes : List PeerLane
  deriving DecidableEq, Repr

/-- The answer to a read-like request (R329, R406): the value of each lane, or an error with its detail (R461). -/
inductive PeerAnswer where
  | data (vals : List Nat)
  | error (detail : Nat)
  deriving DecidableEq, Repr

/-- What one member contributes to a chunk (R372). -/
structure Share where
  /-- member-table index -/
  member  : Nat
  /-- the count of 2^a of each element; none is a NaN -/
  counts  : List (Option Int)
  sat     : Bool
  inexact : Bool
  nan     : Bool
  /-- an empty contribution counts toward q and adds nothing (R370) -/
  empty   : Bool
  /-- model: how often the member's device step had risen when it put the share (R364) -/
  rise    : Nat := 0
  deriving DecidableEq, Repr

/-- A contribution to one chunk of a collective, or a partial, which holds the contributions of several members: its owner classes
them one by one, and every sum of them is exact (R372, R378, R428). -/
structure Contribution where
  step   : W32
  shares : List Share
  deriving DecidableEq, Repr

/-- What an owner sends to every member at the close of a chunk (R376, R377). -/
structure ChunkClose where
  chunk      : Nat
  step       : W32
  /-- covered primaries c, folded late contributions ℓ and drops (R373 to R375) -/
  covered    : Nat
  folded     : Nat
  drops      : Nat
  byTimer    : Bool
  backupUsed : Bool
  d16        : Nat
  sat        : Bool
  inexact    : Bool
  nan        : Bool
  /-- early contributions held at the instant of the close -/
  held       : Nat
  /-- indices of the covered primaries -/
  bitmap     : List Nat
  /-- result elements in the output format; empty for a member that is no receiver -/
  result     : List Nat
  deriving DecidableEq, Repr

/-- A firmware image offered at bring-up (R455): its version, key, signature and content as bytes. -/
structure Firmware where
  version   : W64
  key       : List W8
  signature : List W8
  image     : List W8
  deriving DecidableEq, Repr

/-- The host window a control write came through (R446). -/
inductive CtrlWindow where
  /-- BAR 0, the control registers of R449 -/
  | control
  /-- BAR 4, the launch windows of R450 -/
  | launch
  deriving DecidableEq, Repr


/-- Everything the device does as one whole step: the 173 instruction words of the opcode table, each with the fields
of its encoding (`st` is the stall count of bits [1:0], R17), and its 78 machine events, each with what comes to the
device from outside (a message, a pin, a host write) or names what acts (a team, a task). -/
inductive Instr where
  /-- ADD (R54). Adds two lane registers, wrapping or saturating by mod, 32-bit or 64-bit pairs. -/
  | add (d a b : BitVec 7) (m st : BitVec 2)
  /-- SUB (R54). Subtracts two lane registers, wrapping or saturating by mod. -/
  | sub (d a b : BitVec 7) (m st : BitVec 2)
  /-- MUL (R54). Multiplies two lane registers, giving low, high or 64-bit product by mod. -/
  | mul (d a b : BitVec 7) (m st : BitVec 2)
  /-- MAD (R54). Multiply-adds into vd, 32-bit, 64-bit or widening by mod. -/
  | mad (d a b : BitVec 7) (m st : BitVec 2)
  /-- AND (R55). Bitwise AND of two lane registers. -/
  | and (d a b : BitVec 7) (st : BitVec 2)
  /-- OR (R55). Bitwise OR of two lane registers. -/
  | or (d a b : BitVec 7) (st : BitVec 2)
  /-- XOR (R55). Bitwise XOR of two lane registers. -/
  | xor (d a b : BitVec 7) (st : BitVec 2)
  /-- ANDN (R55). Bitwise va AND NOT vb. -/
  | andn (d a b : BitVec 7) (st : BitVec 2)
  /-- SHL (R55). Shifts left by vb[4:0], zeros entering. -/
  | shl (d a b : BitVec 7) (st : BitVec 2)
  /-- SHR (R55). Shifts right logically by vb[4:0]. -/
  | shr (d a b : BitVec 7) (st : BitVec 2)
  /-- SAR (R55). Shifts right arithmetically by vb[4:0]. -/
  | sar (d a b : BitVec 7) (st : BitVec 2)
  /-- ROT (R55). Rotates left by vb[4:0]. -/
  | rot (d a b : BitVec 7) (st : BitVec 2)
  /-- MIN (R55). Signed 32-bit minimum. -/
  | min (d a b : BitVec 7) (st : BitVec 2)
  /-- MAX (R55). Signed 32-bit maximum. -/
  | max (d a b : BitVec 7) (st : BitVec 2)
  /-- CMP (R56). Compares two integers and sets or combines a condition flag. -/
  | cmp (d a b : BitVec 7) (t st : BitVec 2)
  /-- SEL (R57). Selects va or vb per lane by flag cN. -/
  | sel (d a b : BitVec 7) (n st : BitVec 2)
  /-- POPC (R55). Counts set bits of va. -/
  | popc (d a : BitVec 7) (st : BitVec 2)
  /-- CLZ (R55). Counts leading zero bits of va. -/
  | clz (d a : BitVec 7) (st : BitVec 2)
  /-- BREV (R55). Reverses the bits of va. -/
  | brev (d a : BitVec 7) (st : BitVec 2)
  /-- BFE (R55). Extracts a bit field of va at position and length from vb. -/
  | bfe (d a b : BitVec 7) (st : BitVec 2)
  /-- MOV (R57). Copies va to vd. -/
  | mov (d a : BitVec 7) (st : BitVec 2)
  /-- MOVC (R57). Copies the lane's condition flags into vd[3:0]. -/
  | movc (d : BitVec 7) (st : BitVec 2)
  /-- ADDI (R58). Adds a sign-extended 9-bit immediate. -/
  | addi (d a : BitVec 7) (i : BitVec 9) (st : BitVec 2)
  /-- ANDI (R58). ANDs with a sign-extended 9-bit immediate. -/
  | andi (d a : BitVec 7) (i : BitVec 9) (st : BitVec 2)
  /-- SHLI (R58). Shifts left by an immediate amount. -/
  | shli (d a : BitVec 7) (k : BitVec 5) (st : BitVec 2)
  /-- SHRI (R58). Shifts right logically by an immediate amount. -/
  | shri (d a : BitVec 7) (k : BitVec 5) (st : BitVec 2)
  /-- SARI (R58). Shifts right arithmetically by an immediate amount. -/
  | sari (d a : BitVec 7) (k : BitVec 5) (st : BitVec 2)
  /-- LI (R59). Loads a sign-extended 16-bit constant. -/
  | li (d : BitVec 7) (i : BitVec 16) (st : BitVec 2)
  /-- LIH (R59). Replaces the upper half of vd with a 16-bit constant. -/
  | lih (d : BitVec 7) (i : BitVec 16) (st : BitVec 2)
  /-- FADD (R64). Floating addition of the type in mod. -/
  | fadd (d a b : BitVec 7) (t st : BitVec 2)
  /-- FSUB (R64). Floating subtraction. -/
  | fsub (d a b : BitVec 7) (t st : BitVec 2)
  /-- FMUL (R64). Floating multiplication. -/
  | fmul (d a b : BitVec 7) (t st : BitVec 2)
  /-- FFMA (R64). Fused multiply-add into vd with one rounding. -/
  | ffma (d a b : BitVec 7) (t st : BitVec 2)
  /-- FMIN (R64). Floating minimumNumber. -/
  | fmin (d a b : BitVec 7) (t st : BitVec 2)
  /-- FMAX (R64). Floating maximumNumber. -/
  | fmax (d a b : BitVec 7) (t st : BitVec 2)
  /-- FCMP (R65). Floating compare setting or combining a condition flag. -/
  | fcmp (d a b : BitVec 7) (t st : BitVec 2)
  /-- FSGN (R66). Copies, negates or XORs the sign bit from vb. -/
  | fsgn (d a b : BitVec 7) (m st : BitVec 2)
  /-- CVT_F (R68). Converts between float types, optionally saturating. -/
  | cvtF (d a c : BitVec 7) (h t : BitVec 1) (st : BitVec 2)
  /-- CVT_FI (R69). Converts a float to an integer. -/
  | cvtFi (d a c : BitVec 7) (h : BitVec 1) (st : BitVec 2)
  /-- CVT_IF (R70). Converts an integer to a float. -/
  | cvtIf (d a c : BitVec 7) (h : BitVec 1) (st : BitVec 2)
  /-- FCLASS (R71). Classifies a float into one of ten classes. -/
  | fclass (d a : BitVec 7) (t st : BitVec 2)
  /-- RCP (R73). Correctly rounded reciprocal. -/
  | rcp (d a : BitVec 7) (t : BitVec 1) (st : BitVec 2)
  /-- RSQRT (R73). Reciprocal square root within 1 ulp. -/
  | rsqrt (d a : BitVec 7) (t : BitVec 1) (st : BitVec 2)
  /-- SQRT (R73). Correctly rounded square root. -/
  | sqrt (d a : BitVec 7) (t : BitVec 1) (st : BitVec 2)
  /-- EXP2 (R73). Base-2 exponential. -/
  | exp2 (d a : BitVec 7) (t : BitVec 1) (st : BitVec 2)
  /-- LOG2 (R73). Base-2 logarithm. -/
  | log2 (d a : BitVec 7) (t : BitVec 1) (st : BitVec 2)
  /-- SIN (R73). Sine of radians. -/
  | sin (d a : BitVec 7) (st : BitVec 2)
  /-- COS (R73). Cosine of radians. -/
  | cos (d a : BitVec 7) (st : BitVec 2)
  /-- TANH (R73). Hyperbolic tangent. -/
  | tanh (d a : BitVec 7) (st : BitVec 2)
  /-- LGST (R72). Logistic function. -/
  | lgst (d a : BitVec 7) (st : BitVec 2)
  /-- SHFL (R78). Strand-wide rendezvous that shuffles va between lanes. -/
  | shfl (d a b : BitVec 7) (m st : BitVec 2)
  /-- VOTE_ANY (R79). Sets cD in every participant when cS is set in any. -/
  | voteAny (d c st : BitVec 2)
  /-- VOTE_ALL (R79). Sets cD in every participant when cS is set in all. -/
  | voteAll (d c st : BitVec 2)
  /-- VOTE_BALLOT (R79). Writes a mask of cS over the participants. -/
  | voteBallot (d : BitVec 7) (c st : BitVec 2)
  /-- SCAN (R80). Prefix sum, max or min over lane indices. -/
  | scan (d a : BitVec 7) (m st : BitVec 2)
  /-- MATCH (R81). Writes the mask of participants with equal va. -/
  | matchLanes (d a : BitVec 7) (m : BitVec 1) (st : BitVec 2)
  /-- ELECT (R82). Sets cD in the lowest participant only. -/
  | elect (d st : BitVec 2)
  /-- REDS (R83). Floating strand reduction over a fixed pairwise tree. -/
  | reds (d a : BitVec 7) (m st : BitVec 2)
  /-- REDS_AF (R84). Exact AF64 strand sum at an anchor. -/
  | redsAf (d a b : BitVec 7) (m st : BitVec 2)
  /-- REDS_INT (R85). Integer strand reduction. -/
  | redsInt (d a : BitVec 7) (o t st : BitVec 2)
  /-- BRA (R88). Branches per lane on a condition. -/
  | bra (c : BitVec 3) (o : BitVec 20) (st : BitVec 2)
  /-- BRX (R91). Jumps through the kernel jump table to a matching lpad. -/
  | brx (a : BitVec 7) (st : BitVec 2)
  /-- LPAD (R90). Landing pad carrying a key; advances pc. -/
  | lpad (k : BitVec 16) (st : BitVec 2)
  /-- CALL (R89). Pushes the return address on the lane stack and branches. -/
  | call (o : BitVec 20) (st : BitVec 2)
  /-- RET (R89). Pops the lane return stack. -/
  | ret (st : BitVec 2)
  /-- RECONV (R94). Waits until every non-exited lane waits at a reconv of the key. -/
  | reconv (k : BitVec 16) (st : BitVec 2)
  /-- EXIT (R95). Finishes the lane. -/
  | exit (st : BitVec 2)
  /-- LD_B (R98). Loads a zero-extended byte. -/
  | ldB (d a : BitVec 7) (b c o : BitVec 3) (st : BitVec 2)
  /-- LD_H (R98). Loads a zero-extended half-word. -/
  | ldH (d a : BitVec 7) (b c o : BitVec 3) (st : BitVec 2)
  /-- LD_W (R98). Loads a word. -/
  | ldW (d a : BitVec 7) (b c o : BitVec 3) (st : BitVec 2)
  /-- LD_D (R98). Loads a double word into a pair. -/
  | ldD (d a : BitVec 7) (b c o : BitVec 3) (st : BitVec 2)
  /-- LD_Q (R98). Loads 16 bytes into a quad. -/
  | ldQ (d a : BitVec 7) (b c o : BitVec 3) (st : BitVec 2)
  /-- ST_B (R98). Stores a byte. -/
  | stB (d a : BitVec 7) (b c o : BitVec 3) (st : BitVec 2)
  /-- ST_H (R98). Stores a half-word. -/
  | stH (d a : BitVec 7) (b c o : BitVec 3) (st : BitVec 2)
  /-- ST_W (R98). Stores a word. -/
  | stW (d a : BitVec 7) (b c o : BitVec 3) (st : BitVec 2)
  /-- ST_D (R98). Stores a double word from a pair. -/
  | stD (d a : BitVec 7) (b c o : BitVec 3) (st : BitVec 2)
  /-- ST_Q (R98). Stores 16 bytes from a quad. -/
  | stQ (d a : BitVec 7) (b c o : BitVec 3) (st : BitVec 2)
  /-- LDV (R104). Versioned load of the newest published frame within a staleness bound. -/
  | ldv (d a : BitVec 7) (b c : BitVec 3) (o : BitVec 1) (st : BitVec 2)
  /-- LDV_TAG (R104). Versioned load resolving and recording a frame against a micro-batch tag. -/
  | ldvTag (d a : BitVec 7) (b c : BitVec 3) (o : BitVec 1) (st : BitVec 2)
  /-- ATOM (R106). Atomic read-modify-write at the location's home returning the old value. -/
  | atom (d a : BitVec 7) (b c o : BitVec 3) (st : BitVec 2)
  /-- RED (R108). Reduction performed at the location's home, returning nothing. -/
  | red (d a : BitVec 7) (b c o : BitVec 3) (st : BitVec 2)
  /-- QOP_POP (R112). Pops an item from a local work queue. -/
  | qopPop (d a : BitVec 7) (n st : BitVec 2)
  /-- QOP_PUSH (R112). Pushes an item onto a local work queue. -/
  | qopPush (d a : BitVec 7) (n st : BitVec 2)
  /-- RAND (R114). Computes a Philox4x32-10 block, optionally incrementing the counter. -/
  | rand (d a b : BitVec 7) (i : BitVec 1) (st : BitVec 2)
  /-- TCON (R116). Contracts an 8x8 matrix against an 8x8x8 tensor along one direction. -/
  | tcon (d a : BitVec 7) (u : BitVec 4) (t : BitVec 3) (m st : BitVec 2)
  /-- SADD (R121). 64-bit uniform addition. -/
  | sadd (d a b : BitVec 6) (st : BitVec 2)
  /-- SSUB (R121). 64-bit uniform subtraction. -/
  | ssub (d a b : BitVec 6) (st : BitVec 2)
  /-- SMUL (R121). 64-bit uniform multiplication, low or high by mod5. -/
  | smul (d a b : BitVec 6) (m st : BitVec 2)
  /-- SAND (R121). Uniform bitwise AND. -/
  | sand (d a b : BitVec 6) (st : BitVec 2)
  /-- SOR (R121). Uniform bitwise OR. -/
  | sor (d a b : BitVec 6) (st : BitVec 2)
  /-- SXOR (R121). Uniform bitwise XOR. -/
  | sxor (d a b : BitVec 6) (st : BitVec 2)
  /-- SANDN (R121). Uniform sa AND NOT sb. -/
  | sandn (d a b : BitVec 6) (st : BitVec 2)
  /-- SSHL (R121). Uniform shift left. -/
  | sshl (d a b : BitVec 6) (st : BitVec 2)
  /-- SSHR (R121). Uniform logical shift right. -/
  | sshr (d a b : BitVec 6) (st : BitVec 2)
  /-- SSAR (R121). Uniform arithmetic shift right. -/
  | ssar (d a b : BitVec 6) (st : BitVec 2)
  /-- SMIN (R121). Uniform signed minimum. -/
  | smin (d a b : BitVec 6) (st : BitVec 2)
  /-- SMAX (R121). Uniform signed maximum. -/
  | smax (d a b : BitVec 6) (st : BitVec 2)
  /-- SCMP (R122). Compares two uniform registers into a flag of every issuing lane. -/
  | scmp (c : BitVec 5) (a b : BitVec 6) (t m st : BitVec 2)
  /-- SSEL (R123). Selects sa or sb by an any, all or none flag test. -/
  | ssel (d a b : BitVec 6) (t n st : BitVec 2)
  /-- SADDI (R124). Adds a sign-extended 11-bit immediate. -/
  | saddi (d a : BitVec 6) (i : BitVec 11) (st : BitVec 2)
  /-- SLI (R124). Loads a sign-extended 11-bit immediate. -/
  | sli (d : BitVec 6) (i : BitVec 11) (st : BitVec 2)
  /-- SLIK (R124). ORs a shifted 11-bit immediate into sd. -/
  | slik (d k : BitVec 6) (i : BitVec 11) (st : BitVec 2)
  /-- SLD (R125). Loads 64 bits into a uniform register. -/
  | sld (d a : BitVec 6) (i : BitVec 11) (st : BitVec 2)
  /-- SST (R125). Stores 64 bits from a uniform register. -/
  | sst (d a : BitVec 6) (i : BitVec 11) (st : BitVec 2)
  /-- SBR (R126). Uniform branch on an any, all or none flag test. -/
  | sbr (c : BitVec 4) (o : BitVec 19) (st : BitVec 2)
  /-- SLOOP (R127). Decrements a counter and loops while above one. -/
  | sloop (d : BitVec 6) (i : BitVec 11) (st : BitVec 2)
  /-- SJMP (R128). Jumps through the jump table, checking the lpad without executing it. -/
  | sjmp (a : BitVec 6) (st : BitVec 2)
  /-- CLAUSE (R37). Clause header: checks the whole clause, then issues its body without rescheduling. -/
  | clause (n : BitVec 5) (st : BitVec 2)
  /-- CLEND (R36). Clause trailer: discards temporaries and exports up to four registers. -/
  | clend (b : BitVec 7) (w x y z : BitVec 4) (st : BitVec 2)
  /-- MFSR_UNIFORM (R28). Reads a special register into a uniform register. -/
  | mfsrUniform (d : BitVec 6) (r : BitVec 10) (st : BitVec 2)
  /-- MFSR_LANE (R28). Reads a 32-bit special register into a lane register per lane. -/
  | mfsrLane (d : BitVec 6) (h : BitVec 1) (r : BitVec 10) (st : BitVec 2)
  /-- MTSR_UNIFORM (R131). Writes a special register from a uniform register. -/
  | mtsrUniform (d : BitVec 6) (r : BitVec 10) (st : BitVec 2)
  /-- MTSR_LANE (R131). Writes a 32-bit special register from a lane register. -/
  | mtsrLane (d : BitVec 6) (h : BitVec 1) (r : BitVec 10) (st : BitVec 2)
  /-- WLOAD (R143). Loads a weight bank from local memory or through a shape slot. -/
  | wload (d a b : BitVec 6) (c w : BitVec 1) (st : BitVec 2)
  /-- WSWAP (R144). Makes the other weight bank current without waiting. -/
  | wswap (st : BitVec 2)
  /-- MMA (R145). Streams activation rows through the array into accumulator tiles. -/
  | mma (h a b : BitVec 6) (st : BitVec 2)
  /-- MMAC (R147). Streams rows assembled from tiles through the down-converter into the array. -/
  | mmac (h g b : BitVec 6) (st : BitVec 2)
  /-- ACC_ALLOC (R149). Allocates and zeroes accumulator tiles. -/
  | accAlloc (h n : BitVec 6) (st : BitVec 2)
  /-- ACC_FREE (R149). Releases accumulator tiles after earlier uses complete. -/
  | accFree (h n : BitVec 6) (st : BitVec 2)
  /-- ACC_RD (R152). Drains tile rows through the down-converter to local memory. -/
  | accRd (h a b : BitVec 6) (z : BitVec 1) (st : BitVec 2)
  /-- ACC_ANC (R150). Sets the anchor of tiles and zeroes them. -/
  | accAnc (h n b : BitVec 6) (st : BitVec 2)
  /-- ACC_FLG (R151). Reads, and optionally clears, a tile's flag word. -/
  | accFlg (d h : BitVec 6) (c : BitVec 1) (st : BitVec 2)
  /-- TSHAPE (R154). Reads and checks a shape record into a shape slot. -/
  | tshape (k : BitVec 3) (a : BitVec 6) (st : BitVec 2)
  /-- TLD (R155). Copies a box of a shape slot into local memory. -/
  | tld (k : BitVec 3) (a b : BitVec 6) (st : BitVec 2)
  /-- TST (R156). Copies a box from local memory to the shape's memory. -/
  | tst (k : BitVec 3) (a b : BitVec 6) (st : BitVec 2)
  /-- BAR_INIT (R162). Sets a barrier's expected count. -/
  | barInit (k : BitVec 5) (b : BitVec 6) (p : BitVec 3) (st : BitVec 2)
  /-- BAR_ARR (R162). Arrives at a barrier without waiting. -/
  | barArr (k : BitVec 5) (p : BitVec 3) (st : BitVec 2)
  /-- BAR_WAIT (R162). Waits for the barrier phase to pass the party's target. -/
  | barWait (k : BitVec 5) (p : BitVec 3) (st : BitVec 2)
  /-- BAR_AW (R162). Arrives and waits for the phase of that arrival. -/
  | barAw (k : BitVec 5) (p : BitVec 3) (st : BitVec 2)
  /-- BAR_TRY (R162). Waits up to a bound and writes whether the phase passed. -/
  | barTry (k : BitVec 5) (n : BitVec 2) (b : BitVec 6) (p : BitVec 3) (st : BitVec 2)
  /-- FENCE (R165). Orders earlier and later accesses at a scope. -/
  | fence (p : BitVec 3) (o st : BitVec 2)
  /-- IFENCE (R166). Discards instruction words fetched beyond it. -/
  | ifence (st : BitVec 2)
  /-- ICINV (R167). Invalidates a byte range in every instruction cache. -/
  | icinv (a b : BitVec 6) (st : BitVec 2)
  /-- COPY (R170). Submits a byte-copy engine job. -/
  | copy (a b : BitVec 6) (x y : BitVec 1) (st : BitVec 2)
  /-- COPYT (R171). Submits a tile-copy engine job between global and local memory. -/
  | copyt (a b : BitVec 6) (t : BitVec 1) (st : BitVec 2)
  /-- TASK_SUB (R172). Submits a job card to the task unit. -/
  | taskSub (d a : BitVec 6) (st : BitVec 2)
  /-- TASK_SIG_ADD (R169). Adds to a dependence counter. -/
  | taskSigAdd (a b : BitVec 6) (st : BitVec 2)
  /-- TASK_SIG_SET (R169). Sets a dependence counter and clears its sticky bits. -/
  | taskSigSet (a b : BitVec 6) (st : BitVec 2)
  /-- TASK_SIG_RD (R169). Reads a dependence counter with its sticky bits. -/
  | taskSigRd (d a : BitVec 6) (st : BitVec 2)
  /-- TASK_WAIT (R169). Waits until a counter reads zero. -/
  | taskWait (a : BitVec 6) (st : BitVec 2)
  /-- TASK_WAIT_TAKE (R169). Waits until a counter is at least one and decrements it. -/
  | taskWaitTake (a : BitVec 6) (st : BitVec 2)
  /-- TASK_TRY (R169). Tests without waiting whether a counter is zero. -/
  | taskTry (n : BitVec 2) (a : BitVec 6) (st : BitVec 2)
  /-- TASK_TRY_TAKE (R169). Decrements a positive counter without waiting, reporting success. -/
  | taskTryTake (n : BitVec 2) (a : BitVec 6) (st : BitVec 2)
  /-- LAUNCH (R173). Checks and enqueues a launch of the same context. -/
  | launch (d a b : BitVec 6) (st : BitVec 2)
  /-- REPLAY (R174). Queues an instance of a graph object with a parameter patch. -/
  | replay (n : BitVec 2) (a b : BitVec 6) (st : BitVec 2)
  /-- STEP_ENTER (R175). Team rendezvous that enters a step, takes gauge verdicts and waits on the lead. -/
  | stepEnter (a : BitVec 6) (st : BitVec 2)
  /-- STEP_PUB (R176). Publishes frame s of the versioned pages the context owns. -/
  | stepPub (a : BitVec 6) (st : BitVec 2)
  /-- VER_OPEN (R177). Opens the current step's frame of a versioned page. -/
  | verOpen (a : BitVec 6) (st : BitVec 2)
  /-- CKPT_FREEZE (R178). Pins the named versioned frames and starts a checkpoint drain. -/
  | ckptFreeze (d a : BitVec 6) (st : BitVec 2)
  /-- CKPT_STAT (R178). Reads a checkpoint's state and bytes drained. -/
  | ckptStat (d a : BitVec 6) (st : BitVec 2)
  /-- COLL_OPEN (R371). Reads and checks a collective record and returns a handle. -/
  | collOpen (d a : BitVec 6) (st : BitVec 2)
  /-- COLL_PUT (R179). Contributes to a collective at a step. -/
  | collPut (a b : BitVec 6) (st : BitVec 2)
  /-- COLL_WAIT (R179). Waits for the close of a collective step and returns its close word. -/
  | collWait (d a : BitVec 6) (st : BitVec 2)
  /-- COLL_STAT (R179). Returns a collective's close word without waiting. -/
  | collStat (d a : BitVec 6) (st : BitVec 2)
  /-- TIDE_RD (R180). Reads a tide entry, its heard time, or the table summary. -/
  | tideRd (d a : BitVec 6) (m : BitVec 5) (st : BitVec 2)
  /-- GAUGE (R181). Attaches or detaches a digest region list to a collective handle. -/
  | gauge (a b : BitVec 6) (st : BitVec 2)
  /-- PAT_LD (R182). Checks and loads a pattern image. -/
  | patLd (n : BitVec 2) (a b : BitVec 6) (st : BitVec 2)
  /-- PAT_NEXT (R183). Takes the ready head entry of the pattern, or waits. -/
  | patNext (d : BitVec 6) (st : BitVec 2)
  /-- PAT_DONE (R184). Retires an outstanding pattern entry and sends its signal. -/
  | patDone (a : BitVec 6) (st : BitVec 2)
  /-- STASH_PUT (R185). Binds a micro-batch tag to a stash slot. -/
  | stashPut (d a : BitVec 6) (st : BitVec 2)
  /-- STASH_GET (R185). Returns the base of the slot bound to a tag. -/
  | stashGet (d a : BitVec 6) (st : BitVec 2)
  /-- STASH_FREE (R185). Unbinds a tag's slot, clears its tag records and sends a credit upstream. -/
  | stashFree (a : BitVec 6) (st : BitVec 2)
  /-- TRAP (R186). Takes a software trap after the word with a code. -/
  | trap (c k : BitVec 6) (st : BitVec 2)
  /-- ERET (R187). Ends a trap handler and releases the halted team. -/
  | eret (st : BitVec 2)
  /-- BRK (R186). Takes a breakpoint trap after the word with a code. -/
  | brk (c k : BitVec 6) (st : BitVec 2)
  /-- HALT (R186). Halts the team without a trap. -/
  | halt (st : BitVec 2)
  /-- MAP (R188). Writes a page-table entry and invalidates its translations. -/
  | map (d a b : BitVec 6) (st : BitVec 2)
  /-- UNMAP (R188). Clears a page-table entry and invalidates. -/
  | unmap (a b : BitVec 6) (st : BitVec 2)
  /-- TLBINV (R188). Invalidates translations of a page, an ASID or all. -/
  | tlbinv (a b : BitVec 6) (st : BitVec 2)
  /-- FQ_POP (R188). Pops the oldest fault record. -/
  | fqPop (d : BitVec 6) (n st : BitVec 2)
  /-- RESUME (R336). Replays every party parked on a page of an ASID. -/
  | resume (a b : BitVec 6) (st : BitVec 2)
  /-- CTX_SAVE (R350). Pre-empts every team of a context and writes its image. -/
  | ctxSave (a b : BitVec 6) (st : BitVec 2)
  /-- CTX_REST (R350). Checks and restores a context image into a free slot. -/
  | ctxRest (a b : BitVec 6) (st : BitVec 2)
  /-- ILLEGAL_INSTRUCTION (R33). A lane or sequencer context reaches a word that is not an instruction and takes the precise
  illegal-instruction trap. -/
  | illegalInstruction (detail : Nat)
  /-- INSTRUCTION_FETCH_FAULT (R93). A lane's fetch finds no translation and parks, or meets an access violation or the peer window and
  faults. -/
  | instructionFetchFault (how : FetchFail) (addr : W64)
  /-- PENDING_REGISTER_WRITE (R212). A result with no fixed latency, or a pending clause export, is written to its destination register and
  leaves the scoreboard. -/
  | pendingRegisterWrite (team party lane : Nat) (reg : RegRef)
  /-- BAR_TRY_TIMEOUT (R300). A bar.try bound expires and writes its flag. -/
  | barTryTimeout (team party : Nat)
  /-- TEAM_PLACE (R216). The dispatcher places the next team of a ready launch in a die's placement slot. -/
  | teamPlace (die : Nat)
  /-- DISPATCH_SWAP (R222). A core idle for the DSWAP interval swaps out its oldest team for a waiting one. -/
  | dispatchSwap (core : Nat)
  /-- PARKED_SHARE_SWITCH (R337). Parked lanes reach the threshold share and the context's teams on the core are switched out. -/
  | parkedShareSwitch (slot core : Nat)
  /-- ENGDRAIN_EXPIRY (R313). The drain limit expires and remaining jobs of a pre-empted team are squashed. -/
  | engdrainExpiry (team : Nat)
  /-- TEAM_RETIRE (R214). A team whose lanes have all exited retires once its accesses and jobs complete. -/
  | teamRetire (team : Nat)
  /-- TASK_START (R307). A ready task starts on a free engine or its launch is enqueued. -/
  | taskStart (task : Nat)
  /-- JOB_COMPLETE (R303). An engine job's writes are performed and it frees its entry, decrements its counter and releases edges. -/
  | jobComplete (task : Nat)
  /-- JOB_PARK (R170). A running job meets a missing translation and parks with a fault record. -/
  | jobPark (task : Nat)
  /-- REPLAY_INSTANCE_START (R316). A queued graph instance starts and submits its patched cards. -/
  | replayInstanceStart (inst : Nat)
  /-- CONTEXT_TEARDOWN (R317). Teardown discards every team, task and launch of a context. -/
  | contextTeardown (slot : Nat)
  /-- TEAM_HALT (R338). The skid after a trap ends and the team halts. -/
  | teamHalt (team : Nat)
  /-- FRAME_OPEN_RETRY (R292). A frame becomes free or recyclable and parked writers open it. -/
  | frameOpenRetry (team party : Nat)
  /-- FRAME_PUBLISH (R293). A frame is published once every access directed to it is performed. -/
  | framePublish (ring : Nat) (step : W32)
  /-- STALENESS_FAULT (R368). A lane parked at ldv reaches the staleness limit and faults. -/
  | stalenessFault (team party lane : Nat)
  /-- WCB_AGE_DRAIN (R288). A write-combining line's ageing interval expires and it drains. -/
  | wcbAgeDrain (core : Nat)
  /-- WCB_FLUSH (R289). A write of WCBCTL.flush drains every line of every core. -/
  | wcbFlush
  /-- PEER_REQUEST_RECEIVE (R416). A peer-window request reaches the target ingress and is performed in sequence order. -/
  | peerRequestReceive (r : PeerReq)
  /-- PEER_RESPONSE_LAND (R406). A response lands, writes its lanes' destinations and frees its slot and buffer space. -/
  | peerResponseLand (core module seq : Nat) (answer : PeerAnswer)
  /-- PEER_ACK_LAND (R417). A write acknowledgement lands and frees its slot. -/
  | peerAckLand (core module seq : Nat) (err : Option Nat)
  /-- LINK_REPLAY (R422). A link replays lost or corrupted flits from its replay buffer. -/
  | linkReplay (port : Nat)
  /-- LINK_RETRAIN (R422). A port retrains on excess replays or partner request, degrading or being lost. -/
  | linkRetrain (port width : Nat)
  /-- MODULE_UNREACHABLE (R424). No route remains for lossto and the module's traffic ends with errors. -/
  | moduleUnreachable (module : Nat)
  /-- TIDE_ENABLE (R363). Setting TIDECTL.enable starts beacons and silence timing. -/
  | tideEnable (value : W64)
  /-- TIDE_BEACON_SEND (R364). The device sends a beacon on an increase of D or at the beat interval. -/
  | tideBeaconSend
  /-- TIDE_BEACON_RECEIVE (R363). A beacon updates a tide entry and may end lead waits. -/
  | tideBeaconReceive (module : Nat) (step : W32)
  /-- TIDE_LATE_EXPIRY (R363). A silent live entry becomes late. -/
  | tideLateExpiry (entry : Nat)
  /-- TIDE_ABSENT_EXPIRY (R363). A silent entry is marked absent. -/
  | tideAbsentExpiry (entry : Nat)
  /-- COLL_CONTRIBUTION_ARRIVAL (R373). An owner classes an arriving contribution against the chunk's open step. -/
  | collContributionArrival (handle chunk : Nat) (k : Contribution)
  /-- COLL_TIMER_CLOSE (R374). A chunk's close timer expires and closes it. -/
  | collTimerClose (handle chunk : Nat)
  /-- COLL_CLOSE_RECEIVE (R377). A member receives a chunk's close record and result and writes them. -/
  | collCloseReceive (handle : Nat) (k : ChunkClose)
  /-- GAUGE_DIGEST_RECEIVE (R382). A member receives a peer digest and decides the verdict when all have arrived. -/
  | gaugeDigestReceive (handle : Nat) (step : W32) (member : Nat) (digest : BitVec 128)
  /-- PARTIAL_ARRIVAL (R428). A contribution or partial arrives at a port adder. -/
  | partialArrival (handle chunk : Nat) (k : Contribution)
  /-- COMBINE_WINDOW_EXPIRY (R428). A combining window ends and the adder forwards one partial. -/
  | combineWindowExpiry (handle chunk : Nat) (step : W32)
  /-- CKPT_DRAIN_END (R384). A checkpoint drain ends done or failed, releasing pins and decrementing its counter. -/
  | ckptDrainEnd (ckpt : Nat) (failed : Bool)
  /-- PATTERN_SIGNAL_RECEIVE (R396). A pattern signal adds one to an index's arrival count. -/
  | patternSignalReceive (asid : BitVec 16) (index : Nat)
  /-- CREDIT_RECEIVE (R396). A free-slot credit adds one to the credit count. -/
  | creditReceive (asid : BitVec 16)
  /-- PATTERN_HANDOUT (R397). A ready head entry is handed to a waiting strand or to the dispatcher. -/
  | patternHandout
  /-- PATCFG_ENABLE (R394). Setting PATCFG.enable resets credits, arrivals, slots and pattern. -/
  | patcfgEnable (value : W64)
  /-- PATCFG_DISABLE (R394). Clearing PATCFG.enable discards the pattern and unbinds slots. -/
  | patcfgDisable (value : W64)
  /-- SAMPLE_TICK (R436). Each core writes one stall sample every interval. -/
  | sampleTick
  /-- TRACE_FRAME_SEND (R440). A die buffer sends one trace record frame over a trace lane. -/
  | traceFrameSend (die : Nat)
  /-- TRACE_OVERFLOW_RECORD (R440). When space returns after overflow the die writes an overflow record. -/
  | traceOverflowRecord (die : Nat)
  /-- DEBUG_HALT (R433). DBGHALT.halt stops the named team as a skid does. -/
  | debugHalt (value : W64)
  /-- DEBUG_RELEASE (R433). DBGHALT.release releases the named team. -/
  | debugRelease (value : W64)
  /-- DBGDATA_READ (R434). Reads the item of state that DBGSEL names. -/
  | dbgdataRead
  /-- DBGDATA_WRITE (R434). Writes the item of state that DBGSEL names. -/
  | dbgdataWrite (value : W64)
  /-- FREEZE_PIN (R443). A rising FREEZE edge stops every clock of the module. -/
  | freezePin
  /-- MGMT_FREEZE (R443). The freeze command of a management port freezes the module. -/
  | mgmtFreeze (port : Nat)
  /-- JTAG_EXTEST (R444). JTAG boundary-scan external test. -/
  | jtagExtest (bits : List Bool)
  /-- JTAG_IDCODE (R444). JTAG returns the 32-bit identification code. -/
  | jtagIdcode
  /-- JTAG_SAMPLE_PRELOAD (R444). JTAG samples or preloads the boundary scan. -/
  | jtagSamplePreload (bits : List Bool)
  /-- JTAG_FREEZE (R444). JTAG update with 1 freezes the module. -/
  | jtagFreeze (bit : Bool)
  /-- JTAG_DSEL (R444). JTAG accesses DBGSEL. -/
  | jtagDsel (value : W64)
  /-- JTAG_DDATA (R444). JTAG accesses DBGDATA. -/
  | jtagDdata (value : Option W64)
  /-- JTAG_BYPASS (R444). JTAG one-bit bypass. -/
  | jtagBypass (bit : Bool)
  /-- HOST_FAR_READ (R448). A host read through BAR 2 of far memory. -/
  | hostFarRead (offset n : Nat)
  /-- HOST_FAR_WRITE (R448). A host write through BAR 2 to far memory. -/
  | hostFarWrite (offset : Nat) (bytes : List W8)
  /-- DOORBELL (R451). A doorbell write submits a launch window's launch. -/
  | doorbell (q : Nat)
  /-- MSIX_UNMASK (R447). Unmasking a vector with its pending bit set sends one message. -/
  | msixUnmask (vector : Nat)
  /-- MGMTSEM_ACQUIRE (R452). A management port takes the semaphore when free. -/
  | mgmtsemAcquire (port : Nat)
  /-- MGMTSEM_RELEASE (R452). The owner frees the semaphore. -/
  | mgmtsemRelease (port : Nat)
  /-- MGMT_LINK_LOSS_RELEASE (R452). A port whose link is down for the limit releases the semaphore. -/
  | mgmtLinkLossRelease (port : Nat)
  /-- IDENTITY (R456). Returns the module's identity certificate. -/
  | identity (port : Nat)
  /-- ATTEST (R456). Returns a signed attestation report over a nonce. -/
  | attest (port : Nat) (nonce : BitVec 512)
  /-- BRING_UP (R454). RESET_N rises and bring-up runs its steps to ready or failure. -/
  | bringUp (straps : W64) (firmware : Firmware)
  /-- KEY_LOAD (R457). Loads KEYDATA into a key slot. -/
  | keyLoad (port : Nat) (value : W64)
  /-- KEY_EMPTY (R457). Empties a key slot and zeroes KEYDATA. -/
  | keyEmpty (port : Nat) (value : W64)
  /-- POWER_CAP_THROTTLE (R459). Measured power above the cap lowers the clock state. -/
  | powerCapThrottle (watts : Nat)
  /-- THERMAL_THROTTLE (R460). Temperature reaching throttle holds the clock at P1 or slower. -/
  | thermalThrottle (temp : W8)
  /-- THERMAL_TRIP (R460). Temperature reaching trip freezes the module and removes power. -/
  | thermalTrip (temp : W8)
  /-- REGISTER_WRITE (R13). A write to a control register without a row of its own. -/
  | registerWrite (port : Nat) (window : CtrlWindow) (offset : Nat) (value : W64)
  /-- LONG_WORD_UNIT_COMPLETE (R157). A unit (row) of a long matrix or tile word completes and its progress index advances. -/
  | longWordUnitComplete (team party : Nat)
  /-- END_TO_END_ACK_RECEIVE (R423). An end-to-end acknowledgement of a message or bulk unit lands at the sender, which then releases the
  stored unit. -/
  | endToEndAckReceive (module number : Nat)
  /-- THERMAL_THROTTLE_RELEASE (R460). The hottest die falls 5 °C below the throttle temperature and the clock hold at P1 is lifted. -/
  | thermalThrottleRelease (temp : W8)
  deriving DecidableEq, Repr

end Sys2Proof
end

