-- ==== Sys2Proof/WellFormed.lean ====
section
/-! DEFINITION. Which instructions hold no reserved value in an encoded field (R18, R20, R30, R31, R33 detail 3, and the
entry of each word). What depends on the issuing party (allotment, level, stream) is checked when the word runs. -/

namespace Sys2Proof

/-- Two register ranges share a register. -/
def overlap (a n b m : Nat) : Bool := decide (a < b + m) && decide (b < a + n)

/-- The rounding code in vb[6:4] of a conversion is none of the reserved codes 5 and 6 (R61, R67). -/
def cvtOk (c : BitVec 7) : Bool := c.toNat / 16 != 5 && c.toNat / 16 != 6

/-- Float type codes 2 and 3 are the 16-bit formats (R67). -/
def half (t : Nat) : Bool := t == 2 || t == 3

/-- A barrier scope is 2 to 5, and a wide barrier number is at most 15 (R162). -/
def barOk (p : BitVec 3) (k : BitVec 5) : Bool :=
  p == 2 || ((p == 3 || p == 4 || p == 5) && decide (k.toNat ≤ 15))

/-- No encoded field of the instruction holds a reserved value, and its word is not one that R16 makes illegal. -/
def wellFormed (i : Instr) : Bool :=
  match i with
  | .add d a b m st => !(d == 0 && a == 0 && b == 0 && m == 0 && st == 0)
  | .sub _ _ _ _ _ => true
  | .mul _ _ _ _ _ => true
  | .mad _ _ _ _ _ => true
  | .and _ _ _ _ => true
  | .or _ _ _ _ => true
  | .xor _ _ _ _ => true
  | .andn _ _ _ _ => true
  | .shl _ _ _ _ => true
  | .shr _ _ _ _ => true
  | .sar _ _ _ _ => true
  | .rot _ _ _ _ => true
  | .min _ _ _ _ => true
  | .max _ _ _ _ => true
  | .cmp d _ _ _ _ => decide ((d.toNat / 4) % 8 ≤ 5) && decide (d.toNat / 32 ≠ 3)
  | .sel _ _ _ _ _ => true
  | .popc _ _ _ => true
  | .clz _ _ _ => true
  | .brev _ _ _ => true
  | .bfe _ _ _ _ => true
  | .mov _ _ _ => true
  | .movc _ _ => true
  | .addi _ _ _ _ => true
  | .andi _ _ _ _ => true
  | .shli _ _ _ _ => true
  | .shri _ _ _ _ => true
  | .sari _ _ _ _ => true
  | .li _ _ _ => true
  | .lih _ _ _ => true
  | .fadd _ _ _ _ _ => true
  | .fsub _ _ _ _ _ => true
  | .fmul _ _ _ _ _ => true
  | .ffma _ _ _ _ _ => true
  | .fmin _ _ _ _ _ => true
  | .fmax _ _ _ _ _ => true
  | .fcmp d _ _ _ _ => decide (d.toNat / 32 ≠ 3)
  | .fsgn _ _ _ m _ => m != 3
  | .cvtF _ _ c h _ _ => cvtOk c && c.toNat % 4 != c.toNat / 4 % 4 && (h == 0 || half (c.toNat % 4) || half (c.toNat / 4 % 4))
  | .cvtFi _ _ c h _ => cvtOk c && (h == 0 || half (c.toNat % 4))
  | .cvtIf _ _ c h _ => cvtOk c && (h == 0 || half (c.toNat / 4 % 4))
  | .fclass _ _ _ _ => true
  | .rcp _ _ _ _ => true
  | .rsqrt _ _ _ _ => true
  | .sqrt _ _ _ _ => true
  | .exp2 _ _ _ _ => true
  | .log2 _ _ _ _ => true
  | .sin _ _ _ => true
  | .cos _ _ _ => true
  | .tanh _ _ _ => true
  | .lgst _ _ _ => true
  | .shfl _ _ _ _ _ => true
  | .voteAny _ _ _ => true
  | .voteAll _ _ _ => true
  | .voteBallot _ _ _ => true
  | .scan _ _ _ _ => true
  | .matchLanes _ _ _ _ => true
  | .elect _ _ => true
  | .reds _ _ _ _ => true
  | .redsAf _ _ _ m _ => m != 3
  | .redsInt _ _ o _ _ => o != 3
  | .bra _ _ _ => true
  | .brx _ _ => true
  | .lpad _ _ => true
  | .call _ _ => true
  | .ret _ => true
  | .reconv _ _ => true
  | .exit _ => true
  | .ldB _ _ _ c o _ => c != 7 && (o == 0 || o == 1 || o == 4)
  | .ldH _ _ _ c o _ => c != 7 && (o == 0 || o == 1 || o == 4)
  | .ldW _ _ _ c o _ => c != 7 && (o == 0 || o == 1 || o == 4)
  | .ldD _ _ _ c o _ => c != 7 && (o == 0 || o == 1 || o == 4)
  | .ldQ _ _ _ c o _ => c != 7 && (o == 0 || o == 1 || o == 4)
  | .stB _ _ _ c o _ => c != 7 && (o == 0 || o == 2 || o == 4)
  | .stH _ _ _ c o _ => c != 7 && (o == 0 || o == 2 || o == 4)
  | .stW _ _ _ c o _ => c != 7 && (o == 0 || o == 2 || o == 4)
  | .stD _ _ _ c o _ => c != 7 && (o == 0 || o == 2 || o == 4)
  | .stQ _ _ _ c o _ => c != 7 && (o == 0 || o == 2 || o == 4)
  | .ldv _ _ _ c _ _ => c != 7
  | .ldvTag _ _ _ c _ _ => c != 7
  | .atom _ _ _ c o _ => c != 7 && decide (o.toNat ≤ 3)
  | .red _ _ _ c o _ => c != 7 && (o == 0 || o == 2)
  | .qopPop _ _ _ _ => true
  | .qopPush _ _ _ _ => true
  | .rand d a _ i _ => i == 0 || !overlap d.toNat 4 a.toNat 4
  | .tcon d a u t m _ => m != 3 && decide (t.toNat ≤ 1) && !overlap d.toNat (8 * (t.toNat + 1)) a.toNat (t.toNat + 1) && !overlap d.toNat (8 * (t.toNat + 1)) (8 * u.toNat) (8 * (t.toNat + 1))
  | .sadd _ _ _ _ => true
  | .ssub _ _ _ _ => true
  | .smul _ _ _ m _ => m != 3
  | .sand _ _ _ _ => true
  | .sor _ _ _ _ => true
  | .sxor _ _ _ _ => true
  | .sandn _ _ _ _ => true
  | .sshl _ _ _ _ => true
  | .sshr _ _ _ _ => true
  | .ssar _ _ _ _ => true
  | .smin _ _ _ _ => true
  | .smax _ _ _ _ => true
  | .scmp c _ _ t m _ => decide (c.toNat / 4 ≤ 5) && m != 3 && decide (t.toNat ≤ 1)
  | .ssel _ _ _ t _ _ => t != 3
  | .saddi _ _ _ _ => true
  | .sli _ _ _ => true
  | .slik _ k _ _ => decide (k.toNat ≤ 53)
  | .sld _ _ _ _ => true
  | .sst _ _ _ _ => true
  | .sbr c _ _ => decide (4 ≤ c.toNat) || c == 0
  | .sloop _ _ _ => true
  | .sjmp _ _ => true
  | .clause _ _ => true
  | .clend _ _ _ _ _ _ => true
  | .mfsrUniform _ r _ => decide (r.toNat ≤ 15)
  | .mfsrLane _ _ r _ => decide (r.toNat ≤ 15)
  | .mtsrUniform _ r _ => decide (r.toNat ≤ 15)
  | .mtsrLane _ _ r _ => decide (r.toNat ≤ 15)
  | .wload d _ b c _ _ => if c == 0 then d == 0 && b == 0 else decide (d.toNat ≤ 7)
  | .wswap _ => true
  | .mma _ _ _ _ => true
  | .mmac _ _ _ _ => true
  | .accAlloc _ _ _ => true
  | .accFree _ _ _ => true
  | .accRd _ _ _ _ _ => true
  | .accAnc _ _ _ _ => true
  | .accFlg _ _ _ _ => true
  | .tshape _ _ _ => true
  | .tld _ _ _ _ => true
  | .tst _ _ _ _ => true
  | .barInit k _ p _ => barOk p k
  | .barArr k p _ => barOk p k
  | .barWait k p _ => barOk p k
  | .barAw k p _ => barOk p k
  | .barTry k _ _ p _ => barOk p k
  | .fence p o _ => p != 7 && o != 3
  | .ifence _ => true
  | .icinv _ _ _ => true
  | .copy _ _ _ _ _ => true
  | .copyt _ _ _ _ => true
  | .taskSub _ _ _ => true
  | .taskSigAdd _ _ _ => true
  | .taskSigSet _ _ _ => true
  | .taskSigRd _ _ _ => true
  | .taskWait _ _ => true
  | .taskWaitTake _ _ => true
  | .taskTry _ _ _ => true
  | .taskTryTake _ _ _ => true
  | .launch _ _ _ _ => true
  | .replay _ _ _ _ => true
  | .stepEnter _ _ => true
  | .stepPub _ _ => true
  | .verOpen _ _ => true
  | .ckptFreeze _ _ _ => true
  | .ckptStat _ _ _ => true
  | .collOpen _ _ _ => true
  | .collPut _ _ _ => true
  | .collWait _ _ _ => true
  | .collStat _ _ _ => true
  | .tideRd _ _ m _ => decide (m.toNat ≤ 2)
  | .gauge _ _ _ => true
  | .patLd _ _ _ _ => true
  | .patNext _ _ => true
  | .patDone _ _ => true
  | .stashPut _ _ _ => true
  | .stashGet _ _ _ => true
  | .stashFree _ _ => true
  | .trap _ _ _ => true
  | .eret _ => true
  | .brk _ _ _ => true
  | .halt _ => true
  | .map _ _ _ _ => true
  | .unmap _ _ _ => true
  | .tlbinv _ _ _ => true
  | .fqPop _ _ _ => true
  | .resume _ _ _ => true
  | .ctxSave _ _ _ => true
  | .ctxRest _ _ _ => true
  | .barTryTimeout _ _ => true
  | .teamPlace _ => true
  | .dispatchSwap _ => true
  | .parkedShareSwitch _ _ => true
  | .engdrainExpiry _ => true
  | .teamRetire _ => true
  | .taskStart _ => true
  | .jobComplete _ => true
  | .jobPark _ => true
  | .replayInstanceStart _ => true
  | .contextTeardown _ => true
  | .teamHalt _ => true
  | .frameOpenRetry _ _ => true
  | .framePublish _ _ => true
  | .stalenessFault _ _ _ => true
  | .wcbAgeDrain _ => true
  | .wcbFlush => true
  | .peerRequestReceive _ => true
  | .peerResponseLand _ _ _ _ => true
  | .peerAckLand _ _ _ _ => true
  | .linkReplay _ => true
  | .linkRetrain _ _ => true
  | .moduleUnreachable _ => true
  | .tideEnable _ => true
  | .tideBeaconSend => true
  | .tideBeaconReceive _ _ => true
  | .tideLateExpiry _ => true
  | .tideAbsentExpiry _ => true
  | .collContributionArrival _ _ _ => true
  | .collTimerClose _ _ => true
  | .collCloseReceive _ _ => true
  | .gaugeDigestReceive _ _ _ _ => true
  | .partialArrival _ _ _ => true
  | .combineWindowExpiry _ _ _ => true
  | .ckptDrainEnd _ _ => true
  | .patternSignalReceive _ _ => true
  | .creditReceive _ => true
  | .patternHandout => true
  | .patcfgEnable _ => true
  | .patcfgDisable _ => true
  | .sampleTick => true
  | .traceFrameSend _ => true
  | .traceOverflowRecord _ => true
  | .debugHalt _ => true
  | .debugRelease _ => true
  | .dbgdataRead => true
  | .dbgdataWrite _ => true
  | .freezePin => true
  | .mgmtFreeze _ => true
  | .jtagExtest _ => true
  | .jtagIdcode => true
  | .jtagSamplePreload _ => true
  | .jtagFreeze _ => true
  | .jtagDsel _ => true
  | .jtagDdata _ => true
  | .jtagBypass _ => true
  | .hostFarRead _ _ => true
  | .hostFarWrite _ _ => true
  | .doorbell _ => true
  | .msixUnmask _ => true
  | .mgmtsemAcquire _ => true
  | .mgmtsemRelease _ => true
  | .mgmtLinkLossRelease _ => true
  | .identity _ => true
  | .attest _ _ => true
  | .bringUp _ _ => true
  | .keyLoad _ _ => true
  | .keyEmpty _ _ => true
  | .powerCapThrottle _ => true
  | .thermalThrottle _ => true
  | .thermalTrip _ => true
  | .registerWrite _ _ _ _ => true
  | .illegalInstruction _ => true
  | .instructionFetchFault _ _ => true
  | .pendingRegisterWrite _ _ _ _ => true
  | .longWordUnitComplete _ _ => true
  | .endToEndAckReceive _ _ => true
  | .thermalThrottleRelease _ => true

end Sys2Proof
end

