-- ==== Sys2Proof/Decode.lean ====
section
/-! DEFINITION. The decoder, from the opcode maps of R30 and R31 and the formats of R18, and the encoder written from the
same tables. A word is refused by name: R16, an unassigned major, or a reserved value (details 1 to 3 of R33). -/

namespace Sys2Proof

/-- Why bytes are no instruction. -/
inductive Reject where
  /-- 0x0000_0000 or 0xFFFF_FFFF (R16, detail 1) -/
  | illegal
  /-- a major that is reserved or never assigned (detail 2) -/
  | unassigned
  /-- a reserved selector or field value, or a nonzero unused field (R18, detail 3) -/
  | reserved
  /-- fewer than four bytes -/
  | truncated
  deriving DecidableEq, Repr

/-- The detail of R33 that a rejected word records. -/
def Reject.detail : Reject → Nat
  | .illegal => 1
  | .unassigned => 2
  | .reserved => 3
  | .truncated => 3

/-- Field of n bits whose lowest bit is bit lo. -/
def fd (w : W32) (lo n : Nat) : BitVec n := BitVec.ofNat n (w.toNat / 2 ^ lo)

/-- Bits [hi:lo] of the word hold v. -/
def fx (w : W32) (hi lo v : Nat) : Bool := w.toNat / 2 ^ lo % 2 ^ (hi - lo + 1) == v

/-- The L majors 0x00 to 0x07 (R30). -/
def rows0 (w : W32) (m : Nat) : Except Reject Instr :=
  if m = 0 then .ok (.add (fd w 18 7) (fd w 11 7) (fd w 4 7) (fd w 2 2) (fd w 0 2))
  else if m = 1 then .ok (.sub (fd w 18 7) (fd w 11 7) (fd w 4 7) (fd w 2 2) (fd w 0 2))
  else if m = 2 then .ok (.mul (fd w 18 7) (fd w 11 7) (fd w 4 7) (fd w 2 2) (fd w 0 2))
  else if m = 3 then .ok (.mad (fd w 18 7) (fd w 11 7) (fd w 4 7) (fd w 2 2) (fd w 0 2))
  else if m = 4 then
    if fx w 3 2 0 then .ok (.and (fd w 18 7) (fd w 11 7) (fd w 4 7) (fd w 0 2))
    else if fx w 3 2 1 then .ok (.or (fd w 18 7) (fd w 11 7) (fd w 4 7) (fd w 0 2))
    else if fx w 3 2 2 then .ok (.xor (fd w 18 7) (fd w 11 7) (fd w 4 7) (fd w 0 2))
    else if fx w 3 2 3 then .ok (.andn (fd w 18 7) (fd w 11 7) (fd w 4 7) (fd w 0 2))
    else .error .reserved
  else if m = 5 then
    if fx w 3 2 0 then .ok (.shl (fd w 18 7) (fd w 11 7) (fd w 4 7) (fd w 0 2))
    else if fx w 3 2 1 then .ok (.shr (fd w 18 7) (fd w 11 7) (fd w 4 7) (fd w 0 2))
    else if fx w 3 2 2 then .ok (.sar (fd w 18 7) (fd w 11 7) (fd w 4 7) (fd w 0 2))
    else if fx w 3 2 3 then .ok (.rot (fd w 18 7) (fd w 11 7) (fd w 4 7) (fd w 0 2))
    else .error .reserved
  else if m = 6 then
    if fx w 3 2 0 then .ok (.min (fd w 18 7) (fd w 11 7) (fd w 4 7) (fd w 0 2))
    else if fx w 3 2 1 then .ok (.max (fd w 18 7) (fd w 11 7) (fd w 4 7) (fd w 0 2))
    else .error .reserved
  else if m = 7 then .ok (.cmp (fd w 18 7) (fd w 11 7) (fd w 4 7) (fd w 2 2) (fd w 0 2))
  else .error .unassigned

/-- The L majors 0x08 to 0x0F (R30). -/
def rows1 (w : W32) (m : Nat) : Except Reject Instr :=
  if m = 8 then .ok (.sel (fd w 18 7) (fd w 11 7) (fd w 4 7) (fd w 2 2) (fd w 0 2))
  else if m = 9 then
    if fx w 10 2 0 then .ok (.popc (fd w 18 7) (fd w 11 7) (fd w 0 2))
    else if fx w 10 2 1 then .ok (.clz (fd w 18 7) (fd w 11 7) (fd w 0 2))
    else if fx w 10 2 2 then .ok (.brev (fd w 18 7) (fd w 11 7) (fd w 0 2))
    else if fx w 3 2 3 then .ok (.bfe (fd w 18 7) (fd w 11 7) (fd w 4 7) (fd w 0 2))
    else .error .reserved
  else if m = 10 then
    if fx w 10 2 0 then .ok (.mov (fd w 18 7) (fd w 11 7) (fd w 0 2))
    else if fx w 17 2 1 then .ok (.movc (fd w 18 7) (fd w 0 2))
    else .error .reserved
  else if m = 11 then .ok (.addi (fd w 18 7) (fd w 11 7) (fd w 2 9) (fd w 0 2))
  else if m = 12 then .ok (.andi (fd w 18 7) (fd w 11 7) (fd w 2 9) (fd w 0 2))
  else if m = 13 then
    if fx w 10 7 0 then .ok (.shli (fd w 18 7) (fd w 11 7) (fd w 2 5) (fd w 0 2))
    else if fx w 10 7 4 then .ok (.shri (fd w 18 7) (fd w 11 7) (fd w 2 5) (fd w 0 2))
    else if fx w 10 7 8 then .ok (.sari (fd w 18 7) (fd w 11 7) (fd w 2 5) (fd w 0 2))
    else .error .reserved
  else if m = 14 then .ok (.li (fd w 18 7) (fd w 2 16) (fd w 0 2))
  else if m = 15 then .ok (.lih (fd w 18 7) (fd w 2 16) (fd w 0 2))
  else .error .unassigned

/-- The L majors 0x10 to 0x17 (R30). -/
def rows2 (w : W32) (m : Nat) : Except Reject Instr :=
  if m = 16 then .ok (.fadd (fd w 18 7) (fd w 11 7) (fd w 4 7) (fd w 2 2) (fd w 0 2))
  else if m = 17 then .ok (.fsub (fd w 18 7) (fd w 11 7) (fd w 4 7) (fd w 2 2) (fd w 0 2))
  else if m = 18 then .ok (.fmul (fd w 18 7) (fd w 11 7) (fd w 4 7) (fd w 2 2) (fd w 0 2))
  else if m = 19 then .ok (.ffma (fd w 18 7) (fd w 11 7) (fd w 4 7) (fd w 2 2) (fd w 0 2))
  else if m = 20 then .ok (.fmin (fd w 18 7) (fd w 11 7) (fd w 4 7) (fd w 2 2) (fd w 0 2))
  else if m = 21 then .ok (.fmax (fd w 18 7) (fd w 11 7) (fd w 4 7) (fd w 2 2) (fd w 0 2))
  else if m = 22 then .ok (.fcmp (fd w 18 7) (fd w 11 7) (fd w 4 7) (fd w 2 2) (fd w 0 2))
  else if m = 23 then .ok (.fsgn (fd w 18 7) (fd w 11 7) (fd w 4 7) (fd w 2 2) (fd w 0 2))
  else .error .unassigned

/-- The L majors 0x18 to 0x1F (R30). -/
def rows3 (w : W32) (m : Nat) : Except Reject Instr :=
  if m = 24 then .ok (.cvtF (fd w 18 7) (fd w 11 7) (fd w 4 7) (fd w 3 1) (fd w 2 1) (fd w 0 2))
  else if m = 25 then
    if fx w 2 2 0 then .ok (.cvtFi (fd w 18 7) (fd w 11 7) (fd w 4 7) (fd w 3 1) (fd w 0 2))
    else .error .reserved
  else if m = 26 then
    if fx w 2 2 0 then .ok (.cvtIf (fd w 18 7) (fd w 11 7) (fd w 4 7) (fd w 3 1) (fd w 0 2))
    else .error .reserved
  else if m = 27 then
    if fx w 10 4 0 then .ok (.fclass (fd w 18 7) (fd w 11 7) (fd w 2 2) (fd w 0 2))
    else .error .reserved
  else if m = 28 then
    if fx w 10 5 0 && fx w 3 2 0 then .ok (.rcp (fd w 18 7) (fd w 11 7) (fd w 4 1) (fd w 0 2))
    else if fx w 10 5 0 && fx w 3 2 1 then .ok (.rsqrt (fd w 18 7) (fd w 11 7) (fd w 4 1) (fd w 0 2))
    else if fx w 10 5 0 && fx w 3 2 2 then .ok (.sqrt (fd w 18 7) (fd w 11 7) (fd w 4 1) (fd w 0 2))
    else .error .reserved
  else if m = 29 then
    if fx w 10 5 0 && fx w 3 2 0 then .ok (.exp2 (fd w 18 7) (fd w 11 7) (fd w 4 1) (fd w 0 2))
    else if fx w 10 5 0 && fx w 3 2 1 then .ok (.log2 (fd w 18 7) (fd w 11 7) (fd w 4 1) (fd w 0 2))
    else .error .reserved
  else if m = 30 then
    if fx w 10 2 0 then .ok (.sin (fd w 18 7) (fd w 11 7) (fd w 0 2))
    else if fx w 10 2 1 then .ok (.cos (fd w 18 7) (fd w 11 7) (fd w 0 2))
    else .error .reserved
  else if m = 31 then
    if fx w 10 2 0 then .ok (.tanh (fd w 18 7) (fd w 11 7) (fd w 0 2))
    else if fx w 10 2 1 then .ok (.lgst (fd w 18 7) (fd w 11 7) (fd w 0 2))
    else .error .reserved
  else .error .unassigned

/-- The L majors 0x20 to 0x27 (R30). -/
def rows4 (w : W32) (m : Nat) : Except Reject Instr :=
  if m = 32 then .ok (.shfl (fd w 18 7) (fd w 11 7) (fd w 4 7) (fd w 2 2) (fd w 0 2))
  else if m = 33 then
    if fx w 24 20 0 && fx w 17 6 0 && fx w 3 2 0 then .ok (.voteAny (fd w 18 2) (fd w 4 2) (fd w 0 2))
    else if fx w 24 20 0 && fx w 17 6 0 && fx w 3 2 1 then .ok (.voteAll (fd w 18 2) (fd w 4 2) (fd w 0 2))
    else if fx w 17 6 0 && fx w 3 2 2 then .ok (.voteBallot (fd w 18 7) (fd w 4 2) (fd w 0 2))
    else .error .reserved
  else if m = 34 then
    if fx w 10 4 0 then .ok (.scan (fd w 18 7) (fd w 11 7) (fd w 2 2) (fd w 0 2))
    else .error .reserved
  else if m = 35 then
    if fx w 10 3 0 then .ok (.matchLanes (fd w 18 7) (fd w 11 7) (fd w 2 1) (fd w 0 2))
    else .error .reserved
  else if m = 36 then
    if fx w 24 20 0 && fx w 17 2 0 then .ok (.elect (fd w 18 2) (fd w 0 2))
    else .error .reserved
  else if m = 37 then
    if fx w 10 4 0 then .ok (.reds (fd w 18 7) (fd w 11 7) (fd w 2 2) (fd w 0 2))
    else .error .reserved
  else if m = 38 then .ok (.redsAf (fd w 18 7) (fd w 11 7) (fd w 4 7) (fd w 2 2) (fd w 0 2))
  else if m = 39 then
    if fx w 10 6 0 then .ok (.redsInt (fd w 18 7) (fd w 11 7) (fd w 4 2) (fd w 2 2) (fd w 0 2))
    else .error .reserved
  else .error .unassigned

/-- The L majors 0x28 to 0x2F (R30). -/
def rows5 (w : W32) (m : Nat) : Except Reject Instr :=
  if m = 40 then .ok (.bra (fd w 22 3) (fd w 2 20) (fd w 0 2))
  else if m = 41 then
    if fx w 24 18 0 && fx w 10 2 0 then .ok (.brx (fd w 11 7) (fd w 0 2))
    else .error .reserved
  else if m = 42 then
    if fx w 24 18 0 then .ok (.lpad (fd w 2 16) (fd w 0 2))
    else .error .reserved
  else if m = 43 then
    if fx w 24 22 0 then .ok (.call (fd w 2 20) (fd w 0 2))
    else if fx w 24 2 1048576 then .ok (.ret (fd w 0 2))
    else .error .reserved
  else if m = 44 then
    if fx w 24 18 0 then .ok (.reconv (fd w 2 16) (fd w 0 2))
    else .error .reserved
  else if m = 45 then
    if fx w 24 2 0 then .ok (.exit (fd w 0 2))
    else .error .reserved
  else if m = 46 then .ok (.ldB (fd w 18 7) (fd w 11 7) (fd w 8 3) (fd w 5 3) (fd w 2 3) (fd w 0 2))
  else if m = 47 then .ok (.ldH (fd w 18 7) (fd w 11 7) (fd w 8 3) (fd w 5 3) (fd w 2 3) (fd w 0 2))
  else .error .unassigned

/-- The L majors 0x30 to 0x37 (R30). -/
def rows6 (w : W32) (m : Nat) : Except Reject Instr :=
  if m = 48 then .ok (.ldW (fd w 18 7) (fd w 11 7) (fd w 8 3) (fd w 5 3) (fd w 2 3) (fd w 0 2))
  else if m = 49 then .ok (.ldD (fd w 18 7) (fd w 11 7) (fd w 8 3) (fd w 5 3) (fd w 2 3) (fd w 0 2))
  else if m = 50 then .ok (.ldQ (fd w 18 7) (fd w 11 7) (fd w 8 3) (fd w 5 3) (fd w 2 3) (fd w 0 2))
  else if m = 51 then .ok (.stB (fd w 18 7) (fd w 11 7) (fd w 8 3) (fd w 5 3) (fd w 2 3) (fd w 0 2))
  else if m = 52 then .ok (.stH (fd w 18 7) (fd w 11 7) (fd w 8 3) (fd w 5 3) (fd w 2 3) (fd w 0 2))
  else if m = 53 then .ok (.stW (fd w 18 7) (fd w 11 7) (fd w 8 3) (fd w 5 3) (fd w 2 3) (fd w 0 2))
  else if m = 54 then .ok (.stD (fd w 18 7) (fd w 11 7) (fd w 8 3) (fd w 5 3) (fd w 2 3) (fd w 0 2))
  else if m = 55 then .ok (.stQ (fd w 18 7) (fd w 11 7) (fd w 8 3) (fd w 5 3) (fd w 2 3) (fd w 0 2))
  else .error .unassigned

/-- The L majors 0x38 to 0x3F (R30). -/
def rows7 (w : W32) (m : Nat) : Except Reject Instr :=
  if m = 56 then
    if fx w 4 3 0 then .ok (.ldv (fd w 18 7) (fd w 11 7) (fd w 8 3) (fd w 5 3) (fd w 2 1) (fd w 0 2))
    else if fx w 4 3 1 then .ok (.ldvTag (fd w 18 7) (fd w 11 7) (fd w 8 3) (fd w 5 3) (fd w 2 1) (fd w 0 2))
    else .error .reserved
  else if m = 57 then .ok (.atom (fd w 18 7) (fd w 11 7) (fd w 8 3) (fd w 5 3) (fd w 2 3) (fd w 0 2))
  else if m = 58 then .ok (.red (fd w 18 7) (fd w 11 7) (fd w 8 3) (fd w 5 3) (fd w 2 3) (fd w 0 2))
  else if m = 59 then
    if fx w 10 6 0 && fx w 3 2 0 then .ok (.qopPop (fd w 18 7) (fd w 11 7) (fd w 4 2) (fd w 0 2))
    else if fx w 10 6 0 && fx w 3 2 1 then .ok (.qopPush (fd w 18 7) (fd w 11 7) (fd w 4 2) (fd w 0 2))
    else .error .reserved
  else if m = 60 then
    if fx w 3 3 0 then .ok (.rand (fd w 18 7) (fd w 11 7) (fd w 4 7) (fd w 2 1) (fd w 0 2))
    else .error .reserved
  else if m = 61 then .ok (.tcon (fd w 18 7) (fd w 11 7) (fd w 7 4) (fd w 4 3) (fd w 2 2) (fd w 0 2))
  else .error .unassigned

/-- The U majors 0x00 to 0x07 (R31). -/
def rows8 (w : W32) (m : Nat) : Except Reject Instr :=
  if m = 64 then
    if fx w 6 2 0 then .ok (.sadd (fd w 19 6) (fd w 13 6) (fd w 7 6) (fd w 0 2))
    else .error .reserved
  else if m = 65 then
    if fx w 6 2 0 then .ok (.ssub (fd w 19 6) (fd w 13 6) (fd w 7 6) (fd w 0 2))
    else .error .reserved
  else if m = 66 then
    if fx w 6 4 0 then .ok (.smul (fd w 19 6) (fd w 13 6) (fd w 7 6) (fd w 2 2) (fd w 0 2))
    else .error .reserved
  else if m = 67 then
    if fx w 6 2 0 then .ok (.sand (fd w 19 6) (fd w 13 6) (fd w 7 6) (fd w 0 2))
    else if fx w 6 2 1 then .ok (.sor (fd w 19 6) (fd w 13 6) (fd w 7 6) (fd w 0 2))
    else if fx w 6 2 2 then .ok (.sxor (fd w 19 6) (fd w 13 6) (fd w 7 6) (fd w 0 2))
    else if fx w 6 2 3 then .ok (.sandn (fd w 19 6) (fd w 13 6) (fd w 7 6) (fd w 0 2))
    else .error .reserved
  else if m = 68 then
    if fx w 6 2 0 then .ok (.sshl (fd w 19 6) (fd w 13 6) (fd w 7 6) (fd w 0 2))
    else if fx w 6 2 1 then .ok (.sshr (fd w 19 6) (fd w 13 6) (fd w 7 6) (fd w 0 2))
    else if fx w 6 2 2 then .ok (.ssar (fd w 19 6) (fd w 13 6) (fd w 7 6) (fd w 0 2))
    else .error .reserved
  else if m = 69 then
    if fx w 6 2 0 then .ok (.smin (fd w 19 6) (fd w 13 6) (fd w 7 6) (fd w 0 2))
    else if fx w 6 2 1 then .ok (.smax (fd w 19 6) (fd w 13 6) (fd w 7 6) (fd w 0 2))
    else .error .reserved
  else if m = 70 then
    if fx w 24 24 0 && fx w 6 6 0 then .ok (.scmp (fd w 19 5) (fd w 13 6) (fd w 7 6) (fd w 4 2) (fd w 2 2) (fd w 0 2))
    else .error .reserved
  else if m = 71 then
    if fx w 6 6 0 then .ok (.ssel (fd w 19 6) (fd w 13 6) (fd w 7 6) (fd w 4 2) (fd w 2 2) (fd w 0 2))
    else .error .reserved
  else .error .unassigned

/-- The U majors 0x08 to 0x0F (R31). -/
def rows9 (w : W32) (m : Nat) : Except Reject Instr :=
  if m = 72 then .ok (.saddi (fd w 19 6) (fd w 13 6) (fd w 2 11) (fd w 0 2))
  else if m = 73 then
    if fx w 18 13 0 then .ok (.sli (fd w 19 6) (fd w 2 11) (fd w 0 2))
    else .error .reserved
  else if m = 74 then .ok (.slik (fd w 19 6) (fd w 13 6) (fd w 2 11) (fd w 0 2))
  else if m = 75 then .ok (.sld (fd w 19 6) (fd w 13 6) (fd w 2 11) (fd w 0 2))
  else if m = 76 then .ok (.sst (fd w 19 6) (fd w 13 6) (fd w 2 11) (fd w 0 2))
  else if m = 77 then .ok (.sbr (fd w 21 4) (fd w 2 19) (fd w 0 2))
  else if m = 78 then
    if fx w 18 13 0 then .ok (.sloop (fd w 19 6) (fd w 2 11) (fd w 0 2))
    else .error .reserved
  else if m = 79 then
    if fx w 24 19 0 && fx w 12 2 0 then .ok (.sjmp (fd w 13 6) (fd w 0 2))
    else .error .reserved
  else .error .unassigned

/-- The U majors 0x10 to 0x17 (R31). -/
def rows10 (w : W32) (m : Nat) : Except Reject Instr :=
  if m = 80 then
    if fx w 19 2 0 then .ok (.clause (fd w 20 5) (fd w 0 2))
    else .error .reserved
  else if m = 81 then .ok (.clend (fd w 18 7) (fd w 14 4) (fd w 10 4) (fd w 6 4) (fd w 2 4) (fd w 0 2))
  else if m = 82 then
    if fx w 18 12 0 then .ok (.mfsrUniform (fd w 19 6) (fd w 2 10) (fd w 0 2))
    else if fx w 18 14 0 && fx w 12 12 1 then .ok (.mfsrLane (fd w 19 6) (fd w 13 1) (fd w 2 10) (fd w 0 2))
    else .error .reserved
  else if m = 83 then
    if fx w 18 12 0 then .ok (.mtsrUniform (fd w 19 6) (fd w 2 10) (fd w 0 2))
    else if fx w 18 14 0 && fx w 12 12 1 then .ok (.mtsrLane (fd w 19 6) (fd w 13 1) (fd w 2 10) (fd w 0 2))
    else .error .reserved
  else if m = 84 then
    if fx w 6 4 0 then .ok (.wload (fd w 19 6) (fd w 13 6) (fd w 7 6) (fd w 3 1) (fd w 2 1) (fd w 0 2))
    else .error .reserved
  else if m = 85 then
    if fx w 24 2 0 then .ok (.wswap (fd w 0 2))
    else .error .reserved
  else if m = 86 then
    if fx w 6 2 0 then .ok (.mma (fd w 19 6) (fd w 13 6) (fd w 7 6) (fd w 0 2))
    else .error .reserved
  else if m = 87 then
    if fx w 6 2 0 then .ok (.mmac (fd w 19 6) (fd w 13 6) (fd w 7 6) (fd w 0 2))
    else .error .reserved
  else .error .unassigned

/-- The U majors 0x18 to 0x1F (R31). -/
def rows11 (w : W32) (m : Nat) : Except Reject Instr :=
  if m = 88 then
    if fx w 12 2 0 then .ok (.accAlloc (fd w 19 6) (fd w 13 6) (fd w 0 2))
    else .error .reserved
  else if m = 89 then
    if fx w 12 2 0 then .ok (.accFree (fd w 19 6) (fd w 13 6) (fd w 0 2))
    else .error .reserved
  else if m = 90 then
    if fx w 6 3 0 then .ok (.accRd (fd w 19 6) (fd w 13 6) (fd w 7 6) (fd w 2 1) (fd w 0 2))
    else .error .reserved
  else if m = 91 then
    if fx w 6 2 0 then .ok (.accAnc (fd w 19 6) (fd w 13 6) (fd w 7 6) (fd w 0 2))
    else .error .reserved
  else if m = 92 then
    if fx w 12 3 0 then .ok (.accFlg (fd w 19 6) (fd w 13 6) (fd w 2 1) (fd w 0 2))
    else .error .reserved
  else if m = 93 then
    if fx w 24 22 0 && fx w 12 2 0 then .ok (.tshape (fd w 19 3) (fd w 13 6) (fd w 0 2))
    else .error .reserved
  else if m = 94 then
    if fx w 24 22 0 && fx w 6 2 0 then .ok (.tld (fd w 19 3) (fd w 13 6) (fd w 7 6) (fd w 0 2))
    else .error .reserved
  else if m = 95 then
    if fx w 24 22 0 && fx w 6 2 0 then .ok (.tst (fd w 19 3) (fd w 13 6) (fd w 7 6) (fd w 0 2))
    else .error .reserved
  else .error .unassigned

/-- The U majors 0x20 to 0x27 (R31). -/
def rows12 (w : W32) (m : Nat) : Except Reject Instr :=
  if m = 96 then
    if fx w 24 24 0 && fx w 18 13 0 && fx w 6 5 0 then .ok (.barInit (fd w 19 5) (fd w 7 6) (fd w 2 3) (fd w 0 2))
    else .error .reserved
  else if m = 97 then
    if fx w 24 24 0 && fx w 18 5 0 then .ok (.barArr (fd w 19 5) (fd w 2 3) (fd w 0 2))
    else .error .reserved
  else if m = 98 then
    if fx w 24 24 0 && fx w 18 5 0 then .ok (.barWait (fd w 19 5) (fd w 2 3) (fd w 0 2))
    else .error .reserved
  else if m = 99 then
    if fx w 24 24 0 && fx w 18 5 0 then .ok (.barAw (fd w 19 5) (fd w 2 3) (fd w 0 2))
    else .error .reserved
  else if m = 100 then
    if fx w 24 24 0 && fx w 18 15 0 && fx w 6 5 0 then .ok (.barTry (fd w 19 5) (fd w 13 2) (fd w 7 6) (fd w 2 3) (fd w 0 2))
    else .error .reserved
  else if m = 101 then
    if fx w 24 7 0 then .ok (.fence (fd w 4 3) (fd w 2 2) (fd w 0 2))
    else .error .reserved
  else if m = 102 then
    if fx w 24 2 0 then .ok (.ifence (fd w 0 2))
    else .error .reserved
  else if m = 103 then
    if fx w 24 19 0 && fx w 6 2 0 then .ok (.icinv (fd w 13 6) (fd w 7 6) (fd w 0 2))
    else .error .reserved
  else .error .unassigned

/-- The U majors 0x28 to 0x2F (R31). -/
def rows13 (w : W32) (m : Nat) : Except Reject Instr :=
  if m = 104 then
    if fx w 24 19 0 && fx w 6 4 0 then .ok (.copy (fd w 13 6) (fd w 7 6) (fd w 3 1) (fd w 2 1) (fd w 0 2))
    else .error .reserved
  else if m = 105 then
    if fx w 24 19 0 && fx w 6 3 0 then .ok (.copyt (fd w 13 6) (fd w 7 6) (fd w 2 1) (fd w 0 2))
    else .error .reserved
  else if m = 106 then
    if fx w 12 2 0 then .ok (.taskSub (fd w 19 6) (fd w 13 6) (fd w 0 2))
    else .error .reserved
  else if m = 107 then
    if fx w 24 19 0 && fx w 6 2 0 then .ok (.taskSigAdd (fd w 13 6) (fd w 7 6) (fd w 0 2))
    else if fx w 24 19 0 && fx w 6 2 1 then .ok (.taskSigSet (fd w 13 6) (fd w 7 6) (fd w 0 2))
    else if fx w 12 2 2 then .ok (.taskSigRd (fd w 19 6) (fd w 13 6) (fd w 0 2))
    else .error .reserved
  else if m = 108 then
    if fx w 24 19 0 && fx w 12 2 0 then .ok (.taskWait (fd w 13 6) (fd w 0 2))
    else if fx w 24 19 0 && fx w 12 2 1 then .ok (.taskWaitTake (fd w 13 6) (fd w 0 2))
    else .error .reserved
  else if m = 109 then
    if fx w 24 21 0 && fx w 12 2 0 then .ok (.taskTry (fd w 19 2) (fd w 13 6) (fd w 0 2))
    else if fx w 24 21 0 && fx w 12 2 1 then .ok (.taskTryTake (fd w 19 2) (fd w 13 6) (fd w 0 2))
    else .error .reserved
  else if m = 110 then
    if fx w 6 2 0 then .ok (.launch (fd w 19 6) (fd w 13 6) (fd w 7 6) (fd w 0 2))
    else .error .reserved
  else if m = 111 then
    if fx w 24 21 0 && fx w 6 2 0 then .ok (.replay (fd w 19 2) (fd w 13 6) (fd w 7 6) (fd w 0 2))
    else .error .reserved
  else .error .unassigned

/-- The U majors 0x30 to 0x37 (R31). -/
def rows14 (w : W32) (m : Nat) : Except Reject Instr :=
  if m = 112 then
    if fx w 24 19 0 && fx w 12 2 0 then .ok (.stepEnter (fd w 13 6) (fd w 0 2))
    else .error .reserved
  else if m = 113 then
    if fx w 24 19 0 && fx w 12 2 0 then .ok (.stepPub (fd w 13 6) (fd w 0 2))
    else .error .reserved
  else if m = 114 then
    if fx w 24 19 0 && fx w 12 2 0 then .ok (.verOpen (fd w 13 6) (fd w 0 2))
    else .error .reserved
  else if m = 115 then
    if fx w 12 2 0 then .ok (.ckptFreeze (fd w 19 6) (fd w 13 6) (fd w 0 2))
    else if fx w 12 2 1 then .ok (.ckptStat (fd w 19 6) (fd w 13 6) (fd w 0 2))
    else .error .reserved
  else if m = 116 then
    if fx w 12 2 0 then .ok (.collOpen (fd w 19 6) (fd w 13 6) (fd w 0 2))
    else .error .reserved
  else if m = 117 then
    if fx w 24 19 0 && fx w 6 2 0 then .ok (.collPut (fd w 13 6) (fd w 7 6) (fd w 0 2))
    else .error .reserved
  else if m = 118 then
    if fx w 12 2 0 then .ok (.collWait (fd w 19 6) (fd w 13 6) (fd w 0 2))
    else .error .reserved
  else if m = 119 then
    if fx w 12 2 0 then .ok (.collStat (fd w 19 6) (fd w 13 6) (fd w 0 2))
    else .error .reserved
  else .error .unassigned

/-- The U majors 0x38 to 0x3F (R31). -/
def rows15 (w : W32) (m : Nat) : Except Reject Instr :=
  if m = 120 then
    if fx w 12 7 0 then .ok (.tideRd (fd w 19 6) (fd w 13 6) (fd w 2 5) (fd w 0 2))
    else .error .reserved
  else if m = 121 then
    if fx w 24 19 0 && fx w 6 2 0 then .ok (.gauge (fd w 13 6) (fd w 7 6) (fd w 0 2))
    else .error .reserved
  else if m = 122 then
    if fx w 24 21 0 && fx w 6 2 0 then .ok (.patLd (fd w 19 2) (fd w 13 6) (fd w 7 6) (fd w 0 2))
    else .error .reserved
  else if m = 123 then
    if fx w 18 2 0 then .ok (.patNext (fd w 19 6) (fd w 0 2))
    else .error .reserved
  else if m = 124 then
    if fx w 24 19 0 && fx w 12 2 0 then .ok (.patDone (fd w 13 6) (fd w 0 2))
    else .error .reserved
  else if m = 125 then
    if fx w 12 2 0 then .ok (.stashPut (fd w 19 6) (fd w 13 6) (fd w 0 2))
    else if fx w 12 2 1 then .ok (.stashGet (fd w 19 6) (fd w 13 6) (fd w 0 2))
    else if fx w 24 19 0 && fx w 12 2 2 then .ok (.stashFree (fd w 13 6) (fd w 0 2))
    else .error .reserved
  else if m = 126 then
    if fx w 12 2 0 then .ok (.trap (fd w 19 6) (fd w 13 6) (fd w 0 2))
    else if fx w 24 2 1 then .ok (.eret (fd w 0 2))
    else if fx w 12 2 2 then .ok (.brk (fd w 19 6) (fd w 13 6) (fd w 0 2))
    else if fx w 24 2 3 then .ok (.halt (fd w 0 2))
    else .error .reserved
  else if m = 127 then
    if fx w 6 2 0 then .ok (.map (fd w 19 6) (fd w 13 6) (fd w 7 6) (fd w 0 2))
    else if fx w 24 19 0 && fx w 6 2 1 then .ok (.unmap (fd w 13 6) (fd w 7 6) (fd w 0 2))
    else if fx w 24 19 0 && fx w 6 2 2 then .ok (.tlbinv (fd w 13 6) (fd w 7 6) (fd w 0 2))
    else if fx w 18 15 0 && fx w 12 2 3 then .ok (.fqPop (fd w 19 6) (fd w 13 2) (fd w 0 2))
    else if fx w 24 19 0 && fx w 6 2 4 then .ok (.resume (fd w 13 6) (fd w 7 6) (fd w 0 2))
    else if fx w 24 19 0 && fx w 6 2 5 then .ok (.ctxSave (fd w 13 6) (fd w 7 6) (fd w 0 2))
    else if fx w 24 19 0 && fx w 6 2 6 then .ok (.ctxRest (fd w 13 6) (fd w 7 6) (fd w 0 2))
    else .error .reserved
  else .error .unassigned

/-- The row that the set bit, the major and the selectors pick, with its fields; m is bits [31:25]. -/
def decodeMajor (w : W32) (m : Nat) : Except Reject Instr :=
  if m < 64 then
    if m < 32 then
      if m < 16 then if m < 8 then rows0 w m else rows1 w m
      else if m < 24 then rows2 w m else rows3 w m
    else if m < 48 then if m < 40 then rows4 w m else rows5 w m
    else if m < 56 then rows6 w m else rows7 w m
  else
    if m < 96 then
      if m < 80 then if m < 72 then rows8 w m else rows9 w m
      else if m < 88 then rows10 w m else rows11 w m
    else if m < 112 then if m < 104 then rows12 w m else rows13 w m
    else if m < 120 then rows14 w m else rows15 w m

/-- The instruction of the opcode maps that a word selects. -/
def decodeRow (w : W32) : Except Reject Instr := decodeMajor w (w.toNat / 2 ^ 25)

/-- The instruction of a word, or the reason there is none. -/
def decode (w : W32) : Except Reject Instr :=
  if w == 0 || w == 0xFFFFFFFF then .error .illegal
  else match decodeRow w with
    | .ok i => if wellFormed i then .ok i else .error .reserved
    | .error r => .error r

/-- Four bytes as a word, the byte at the lowest address first (R7). -/
def wordOfBytes (b0 b1 b2 b3 : W8) : W32 :=
  BitVec.ofNat 32 (b0.toNat + 2 ^ 8 * b1.toNat + 2 ^ 16 * b2.toNat + 2 ^ 24 * b3.toNat)

/-- The bytes of a word in memory (R7). -/
def bytesOfWord (w : W32) : List W8 :=
  [BitVec.ofNat 8 w.toNat, BitVec.ofNat 8 (w.toNat / 2 ^ 8), BitVec.ofNat 8 (w.toNat / 2 ^ 16),
    BitVec.ofNat 8 (w.toNat / 2 ^ 24)]

/-- Decoding from bytes: the instruction and the bytes after it. -/
def decodeBytes : List W8 → Except Reject (Instr × List W8)
  | b0 :: b1 :: b2 :: b3 :: rest =>
    match decode (wordOfBytes b0 b1 b2 b3) with
    | .ok i => .ok (i, rest)
    | .error r => .error r
  | _ => .error .truncated

/-- A word from its fixed bits and its fields, each a value and its lowest bit. -/
def pack (base : Nat) (fields : List (Nat × Nat)) : W32 :=
  BitVec.ofNat 32 (fields.foldr (fun f n => f.1 * 2 ^ f.2 + n) base)

/-- The word of an instruction; a machine event has none. -/
def encode (i : Instr) : Option W32 :=
  match i with
  | .add d a b m st => some (pack 0x00000000 [(d.toNat, 18), (a.toNat, 11), (b.toNat, 4), (m.toNat, 2), (st.toNat, 0)])
  | .sub d a b m st => some (pack 0x02000000 [(d.toNat, 18), (a.toNat, 11), (b.toNat, 4), (m.toNat, 2), (st.toNat, 0)])
  | .mul d a b m st => some (pack 0x04000000 [(d.toNat, 18), (a.toNat, 11), (b.toNat, 4), (m.toNat, 2), (st.toNat, 0)])
  | .mad d a b m st => some (pack 0x06000000 [(d.toNat, 18), (a.toNat, 11), (b.toNat, 4), (m.toNat, 2), (st.toNat, 0)])
  | .and d a b st => some (pack 0x08000000 [(d.toNat, 18), (a.toNat, 11), (b.toNat, 4), (st.toNat, 0)])
  | .or d a b st => some (pack 0x08000004 [(d.toNat, 18), (a.toNat, 11), (b.toNat, 4), (st.toNat, 0)])
  | .xor d a b st => some (pack 0x08000008 [(d.toNat, 18), (a.toNat, 11), (b.toNat, 4), (st.toNat, 0)])
  | .andn d a b st => some (pack 0x0800000C [(d.toNat, 18), (a.toNat, 11), (b.toNat, 4), (st.toNat, 0)])
  | .shl d a b st => some (pack 0x0A000000 [(d.toNat, 18), (a.toNat, 11), (b.toNat, 4), (st.toNat, 0)])
  | .shr d a b st => some (pack 0x0A000004 [(d.toNat, 18), (a.toNat, 11), (b.toNat, 4), (st.toNat, 0)])
  | .sar d a b st => some (pack 0x0A000008 [(d.toNat, 18), (a.toNat, 11), (b.toNat, 4), (st.toNat, 0)])
  | .rot d a b st => some (pack 0x0A00000C [(d.toNat, 18), (a.toNat, 11), (b.toNat, 4), (st.toNat, 0)])
  | .min d a b st => some (pack 0x0C000000 [(d.toNat, 18), (a.toNat, 11), (b.toNat, 4), (st.toNat, 0)])
  | .max d a b st => some (pack 0x0C000004 [(d.toNat, 18), (a.toNat, 11), (b.toNat, 4), (st.toNat, 0)])
  | .cmp d a b t st => some (pack 0x0E000000 [(d.toNat, 18), (a.toNat, 11), (b.toNat, 4), (t.toNat, 2), (st.toNat, 0)])
  | .sel d a b n st => some (pack 0x10000000 [(d.toNat, 18), (a.toNat, 11), (b.toNat, 4), (n.toNat, 2), (st.toNat, 0)])
  | .popc d a st => some (pack 0x12000000 [(d.toNat, 18), (a.toNat, 11), (st.toNat, 0)])
  | .clz d a st => some (pack 0x12000004 [(d.toNat, 18), (a.toNat, 11), (st.toNat, 0)])
  | .brev d a st => some (pack 0x12000008 [(d.toNat, 18), (a.toNat, 11), (st.toNat, 0)])
  | .bfe d a b st => some (pack 0x1200000C [(d.toNat, 18), (a.toNat, 11), (b.toNat, 4), (st.toNat, 0)])
  | .mov d a st => some (pack 0x14000000 [(d.toNat, 18), (a.toNat, 11), (st.toNat, 0)])
  | .movc d st => some (pack 0x14000004 [(d.toNat, 18), (st.toNat, 0)])
  | .addi d a i st => some (pack 0x16000000 [(d.toNat, 18), (a.toNat, 11), (i.toNat, 2), (st.toNat, 0)])
  | .andi d a i st => some (pack 0x18000000 [(d.toNat, 18), (a.toNat, 11), (i.toNat, 2), (st.toNat, 0)])
  | .shli d a k st => some (pack 0x1A000000 [(d.toNat, 18), (a.toNat, 11), (k.toNat, 2), (st.toNat, 0)])
  | .shri d a k st => some (pack 0x1A000200 [(d.toNat, 18), (a.toNat, 11), (k.toNat, 2), (st.toNat, 0)])
  | .sari d a k st => some (pack 0x1A000400 [(d.toNat, 18), (a.toNat, 11), (k.toNat, 2), (st.toNat, 0)])
  | .li d i st => some (pack 0x1C000000 [(d.toNat, 18), (i.toNat, 2), (st.toNat, 0)])
  | .lih d i st => some (pack 0x1E000000 [(d.toNat, 18), (i.toNat, 2), (st.toNat, 0)])
  | .fadd d a b t st => some (pack 0x20000000 [(d.toNat, 18), (a.toNat, 11), (b.toNat, 4), (t.toNat, 2), (st.toNat, 0)])
  | .fsub d a b t st => some (pack 0x22000000 [(d.toNat, 18), (a.toNat, 11), (b.toNat, 4), (t.toNat, 2), (st.toNat, 0)])
  | .fmul d a b t st => some (pack 0x24000000 [(d.toNat, 18), (a.toNat, 11), (b.toNat, 4), (t.toNat, 2), (st.toNat, 0)])
  | .ffma d a b t st => some (pack 0x26000000 [(d.toNat, 18), (a.toNat, 11), (b.toNat, 4), (t.toNat, 2), (st.toNat, 0)])
  | .fmin d a b t st => some (pack 0x28000000 [(d.toNat, 18), (a.toNat, 11), (b.toNat, 4), (t.toNat, 2), (st.toNat, 0)])
  | .fmax d a b t st => some (pack 0x2A000000 [(d.toNat, 18), (a.toNat, 11), (b.toNat, 4), (t.toNat, 2), (st.toNat, 0)])
  | .fcmp d a b t st => some (pack 0x2C000000 [(d.toNat, 18), (a.toNat, 11), (b.toNat, 4), (t.toNat, 2), (st.toNat, 0)])
  | .fsgn d a b m st => some (pack 0x2E000000 [(d.toNat, 18), (a.toNat, 11), (b.toNat, 4), (m.toNat, 2), (st.toNat, 0)])
  | .cvtF d a c h t st => some (pack 0x30000000 [(d.toNat, 18), (a.toNat, 11), (c.toNat, 4), (h.toNat, 3), (t.toNat, 2), (st.toNat, 0)])
  | .cvtFi d a c h st => some (pack 0x32000000 [(d.toNat, 18), (a.toNat, 11), (c.toNat, 4), (h.toNat, 3), (st.toNat, 0)])
  | .cvtIf d a c h st => some (pack 0x34000000 [(d.toNat, 18), (a.toNat, 11), (c.toNat, 4), (h.toNat, 3), (st.toNat, 0)])
  | .fclass d a t st => some (pack 0x36000000 [(d.toNat, 18), (a.toNat, 11), (t.toNat, 2), (st.toNat, 0)])
  | .rcp d a t st => some (pack 0x38000000 [(d.toNat, 18), (a.toNat, 11), (t.toNat, 4), (st.toNat, 0)])
  | .rsqrt d a t st => some (pack 0x38000004 [(d.toNat, 18), (a.toNat, 11), (t.toNat, 4), (st.toNat, 0)])
  | .sqrt d a t st => some (pack 0x38000008 [(d.toNat, 18), (a.toNat, 11), (t.toNat, 4), (st.toNat, 0)])
  | .exp2 d a t st => some (pack 0x3A000000 [(d.toNat, 18), (a.toNat, 11), (t.toNat, 4), (st.toNat, 0)])
  | .log2 d a t st => some (pack 0x3A000004 [(d.toNat, 18), (a.toNat, 11), (t.toNat, 4), (st.toNat, 0)])
  | .sin d a st => some (pack 0x3C000000 [(d.toNat, 18), (a.toNat, 11), (st.toNat, 0)])
  | .cos d a st => some (pack 0x3C000004 [(d.toNat, 18), (a.toNat, 11), (st.toNat, 0)])
  | .tanh d a st => some (pack 0x3E000000 [(d.toNat, 18), (a.toNat, 11), (st.toNat, 0)])
  | .lgst d a st => some (pack 0x3E000004 [(d.toNat, 18), (a.toNat, 11), (st.toNat, 0)])
  | .shfl d a b m st => some (pack 0x40000000 [(d.toNat, 18), (a.toNat, 11), (b.toNat, 4), (m.toNat, 2), (st.toNat, 0)])
  | .voteAny d c st => some (pack 0x42000000 [(d.toNat, 18), (c.toNat, 4), (st.toNat, 0)])
  | .voteAll d c st => some (pack 0x42000004 [(d.toNat, 18), (c.toNat, 4), (st.toNat, 0)])
  | .voteBallot d c st => some (pack 0x42000008 [(d.toNat, 18), (c.toNat, 4), (st.toNat, 0)])
  | .scan d a m st => some (pack 0x44000000 [(d.toNat, 18), (a.toNat, 11), (m.toNat, 2), (st.toNat, 0)])
  | .matchLanes d a m st => some (pack 0x46000000 [(d.toNat, 18), (a.toNat, 11), (m.toNat, 2), (st.toNat, 0)])
  | .elect d st => some (pack 0x48000000 [(d.toNat, 18), (st.toNat, 0)])
  | .reds d a m st => some (pack 0x4A000000 [(d.toNat, 18), (a.toNat, 11), (m.toNat, 2), (st.toNat, 0)])
  | .redsAf d a b m st => some (pack 0x4C000000 [(d.toNat, 18), (a.toNat, 11), (b.toNat, 4), (m.toNat, 2), (st.toNat, 0)])
  | .redsInt d a o t st => some (pack 0x4E000000 [(d.toNat, 18), (a.toNat, 11), (o.toNat, 4), (t.toNat, 2), (st.toNat, 0)])
  | .bra c o st => some (pack 0x50000000 [(c.toNat, 22), (o.toNat, 2), (st.toNat, 0)])
  | .brx a st => some (pack 0x52000000 [(a.toNat, 11), (st.toNat, 0)])
  | .lpad k st => some (pack 0x54000000 [(k.toNat, 2), (st.toNat, 0)])
  | .call o st => some (pack 0x56000000 [(o.toNat, 2), (st.toNat, 0)])
  | .ret st => some (pack 0x56400000 [(st.toNat, 0)])
  | .reconv k st => some (pack 0x58000000 [(k.toNat, 2), (st.toNat, 0)])
  | .exit st => some (pack 0x5A000000 [(st.toNat, 0)])
  | .ldB d a b c o st => some (pack 0x5C000000 [(d.toNat, 18), (a.toNat, 11), (b.toNat, 8), (c.toNat, 5), (o.toNat, 2), (st.toNat, 0)])
  | .ldH d a b c o st => some (pack 0x5E000000 [(d.toNat, 18), (a.toNat, 11), (b.toNat, 8), (c.toNat, 5), (o.toNat, 2), (st.toNat, 0)])
  | .ldW d a b c o st => some (pack 0x60000000 [(d.toNat, 18), (a.toNat, 11), (b.toNat, 8), (c.toNat, 5), (o.toNat, 2), (st.toNat, 0)])
  | .ldD d a b c o st => some (pack 0x62000000 [(d.toNat, 18), (a.toNat, 11), (b.toNat, 8), (c.toNat, 5), (o.toNat, 2), (st.toNat, 0)])
  | .ldQ d a b c o st => some (pack 0x64000000 [(d.toNat, 18), (a.toNat, 11), (b.toNat, 8), (c.toNat, 5), (o.toNat, 2), (st.toNat, 0)])
  | .stB d a b c o st => some (pack 0x66000000 [(d.toNat, 18), (a.toNat, 11), (b.toNat, 8), (c.toNat, 5), (o.toNat, 2), (st.toNat, 0)])
  | .stH d a b c o st => some (pack 0x68000000 [(d.toNat, 18), (a.toNat, 11), (b.toNat, 8), (c.toNat, 5), (o.toNat, 2), (st.toNat, 0)])
  | .stW d a b c o st => some (pack 0x6A000000 [(d.toNat, 18), (a.toNat, 11), (b.toNat, 8), (c.toNat, 5), (o.toNat, 2), (st.toNat, 0)])
  | .stD d a b c o st => some (pack 0x6C000000 [(d.toNat, 18), (a.toNat, 11), (b.toNat, 8), (c.toNat, 5), (o.toNat, 2), (st.toNat, 0)])
  | .stQ d a b c o st => some (pack 0x6E000000 [(d.toNat, 18), (a.toNat, 11), (b.toNat, 8), (c.toNat, 5), (o.toNat, 2), (st.toNat, 0)])
  | .ldv d a b c o st => some (pack 0x70000000 [(d.toNat, 18), (a.toNat, 11), (b.toNat, 8), (c.toNat, 5), (o.toNat, 2), (st.toNat, 0)])
  | .ldvTag d a b c o st => some (pack 0x70000008 [(d.toNat, 18), (a.toNat, 11), (b.toNat, 8), (c.toNat, 5), (o.toNat, 2), (st.toNat, 0)])
  | .atom d a b c o st => some (pack 0x72000000 [(d.toNat, 18), (a.toNat, 11), (b.toNat, 8), (c.toNat, 5), (o.toNat, 2), (st.toNat, 0)])
  | .red d a b c o st => some (pack 0x74000000 [(d.toNat, 18), (a.toNat, 11), (b.toNat, 8), (c.toNat, 5), (o.toNat, 2), (st.toNat, 0)])
  | .qopPop d a n st => some (pack 0x76000000 [(d.toNat, 18), (a.toNat, 11), (n.toNat, 4), (st.toNat, 0)])
  | .qopPush d a n st => some (pack 0x76000004 [(d.toNat, 18), (a.toNat, 11), (n.toNat, 4), (st.toNat, 0)])
  | .rand d a b i st => some (pack 0x78000000 [(d.toNat, 18), (a.toNat, 11), (b.toNat, 4), (i.toNat, 2), (st.toNat, 0)])
  | .tcon d a u t m st => some (pack 0x7A000000 [(d.toNat, 18), (a.toNat, 11), (u.toNat, 7), (t.toNat, 4), (m.toNat, 2), (st.toNat, 0)])
  | .sadd d a b st => some (pack 0x80000000 [(d.toNat, 19), (a.toNat, 13), (b.toNat, 7), (st.toNat, 0)])
  | .ssub d a b st => some (pack 0x82000000 [(d.toNat, 19), (a.toNat, 13), (b.toNat, 7), (st.toNat, 0)])
  | .smul d a b m st => some (pack 0x84000000 [(d.toNat, 19), (a.toNat, 13), (b.toNat, 7), (m.toNat, 2), (st.toNat, 0)])
  | .sand d a b st => some (pack 0x86000000 [(d.toNat, 19), (a.toNat, 13), (b.toNat, 7), (st.toNat, 0)])
  | .sor d a b st => some (pack 0x86000004 [(d.toNat, 19), (a.toNat, 13), (b.toNat, 7), (st.toNat, 0)])
  | .sxor d a b st => some (pack 0x86000008 [(d.toNat, 19), (a.toNat, 13), (b.toNat, 7), (st.toNat, 0)])
  | .sandn d a b st => some (pack 0x8600000C [(d.toNat, 19), (a.toNat, 13), (b.toNat, 7), (st.toNat, 0)])
  | .sshl d a b st => some (pack 0x88000000 [(d.toNat, 19), (a.toNat, 13), (b.toNat, 7), (st.toNat, 0)])
  | .sshr d a b st => some (pack 0x88000004 [(d.toNat, 19), (a.toNat, 13), (b.toNat, 7), (st.toNat, 0)])
  | .ssar d a b st => some (pack 0x88000008 [(d.toNat, 19), (a.toNat, 13), (b.toNat, 7), (st.toNat, 0)])
  | .smin d a b st => some (pack 0x8A000000 [(d.toNat, 19), (a.toNat, 13), (b.toNat, 7), (st.toNat, 0)])
  | .smax d a b st => some (pack 0x8A000004 [(d.toNat, 19), (a.toNat, 13), (b.toNat, 7), (st.toNat, 0)])
  | .scmp c a b t m st => some (pack 0x8C000000 [(c.toNat, 19), (a.toNat, 13), (b.toNat, 7), (t.toNat, 4), (m.toNat, 2), (st.toNat, 0)])
  | .ssel d a b t n st => some (pack 0x8E000000 [(d.toNat, 19), (a.toNat, 13), (b.toNat, 7), (t.toNat, 4), (n.toNat, 2), (st.toNat, 0)])
  | .saddi d a i st => some (pack 0x90000000 [(d.toNat, 19), (a.toNat, 13), (i.toNat, 2), (st.toNat, 0)])
  | .sli d i st => some (pack 0x92000000 [(d.toNat, 19), (i.toNat, 2), (st.toNat, 0)])
  | .slik d k i st => some (pack 0x94000000 [(d.toNat, 19), (k.toNat, 13), (i.toNat, 2), (st.toNat, 0)])
  | .sld d a i st => some (pack 0x96000000 [(d.toNat, 19), (a.toNat, 13), (i.toNat, 2), (st.toNat, 0)])
  | .sst d a i st => some (pack 0x98000000 [(d.toNat, 19), (a.toNat, 13), (i.toNat, 2), (st.toNat, 0)])
  | .sbr c o st => some (pack 0x9A000000 [(c.toNat, 21), (o.toNat, 2), (st.toNat, 0)])
  | .sloop d i st => some (pack 0x9C000000 [(d.toNat, 19), (i.toNat, 2), (st.toNat, 0)])
  | .sjmp a st => some (pack 0x9E000000 [(a.toNat, 13), (st.toNat, 0)])
  | .clause n st => some (pack 0xA0000000 [(n.toNat, 20), (st.toNat, 0)])
  | .clend b w x y z st => some (pack 0xA2000000 [(b.toNat, 18), (w.toNat, 14), (x.toNat, 10), (y.toNat, 6), (z.toNat, 2), (st.toNat, 0)])
  | .mfsrUniform d r st => some (pack 0xA4000000 [(d.toNat, 19), (r.toNat, 2), (st.toNat, 0)])
  | .mfsrLane d h r st => some (pack 0xA4001000 [(d.toNat, 19), (h.toNat, 13), (r.toNat, 2), (st.toNat, 0)])
  | .mtsrUniform d r st => some (pack 0xA6000000 [(d.toNat, 19), (r.toNat, 2), (st.toNat, 0)])
  | .mtsrLane d h r st => some (pack 0xA6001000 [(d.toNat, 19), (h.toNat, 13), (r.toNat, 2), (st.toNat, 0)])
  | .wload d a b c w st => some (pack 0xA8000000 [(d.toNat, 19), (a.toNat, 13), (b.toNat, 7), (c.toNat, 3), (w.toNat, 2), (st.toNat, 0)])
  | .wswap st => some (pack 0xAA000000 [(st.toNat, 0)])
  | .mma h a b st => some (pack 0xAC000000 [(h.toNat, 19), (a.toNat, 13), (b.toNat, 7), (st.toNat, 0)])
  | .mmac h g b st => some (pack 0xAE000000 [(h.toNat, 19), (g.toNat, 13), (b.toNat, 7), (st.toNat, 0)])
  | .accAlloc h n st => some (pack 0xB0000000 [(h.toNat, 19), (n.toNat, 13), (st.toNat, 0)])
  | .accFree h n st => some (pack 0xB2000000 [(h.toNat, 19), (n.toNat, 13), (st.toNat, 0)])
  | .accRd h a b z st => some (pack 0xB4000000 [(h.toNat, 19), (a.toNat, 13), (b.toNat, 7), (z.toNat, 2), (st.toNat, 0)])
  | .accAnc h n b st => some (pack 0xB6000000 [(h.toNat, 19), (n.toNat, 13), (b.toNat, 7), (st.toNat, 0)])
  | .accFlg d h c st => some (pack 0xB8000000 [(d.toNat, 19), (h.toNat, 13), (c.toNat, 2), (st.toNat, 0)])
  | .tshape k a st => some (pack 0xBA000000 [(k.toNat, 19), (a.toNat, 13), (st.toNat, 0)])
  | .tld k a b st => some (pack 0xBC000000 [(k.toNat, 19), (a.toNat, 13), (b.toNat, 7), (st.toNat, 0)])
  | .tst k a b st => some (pack 0xBE000000 [(k.toNat, 19), (a.toNat, 13), (b.toNat, 7), (st.toNat, 0)])
  | .barInit k b p st => some (pack 0xC0000000 [(k.toNat, 19), (b.toNat, 7), (p.toNat, 2), (st.toNat, 0)])
  | .barArr k p st => some (pack 0xC2000000 [(k.toNat, 19), (p.toNat, 2), (st.toNat, 0)])
  | .barWait k p st => some (pack 0xC4000000 [(k.toNat, 19), (p.toNat, 2), (st.toNat, 0)])
  | .barAw k p st => some (pack 0xC6000000 [(k.toNat, 19), (p.toNat, 2), (st.toNat, 0)])
  | .barTry k n b p st => some (pack 0xC8000000 [(k.toNat, 19), (n.toNat, 13), (b.toNat, 7), (p.toNat, 2), (st.toNat, 0)])
  | .fence p o st => some (pack 0xCA000000 [(p.toNat, 4), (o.toNat, 2), (st.toNat, 0)])
  | .ifence st => some (pack 0xCC000000 [(st.toNat, 0)])
  | .icinv a b st => some (pack 0xCE000000 [(a.toNat, 13), (b.toNat, 7), (st.toNat, 0)])
  | .copy a b x y st => some (pack 0xD0000000 [(a.toNat, 13), (b.toNat, 7), (x.toNat, 3), (y.toNat, 2), (st.toNat, 0)])
  | .copyt a b t st => some (pack 0xD2000000 [(a.toNat, 13), (b.toNat, 7), (t.toNat, 2), (st.toNat, 0)])
  | .taskSub d a st => some (pack 0xD4000000 [(d.toNat, 19), (a.toNat, 13), (st.toNat, 0)])
  | .taskSigAdd a b st => some (pack 0xD6000000 [(a.toNat, 13), (b.toNat, 7), (st.toNat, 0)])
  | .taskSigSet a b st => some (pack 0xD6000004 [(a.toNat, 13), (b.toNat, 7), (st.toNat, 0)])
  | .taskSigRd d a st => some (pack 0xD6000008 [(d.toNat, 19), (a.toNat, 13), (st.toNat, 0)])
  | .taskWait a st => some (pack 0xD8000000 [(a.toNat, 13), (st.toNat, 0)])
  | .taskWaitTake a st => some (pack 0xD8000004 [(a.toNat, 13), (st.toNat, 0)])
  | .taskTry n a st => some (pack 0xDA000000 [(n.toNat, 19), (a.toNat, 13), (st.toNat, 0)])
  | .taskTryTake n a st => some (pack 0xDA000004 [(n.toNat, 19), (a.toNat, 13), (st.toNat, 0)])
  | .launch d a b st => some (pack 0xDC000000 [(d.toNat, 19), (a.toNat, 13), (b.toNat, 7), (st.toNat, 0)])
  | .replay n a b st => some (pack 0xDE000000 [(n.toNat, 19), (a.toNat, 13), (b.toNat, 7), (st.toNat, 0)])
  | .stepEnter a st => some (pack 0xE0000000 [(a.toNat, 13), (st.toNat, 0)])
  | .stepPub a st => some (pack 0xE2000000 [(a.toNat, 13), (st.toNat, 0)])
  | .verOpen a st => some (pack 0xE4000000 [(a.toNat, 13), (st.toNat, 0)])
  | .ckptFreeze d a st => some (pack 0xE6000000 [(d.toNat, 19), (a.toNat, 13), (st.toNat, 0)])
  | .ckptStat d a st => some (pack 0xE6000004 [(d.toNat, 19), (a.toNat, 13), (st.toNat, 0)])
  | .collOpen d a st => some (pack 0xE8000000 [(d.toNat, 19), (a.toNat, 13), (st.toNat, 0)])
  | .collPut a b st => some (pack 0xEA000000 [(a.toNat, 13), (b.toNat, 7), (st.toNat, 0)])
  | .collWait d a st => some (pack 0xEC000000 [(d.toNat, 19), (a.toNat, 13), (st.toNat, 0)])
  | .collStat d a st => some (pack 0xEE000000 [(d.toNat, 19), (a.toNat, 13), (st.toNat, 0)])
  | .tideRd d a m st => some (pack 0xF0000000 [(d.toNat, 19), (a.toNat, 13), (m.toNat, 2), (st.toNat, 0)])
  | .gauge a b st => some (pack 0xF2000000 [(a.toNat, 13), (b.toNat, 7), (st.toNat, 0)])
  | .patLd n a b st => some (pack 0xF4000000 [(n.toNat, 19), (a.toNat, 13), (b.toNat, 7), (st.toNat, 0)])
  | .patNext d st => some (pack 0xF6000000 [(d.toNat, 19), (st.toNat, 0)])
  | .patDone a st => some (pack 0xF8000000 [(a.toNat, 13), (st.toNat, 0)])
  | .stashPut d a st => some (pack 0xFA000000 [(d.toNat, 19), (a.toNat, 13), (st.toNat, 0)])
  | .stashGet d a st => some (pack 0xFA000004 [(d.toNat, 19), (a.toNat, 13), (st.toNat, 0)])
  | .stashFree a st => some (pack 0xFA000008 [(a.toNat, 13), (st.toNat, 0)])
  | .trap c k st => some (pack 0xFC000000 [(c.toNat, 19), (k.toNat, 13), (st.toNat, 0)])
  | .eret st => some (pack 0xFC000004 [(st.toNat, 0)])
  | .brk c k st => some (pack 0xFC000008 [(c.toNat, 19), (k.toNat, 13), (st.toNat, 0)])
  | .halt st => some (pack 0xFC00000C [(st.toNat, 0)])
  | .map d a b st => some (pack 0xFE000000 [(d.toNat, 19), (a.toNat, 13), (b.toNat, 7), (st.toNat, 0)])
  | .unmap a b st => some (pack 0xFE000004 [(a.toNat, 13), (b.toNat, 7), (st.toNat, 0)])
  | .tlbinv a b st => some (pack 0xFE000008 [(a.toNat, 13), (b.toNat, 7), (st.toNat, 0)])
  | .fqPop d n st => some (pack 0xFE00000C [(d.toNat, 19), (n.toNat, 13), (st.toNat, 0)])
  | .resume a b st => some (pack 0xFE000010 [(a.toNat, 13), (b.toNat, 7), (st.toNat, 0)])
  | .ctxSave a b st => some (pack 0xFE000014 [(a.toNat, 13), (b.toNat, 7), (st.toNat, 0)])
  | .ctxRest a b st => some (pack 0xFE000018 [(a.toNat, 13), (b.toNat, 7), (st.toNat, 0)])
  | .barTryTimeout _ _ => none
  | .teamPlace _ => none
  | .dispatchSwap _ => none
  | .parkedShareSwitch _ _ => none
  | .engdrainExpiry _ => none
  | .teamRetire _ => none
  | .taskStart _ => none
  | .jobComplete _ => none
  | .jobPark _ => none
  | .replayInstanceStart _ => none
  | .contextTeardown _ => none
  | .teamHalt _ => none
  | .frameOpenRetry _ _ => none
  | .framePublish _ _ => none
  | .stalenessFault _ _ _ => none
  | .wcbAgeDrain _ => none
  | .wcbFlush => none
  | .peerRequestReceive _ => none
  | .peerResponseLand _ _ _ _ => none
  | .peerAckLand _ _ _ _ => none
  | .linkReplay _ => none
  | .linkRetrain _ _ => none
  | .moduleUnreachable _ => none
  | .tideEnable _ => none
  | .tideBeaconSend => none
  | .tideBeaconReceive _ _ => none
  | .tideLateExpiry _ => none
  | .tideAbsentExpiry _ => none
  | .collContributionArrival _ _ _ => none
  | .collTimerClose _ _ => none
  | .collCloseReceive _ _ => none
  | .gaugeDigestReceive _ _ _ _ => none
  | .partialArrival _ _ _ => none
  | .combineWindowExpiry _ _ _ => none
  | .ckptDrainEnd _ _ => none
  | .patternSignalReceive _ _ => none
  | .creditReceive _ => none
  | .patternHandout => none
  | .patcfgEnable _ => none
  | .patcfgDisable _ => none
  | .sampleTick => none
  | .traceFrameSend _ => none
  | .traceOverflowRecord _ => none
  | .debugHalt _ => none
  | .debugRelease _ => none
  | .dbgdataRead => none
  | .dbgdataWrite _ => none
  | .freezePin => none
  | .mgmtFreeze _ => none
  | .jtagExtest _ => none
  | .jtagIdcode => none
  | .jtagSamplePreload _ => none
  | .jtagFreeze _ => none
  | .jtagDsel _ => none
  | .jtagDdata _ => none
  | .jtagBypass _ => none
  | .hostFarRead _ _ => none
  | .hostFarWrite _ _ => none
  | .doorbell _ => none
  | .msixUnmask _ => none
  | .mgmtsemAcquire _ => none
  | .mgmtsemRelease _ => none
  | .mgmtLinkLossRelease _ => none
  | .identity _ => none
  | .attest _ _ => none
  | .bringUp _ _ => none
  | .keyLoad _ _ => none
  | .keyEmpty _ _ => none
  | .powerCapThrottle _ => none
  | .thermalThrottle _ => none
  | .thermalTrip _ => none
  | .registerWrite _ _ _ _ => none
  | .illegalInstruction _ => none
  | .instructionFetchFault _ _ => none
  | .pendingRegisterWrite _ _ _ _ => none
  | .longWordUnitComplete _ _ => none
  | .endToEndAckReceive _ _ => none
  | .thermalThrottleRelease _ => none

/-- The instruction a table row's bits give: the bytes in the order the hardware stores them (R7), given to the decoder. -/
def decodeTableWord (nbits w : Nat) : Option Instr :=
  match decodeBytes (bytesOfWord (BitVec.ofNat 32 (w % 2 ^ nbits))) with
  | .ok (i, _) => some i
  | .error _ => none

end Sys2Proof
end

