-- ==== Sys2Proof/Machine/FMap.lean ====
section
/-! DEFINITION. Sparse tables and bit fields: reading and writing a table by number, its canonical form, and the small
conversions between words, numbers and bytes that every layout of the manual uses (R6, R7, R8). -/

namespace Sys2Proof

/-- What key k holds; d when it is not listed. -/
def FMap.get {α : Type} (d : α) : List (Nat × α) → Nat → α
  | [], _ => d
  | (j, v) :: t, k => if j = k then v else FMap.get d t k

/-- The table without key k. -/
def FMap.drop {α : Type} (m : List (Nat × α)) (k : Nat) : List (Nat × α) := m.filter fun p => p.1 != k

/-- The table with (k, v) put before the first greater key. -/
def FMap.insert {α : Type} (k : Nat) (v : α) : List (Nat × α) → List (Nat × α)
  | [] => [(k, v)]
  | (j, u) :: t => if k < j then (k, v) :: (j, u) :: t else (j, u) :: FMap.insert k v t

/-- The table with key k at v, listing no default. -/
def FMap.set {α : Type} [DecidableEq α] (d : α) (m : List (Nat × α)) (k : Nat) (v : α) : List (Nat × α) :=
  if v = d then FMap.drop m k else FMap.insert k v (FMap.drop m k)

/-- Keys above `lo` strictly rising and no entry at the default. -/
def FMap.wfFrom {α : Type} [DecidableEq α] (d : α) : Option Nat → List (Nat × α) → Bool
  | _, [] => true
  | lo, (k, v) :: t => (match lo with | none => true | some l => decide (l < k)) && decide (v ≠ d) && FMap.wfFrom d (some k) t

/-- The canonical form. -/
def FMap.wf {α : Type} [DecidableEq α] (d : α) (m : List (Nat × α)) : Bool := FMap.wfFrom d none m

/-- Keys lo to lo + n − 1 removed. -/
def FMap.clear {α : Type} (m : List (Nat × α)) (lo n : Nat) : List (Nat × α) :=
  m.filter fun p => !(decide (lo ≤ p.1) && decide (p.1 < lo + n))

/-- Entries of keys lo to lo + n − 1. -/
def FMap.slice {α : Type} (m : List (Nat × α)) (lo n : Nat) : List (Nat × α) :=
  m.filter fun p => decide (lo ≤ p.1) && decide (p.1 < lo + n)

/-- A byte table in canonical form. -/
abbrev Memory.wf (m : List (Nat × W8)) : Prop := FMap.wf (0 : W8) m = true

/-- n bytes from address a, little-endian (R7). -/
def Mem.read (m : List (Nat × W8)) (a : Nat) : Nat → Nat
  | 0 => 0
  | n + 1 => (FMap.get 0 m a).toNat + 256 * Mem.read m (a + 1) n

/-- The n low bytes of v written from address a, little-endian (R7). -/
def Mem.write (m : List (Nat × W8)) (a : Nat) : Nat → Nat → List (Nat × W8)
  | 0, _ => m
  | n + 1, v => Mem.write (FMap.set 0 m a (BitVec.ofNat 8 v)) (a + 1) n (v / 256)

/-- Bits [hi:lo] of a number. -/
def bits (v hi lo : Nat) : Nat := v / 2 ^ lo % 2 ^ (hi + 1 - lo)

/-- Bit i of a number. -/
def bit (v i : Nat) : Bool := v / 2 ^ i % 2 == 1

/-- 1 or 0. -/
def b2n (b : Bool) : Nat := if b then 1 else 0

/-- A number of n bits as two's complement (R8). -/
def signed (n v : Nat) : Int := if v % 2 ^ n < 2 ^ (n - 1) then (v % 2 ^ n : Nat) else (v % 2 ^ n : Nat) - (2 ^ n : Nat)

/-- The n-bit two's-complement pattern of an integer. -/
def pattern (n : Nat) (z : Int) : Nat := (z % (2 ^ n : Nat)).toNat

/-- A lane register as an unsigned number or 64 bits as a uniform register. -/
def w32 (n : Nat) : W32 := BitVec.ofNat 32 n
/-- A number as a uniform register. -/
def w64 (n : Nat) : W64 := BitVec.ofNat 64 n

/-- Sign extension of a field to a uniform register (R19). -/
def sx64 {n : Nat} (b : BitVec n) : W64 := b.signExtend 64

/-- Bytes of a number, lowest first. -/
def bytesOf (v : Nat) : Nat → List W8
  | 0 => []
  | n + 1 => BitVec.ofNat 8 v :: bytesOf (v / 256) n

/-- The number whose bytes are given, lowest first. -/
def ofBytes : List W8 → Nat
  | [] => 0
  | b :: t => b.toNat + 256 * ofBytes t

/-- Ceiling of a division. -/
def cdiv (a b : Nat) : Nat := (a + b - 1) / b

end Sys2Proof
end

