-- ==== Sys2Proof/Config.lean ====
section
/-! DEFINITION. What one VL8 fixes and the manual leaves open: the free values. Each is an opaque constant, so nothing
can be proved of its value; a claim about the machine holds whatever it is. -/

namespace Sys2Proof.Config

/-- The old-or-new choice of an undersized read (R209), by free counter, lane and register. DESIGN CHOICE: free (log 4). -/
opaque readsOld : Nat → Nat → Nat → Bool

/-- Whether a fetch (R298) or a walk (R328) uses a cached copy that differs from memory, by free counter. DESIGN CHOICE: free (log 5). -/
opaque usesCached : Nat → Bool

/-- Which of the values that the bound of R73 allows `exp2`, `log2`, `sin`, `cos`, `tanh`, `lgst` and `rsqrt` return: function number,
input bits. DESIGN CHOICE: free (log 6). -/
opaque sfu : Nat → W64 → W64

/-- What a far byte read under another key identifier differs by (R270): reading and writing key tags, FPA. DESIGN CHOICE: free (log 7). -/
opaque cipherMask : Nat → Nat → Nat → W8

/-- Which byte of its source an overlapping copy leaves in a byte of its destination (R170), by free counter and byte number. DESIGN
CHOICE: free (log 8). -/
opaque overlapPick : Nat → Nat → Nat

/-- Which of the free places of a pool a reservation takes (R257, R345), by free counter. DESIGN CHOICE: free (log 18). -/
opaque poolPick : Nat → Nat

/-- Whether the switch plane of a UALink port reports that port down at a module of the pod (R412, R422), by free counter, port and
module: other modules are outside this one. DESIGN CHOICE: free (log 19). -/
opaque planeDown : Nat → Nat → Nat → Bool

/-- What a program load reads of a byte that backs a return stack, which none reaches (R257): by free counter and address. DESIGN CHOICE:
free (log 15). -/
opaque hiddenByte : Nat → Nat → W8

/-- The lanes at which bring-up trains a port, 4, 2 or 1, any other number for one that does not train (R454): the far end is outside this
module. DESIGN CHOICE: free (log 44). -/
opaque trainedWidth : Nat → Nat

/-- Which of the ports that give a route a unit takes (R422), by free counter. DESIGN CHOICE: free (log 19). -/
opaque portPick : Nat → Nat

/-- Whether a launch window's field that was written while the window was busy gives the pending launch its new value (R451), by free
counter and field. DESIGN CHOICE: free (log 27). -/
opaque takesNew : Nat → Nat → Bool

/-- The modulus of an RSA public key as a firmware image carries it (R455), whose form the manual does not give. DESIGN CHOICE: free
(log 9). -/
opaque keyModulus : List W8 → Nat
/-- Its public exponent (R455). DESIGN CHOICE: free (log 9). -/
opaque keyExponent : List W8 → Nat
/-- The signature of the identity key over a digest, 512 bytes (R456). DESIGN CHOICE: free (log 9). -/
opaque identitySign : BitVec 512 → BitVec 4096
/-- The X.509 certificate of the module (R456). DESIGN CHOICE: free (log 9). -/
opaque certificate : List W8
/-- The ROM image whose digest attestation reports (R456). DESIGN CHOICE: free (log 9). -/
opaque romDigest : BitVec 512
/-- The fused key digests, 0 to 2, and whether each is revoked (R455). DESIGN CHOICE: free (log 9). -/
opaque fusedKey : Nat → BitVec 512
/-- Whether a fused key digest is revoked (R455). DESIGN CHOICE: free (log 9). -/
opaque fusedRevoked : Nat → Bool
/-- The fused rollback counter (R455). DESIGN CHOICE: free (log 9). -/
opaque fusedRollback : W64

/-- The 32-bit identification code of the JTAG port (R444), which the manual does not give. DESIGN CHOICE: free (log 10). -/
opaque idcode : W32
/-- DEVID[31:16], the revision (R449), which the manual does not give. DESIGN CHOICE: free (log 10). -/
opaque revision : BitVec 16
end Sys2Proof.Config
end

