-- ==== Sys2Proof/Machine/State.lean ====
section
/-! DEFINITION. The state of one PL-VL8 module as plain data: what the manual names at the levels of R196 and on the
device, the reasons a step can stop, and the machine at bring-up step 5 (R454). Every field's comment names the rule that
gives it and its reset value; `model` marks the fields that are the model's own. -/

namespace Sys2Proof.Machine

open Sys2Proof

/-- Reasons for which the machine stops. -/
inductive Fault where
  /-- A meaning was run while `State.cur` names no live team: no run reaches such a state, because `step` sets `cur`
  from a live team before it runs a word. Raised by `gate`. Safe: the device has no such behaviour. -/
  | noIssuingParty
  deriving DecidableEq, Repr

/-- Reasons for which the model has no meaning for a row. -/
inductive Refusal where
  /-- The row's arm is not modelled yet. Raised by `exec` alone. Safe: nothing can be proved about the row. -/
  | notModelled (mnemonic : String)
  deriving DecidableEq, Repr

/-- Little-endian bytes by address (R7); an unlisted byte reads zero (log 1). -/
abbrev Mem := FMap W8

/-- A scoreboard entry (R209, R212): a register whose newest write may not yet be due. -/
structure Pend where
  reg  : RegRef
  /-- value before the write, for the undersized read of R209 (flags as 0 or 1) -/
  old  : W64
  /-- program counter of the producer (R211, R212) -/
  producer : W64
  /-- latency of R53 or R120; none when not fixed -/
  latency : Option Nat
  /-- sum of R53 over the words issued since, the producer included -/
  elapsed : Nat
  /-- the producer carried stall count 0b11 -/
  full : Bool
  /-- the lane issues nothing before it is written (R17, R419) -/
  holds : Bool
  /-- the value has been written (false for a peer response in flight, R406) -/
  written : Bool
  /-- exported by a clause trailer (R130) -/
  exported : Bool
  /-- the producer is a special-function word, whose result a handler's entry drains (R341) -/
  sf : Bool
  /-- the producer stands in a clause that is still open (R130) -/
  clause : Bool
  /-- tag of the request that will write it, with the slot's number (R406) -/
  tag : Nat
  /-- of a special-function result pending at a handler's entry: the cycle by which it is written (R341) -/
  drain : Option Nat := none
  deriving DecidableEq, Repr

/-- Why a lane or a sequencer context does not issue (R200, R437). -/
inductive Wait where
  | none
  /-- a `reconv` of a key, with the stall bits of the lane's own word (R53, R94) -/
  | reconv (key : Nat) (st : BitVec 2)
  | crossLane
  /-- a rendezvous word of R160 -/
  | rendezvous
  | clauseHeader
  /-- barrier wait for a phase above `target`; `bar.try` also holds the cycle of its bound, its flag and its stall bits -/
  | barrier (wide : Bool) (b : Nat) (target : Nat) (bound : Option (Nat × Nat × BitVec 2))
  /-- an arrival held back by the one-ahead case of R161 -/
  | arrive (wide : Bool) (b : Nat)
  /-- `bar.init` waiting for a = 0 and n = 0 (R162) -/
  | barInit (wide : Bool) (b : Nat)
  /-- `task.wait` or `task.wait.take` on a counter, by its index in the context's grant (R169) -/
  | task (counter : Nat) (take : Bool)
  | stepLead (step : W32)
  /-- a strand that has come to `step.enter` waits for the other strands of its team (R175) -/
  | stepTeam (step : W32)
  /-- `pat.next` for register pair d with its stall bits, since a cycle (R183, R397) -/
  | patNext (since d : Nat) (st : BitVec 2)
  | coll (handle : Nat) (step : W32)
  /-- parked at a memory or U word on an address (R100); `version` parks have no fault record (R104, R292) -/
  | parked (addr : W64) (version : Bool)
  /-- requests of the word wait for slots, or for the bytes that it fetches: the number of its requests (R406) -/
  | slots (tag : Nat)
  /-- exported registers not yet written (R130, R208) -/
  | exported (rs : List RegRef)
  /-- range-scoreboard entries over n bytes at a window offset (R255) -/
  | range (off n : Nat)
  /-- the first and the number of tiles that an earlier word of the team on the core still uses (R149, R150) -/
  | tiles (h n : Nat)
  /-- a release waits for acknowledgements (R419) -/
  | release
  /-- a `bar.try` whose bound has passed before its phase was complete: its flag and stall bits (R300) -/
  | expired (n : Nat) (st : BitVec 2)
  /-- a task entry is lacking (R170) -/
  | entry
  /-- an entry is lacking on the range scoreboard of the core that holds a window offset (R170, R254) -/
  | rangeSlot (off : Nat)
  /-- at a `ctx.rest` of an image whose n tasks lack entries (R314) -/
  | restoring (n : Nat)
  /-- at a `ctx.save` of a slot whose teams are still being pre-empted (R189, R344) -/
  | saving (slot : Nat)
  /-- debug stall mode (R440) -/
  | trace
  /-- stopped by a trap of its team, or before a word that would trap within the skid (R338) -/
  | stopped
  deriving DecidableEq, Repr

/-- An error response not yet taken by its lanes (R461). -/
structure PeerFault where
  detail : Nat
  info   : W32
  /-- the request was write-like: taken at a system-scope release, fence or exit only -/
  write  : Bool
  /-- access as in the violation log (R333) -/
  acc    : Nat
  /-- destination registers of the failed word -/
  regs   : List RegRef
  /-- taken at the next word: its lanes waited under 0b11, or stood at it, or it is a sequencer's -/
  next   : Bool
  /-- of a word issued before the handler that its party runs: not taken before that handler's return -/
  held   : Bool := false
  deriving DecidableEq, Repr

/-- A lane of a strand (R196), or the one issuing lane that a sequencer context counts as (R22). -/
structure Lane where
  /-- program counter; entry address at placement (R197) -/
  pc : W64 := 0
  /-- v0 to v119 (R23), zero at placement (R42) -/
  v : FMap W32 := []
  /-- t0 to t7, zero when a clause opens, discarded at its trailer (R38) -/
  t : FMap W32 := []
  /-- c3 to c0 (R26), zero at placement (R42) -/
  c : BitVec 4 := 0
  /-- sr.fflags.NV, DZ, OF, UF, NX (R62, R132), reset 0 -/
  fflags : BitVec 5 := 0
  /-- call depth d (R89), 0 at placement -/
  depth : Nat := 0
  /-- the entries of the return stack that the core caches, newest first; the older ones lie in the backing (R257) -/
  stack : List W64 := []
  /-- a lane that is not listed is none of the strand's -/
  exited : Bool := true
  wait : Wait := .none
  /-- units performed of the incomplete long word at which it stands, and all of that word's units; 0 where it stands at none
  (R117, R132, R157) -/
  unit : Nat := 0
  units : Nat := 0
  /-- first and number of the tiles that its incomplete long word uses (R149) -/
  tiles : List (Nat × Nat) := []
  /-- its parked word is to be performed again: by a `resume` while it is saved or halted (R336), or because a version or
  frame has come (R292, R368) -/
  marked : Bool := false
  /-- die cycle from which the stall count lets the lane issue (R17) -/
  ready : Nat := 0
  /-- words its strand has issued since it last issued (R201) -/
  skipped : Nat := 0
  /-- open clause: address of its trailer (R39) -/
  clause : Option W64 := none
  /-- scoreboard (R209, R212) -/
  pend : List Pend := []
  /-- breakpoint pass bit (R432) -/
  pass : Bool := false
  /-- error responses not yet taken (R461) -/
  errors : List PeerFault := []
  /-- of a lane that has parked at `ldv` or `ldv.tag`: cycles since, while resident and not halted (R368), and the cycle from which
  they count on; none while the count pauses -/
  staleCount : Option Nat := none
  staleSince : Option Nat := none
  /-- address of the word issued last (R437) -/
  lastPc : W64 := 0
  /-- trace records since the last anchor, and whether an anchor is due (R441) -/
  traced : Nat := 0
  /-- an anchor is due before the next record (R441) -/
  anchorDue : Bool := true
  /-- registers in uncorrectable error, and the same of its cached stack (R351) -/
  bad : List RegRef := []
  stackBad : Bool := false
  deriving DecidableEq, Repr

/-- A weight bank of a sequencer context (R143): empty at context start (R119). -/
structure Bank where
  loaded : Bool := false
  fmt : BitVec 5 := 0
  scaled : Bool := false
  /-- weight codes W[k][n] at 64k + n -/
  w : FMap W32 := []
  /-- block scales of column n at 16n + block (R233) -/
  scales : FMap W8 := []
  /-- in uncorrectable error (R351) -/
  bad : Bool := false
  deriving DecidableEq, Repr

/-- The state a trap handler's `eret` restores (R187, R340). -/
structure TrapSave where
  /-- saved program counter of each non-exited lane -/
  pcs : FMap W64
  priv : Bool
  /-- units performed of each lane's incomplete word, and all of its units (R133) -/
  units : FMap (Nat × Nat)
  /-- open clause of each lane and its t0 to t7, at 8 × lane + i -/
  clauses : FMap (Option W64)
  temps : FMap W32
  /-- waiting condition and pass bit of each non-exited lane (R432) -/
  waits : FMap Wait
  passes : FMap Bool
  /-- model: the free-value count at the trap, which tells requests made before from the handler's own (R461) -/
  free : Nat := 0
  deriving DecidableEq, Repr

/-- A strand, or a matrix sequencer context (R196). Key in its team: strand k is k, sequencer j is 64 + j. -/
structure Party where
  /-- 1 in a sequencer context (sr.strandid.seq, R132) -/
  seq : Bool := false
  /-- sr.coreid of its core -/
  core : Nat := 0
  /-- lanes of a strand; lane 0 alone in a sequencer context -/
  lanes : FMap Lane := []
  /-- s0 to s63 (R24); parameters, else zero (R42, R119) -/
  s : FMap W64 := []
  /-- shape slots 0 to 7 as 256-bit records (R154); empty at start (R119) -/
  shapes : FMap (Option (BitVec 256)) := []
  /-- sr.round.mode, reset 0 (R132) -/
  round : BitVec 3 := 0
  /-- sr.stacklim.bytes, the header's stack field (R42, R132) -/
  stacklim : W32 := 0
  /-- sr.fault, reset 0 (R135) -/
  fault : W64 := 0
  /-- sr.priv.sup, as R346 gives -/
  priv : Bool := false
  /-- weight banks w0 and w1, and the current bank (R119) -/
  w0 : Bank := {}
  w1 : Bank := {}
  cur : Bool := false
  /-- fetch buffer of the operand fetcher: the box of a `wload` with src 1 as bytes (R248) -/
  fetchBuf : List W8 := []
  /-- saved state while a trap handler runs (R340) -/
  save : Option TrapSave := none
  /-- issue slots since a trap of the team (R338) -/
  skid : Nat := 0
  /-- it trapped in the cycle of the team's trap and does not hold it (R339) -/
  trapped : Bool := false
  /-- issue port, bound at placement (R206) -/
  port : Bool := false
  /-- cycle from which its head run has been eligible (R206) -/
  since : Option Nat := none
  /-- lowest lane of its latest trap, and the access of an access violation (R334) -/
  trapLane : Nat := 0
  trapAcc : Nat := 0
  /-- placement order and cycle of the last issue (R206, R222, R436) -/
  order : Nat := 0
  /-- cycle of its last issue -/
  lastIssue : Nat := 0
  /-- bytes of peer windows that its uniform word has fetched so far, by address (R143, R159) -/
  peerBuf : FMap (Option W8) := []
  /-- addresses in peer windows that its `launch` could not read (R173) -/
  refused : List Nat := []
  /-- fetch blocks of 64 bytes, by address / 64, that it has fetched up to and beyond its last word (R166, R298) -/
  prefetch : List (Nat × List W32) := []
  deriving DecidableEq, Repr

/-- A barrier (R161): reset at placement or context creation. -/
structure Barrier where
  e : Nat := 0
  a : Nat := 0
  n : Nat := 0
  phase : Nat := 0
  /-- φx + 1 of each party, 0 for none; a wide barrier numbers its parties 128 × team + party -/
  phi : FMap Nat := []
  /-- home scope and the instance number of a wide barrier (R164) -/
  home : Option (Nat × Nat) := none
  deriving DecidableEq, Repr

/-- An accumulator tile (R149 to R151). -/
structure Tile where
  allocated : Bool := false
  anchor : W8 := 0
  /-- NaN-seen, inexact-at-entry, saturation (R151) -/
  nan : Bool := false
  inexact : Bool := false
  sat : Bool := false
  /-- in uncorrectable error (R351) -/
  bad : Bool := false
  /-- entry [i][n] at 64i + n, two's complement AF96 (R235) -/
  e : FMap (BitVec 96) := []
  deriving DecidableEq, Repr

/-- What a kernel header says (R40). -/
structure Header where
  entry : W64 := 0
  seqentry : W64 := 0
  jtbase : W64 := 0
  jtlimit : W32 := 0
  /-- lanes per strand W -/
  width : Nat := 16
  /-- the allotment V -/
  vregs : Nat := 16
  strands : Nat := 1
  barriers : Nat := 0
  localBytes : Nat := 0
  acctiles : Nat := 0
  stack : Nat := 0
  params : Nat := 0
  twin : Bool := false
  seq : Bool := false
  deriving DecidableEq, Repr

/-- Why a team is halted (R186, R340, R342, R433). -/
inductive Halt where
  | running
  /-- a trap's skid: the party that holds the trap and the cycle of the trap (R338, R339) -/
  | skid (party since : Nat)
  /-- a debugger halt's skid and the cycle of the halt (R433) -/
  | debugSkid (since : Nat)
  /-- halted; the party runs its handler (R340) -/
  | handler (party : Nat)
  /-- halted until released (R343) -/
  | halted
  deriving DecidableEq, Repr

/-- A team (R196): placed atomically, saved and retired whole (R4). Key: a number the model gives it at creation. -/
structure Team where
  live : Bool := false
  /-- resident on a core, or saved (R344) -/
  resident : Bool := false
  /-- context slot and ASID (sr.ctx) -/
  slot : Nat := 0
  asid : BitVec 16 := 0
  /-- sr.launchid and sr.teamid -/
  launch : W32 := 0
  number : W32 := 0
  /-- key of its launch in `Disp.launches` -/
  launchKey : Nat := 0
  /-- header address H and the header -/
  hdrAddr : W64 := 0
  hdr : Header := {}
  /-- lower-numbered core; a twin also holds the next one (R199) -/
  core : Nat := 0
  /-- sr.step, reset 0 (R132), and whether it has issued `step.enter` (R364) -/
  step : W32 := 0
  entered : Bool := false
  parties : FMap Party := []
  /-- local memory by window offset; zero at placement (R197) -/
  mem : Mem := []
  /-- tiles by 64 × core index + handle -/
  tiles : FMap Tile := []
  /-- team barriers b0 to b23 -/
  bars : FMap Barrier := []
  halt : Halt := .running
  /-- the party whose trap halted it, which its records name; none of a debugger's halt (R334, R339) -/
  holder : Option Nat := none
  /-- debugger mark of a saved team: halt or release at its next placement (R433) -/
  debugMark : Option Bool := none
  /-- writes of DBGDATA that take effect when the team is released: DBGSEL, address and value; and whether it has been (R434) -/
  edits : List (BitVec 40 × W64 × W64) := []
  editsDue : Bool := false
  /-- switched out for parked lanes: not placed before a `resume` marks it (R337) -/
  parkedOut : Bool := false
  /-- placement order (R218), the cycle of its last issue and of a placement by a swap (R222) -/
  order : Nat := 0
  lastIssue : Nat := 0
  swapIn : Option Nat := none
  /-- its reservation in the save pool (R345) and in the stack pool (R257), as offsets -/
  saveAt : Nat := 0
  stackAt : Nat := 0
  /-- cycle at which its pre-emption began to drain jobs (R313) -/
  drainFrom : Option Nat := none
  deriving DecidableEq, Repr

/-- A resident context slot (R347). A free slot is not resident. -/
structure Ctx where
  resident : Bool := false
  asid : BitVec 16 := 0
  /-- level-0 table entry (R347) -/
  root : W64 := 0
  /-- control word: lw, sup, thresh, check (R348) -/
  control : W64 := 0
  cgrant : W64 := 0
  qgrant : W64 := 0
  prio : W64 := 0
  stackbase : W64 := 0
  stackbytes : W64 := 0
  savebase : W64 := 0
  savebytes : W64 := 0
  handler : W64 := 0
  seqhandler : W64 := 0
  /-- wide barriers g0 to g15 -/
  wide : FMap Barrier := []
  /-- the next sr.launchid (R132) -/
  nextLaunch : W32 := 0
  deriving DecidableEq, Repr

/-- Where a launch came from (R215). -/
inductive LaunchSrc where
  | host (q : Nat)
  | word (core : Nat)
  | task (n : Nat)
  /-- of the pattern that was loaded with a generation number -/
  | pattern (entry core gen : Nat)
  deriving DecidableEq, Repr

/-- A launch on a queue or with teams still alive (R173, R215). -/
structure Launch where
  slot : Nat := 0
  id : W32 := 0
  hdrAddr : W64 := 0
  hdr : Header := {}
  /-- launch word (R173) -/
  word : W64 := 0
  params : List W64 := []
  queue : Nat := 0
  src : LaunchSrc := .host 0
  /-- teams placed and retired so far -/
  placed : Nat := 0
  retired : Nat := 0
  deriving DecidableEq, Repr

/-- The dispatcher (R215 to R222). -/
structure Disp where
  /-- launches by key; the model numbers them in order of arrival -/
  launches : FMap (Option Launch) := []
  /-- launch keys of queue q in arrival order -/
  queues : FMap (List Nat) := []
  /-- saved teams waiting at the head of queue q (R218) -/
  returned : FMap (List Nat) := []
  /-- queue served last at each priority (R216) -/
  lastQ : FMap Nat := []
  /-- the die that received the previous team (R217) -/
  lastDie : Nat := 7
  /-- teams that a swap removes, whose place the waiting team takes, each with the core on which the rule acted (R222) -/
  swapping : List (Nat × Nat) := []
  /-- the teardown report (R219): ASID, header address and launch word of each discarded launch -/
  report : List (BitVec 16 × W64 × W64) := []
  /-- next keys of launches and teams and the next placement number (model) -/
  nextLaunch : Nat := 0
  nextTeam : Nat := 0
  nextOrder : Nat := 0
  deriving DecidableEq, Repr

/-- A dependence counter (R168), with the failing address that a faulted job recorded (R169). -/
structure Counter where
  value : W32 := 0
  fault : Bool := false
  under : Bool := false
  failAddr : W64 := 0
  deriving DecidableEq, Repr

/-- A footprint region (R304, R309). -/
structure Region where
  /-- team whose local window it names; none for a region by address -/
  team : Option Nat
  base : Nat
  length : Nat
  write : Bool
  deriving DecidableEq, Repr

/-- What a job does (R170, R171, R305). -/
inductive Job where
  /-- bytes, with local source and local destination flags -/
  | copy (src dst count : Nat) (srcLocal dstLocal : Bool)
  /-- box copy: record, indices, place, and whether it stores -/
  | tile (shape : BitVec 256) (idx place : W64) (store : Bool)
  /-- copy list: (source, destination, length) with local flags -/
  | list (pairs : List (Region × Region))
  | fill (regions : List Region)
  | launch (hdr word params : W64)
  | contribution (arg0 addr : W64)
  | signal
  deriving DecidableEq, Repr

/-- States of a task (R307); `parked` is a running job that waits for `resume` (R170). -/
inductive TaskState where
  | waiting | ready | running | parked | squashed
  deriving DecidableEq, Repr

/-- An entry of the task unit (R307). -/
structure Task where
  n : Nat
  slot : Nat
  asid : BitVec 16
  /-- submitting team, party, core and program counter -/
  team : Nat
  party : Nat
  core : Nat
  pc : W64
  /-- sr.step of the submitting team (R291) -/
  step : W32
  job : Job
  regions : List Region
  /-- numbers of the tasks it waits for (R308) -/
  edges : List Nat
  /-- gate counter (device index) until satisfied (R310) -/
  gate : Option Nat
  done : Option Nat
  state : TaskState
  /-- progress P in units (R303) -/
  prog : Nat
  /-- parked address (R334) -/
  parkedAt : W64
  /-- range-scoreboard core it holds an entry on (R254) -/
  range : Option Nat
  /-- graph instance it belongs to (R316) -/
  inst : Option Nat
  /-- versioned writes as they resolved at submission: ring and frame, or none where the frame was published (R291) -/
  frames : List (Nat × Option Nat) := []
  /-- bytes of peer windows that it has fetched so far, by address -/
  buf : FMap (Option W8) := []
  /-- the bytes of unit P are all written or sent, and acknowledgements are still to come (R303) -/
  sent : Bool := false
  /-- bytes of its sources as it found them at its start, kept where sources and destinations overlap (R170) -/
  before : List W8 := []
  /-- address of the access violation in which it ends once its writes are acknowledged (R303, R311) -/
  failed : Option W64 := none
  /-- cycle at which it became ready (R307), and whether it is parked for a frame (R292) -/
  readyAt : Nat := 0
  quiet : Bool := false
  /-- launch that a job of kind 2 has enqueued, by key (R305) -/
  launched : Option Nat := none
  /-- of a contribution: how often the device step had risen at its submission (R364), and the opening of its handle (R305) -/
  rise : Nat := 0
  gen : Nat := 0
  deriving DecidableEq, Repr

/-- An instance of a graph object (R316). -/
structure Instance where
  slot : Nat
  asid : BitVec 16
  /-- object address, instance slot 0 to 3, submission order -/
  object : W64
  index : Nat
  order : Nat
  started : Bool
  /-- submitting team, party, core, sr.step and program counter -/
  team : Nat
  party : Nat
  core : Nat
  step : W32
  pc : W64
  /-- counter decremented when it completes -/
  done : Option Nat
  deriving DecidableEq, Repr

/-- An entry of a core's range scoreboard (R254). -/
structure RangeEntry where
  team : Nat
  lo : Nat
  hi : Nat
  task : Nat
  pc : W64
  deriving DecidableEq, Repr

/-- A write-combining line (R287). -/
structure WcbLine where
  module : Nat
  asid : BitVec 16
  /-- 128-byte aligned target address -/
  line : Nat
  /-- bytes written, each with the place in `parties` of the store that wrote it last -/
  bytes : FMap (Option (W8 × Nat))
  /-- cycle of its first byte -/
  since : Nat
  /-- (team, party, lane, address) of the stores it holds -/
  parties : List (Nat × Nat × Nat × W64)
  /-- model: the free-value count at each of them, which tells stores made before a trap from its handler's (R461) -/
  stamps : List Nat := []
  /-- program counter of the first of its stores, which stands for the line where a stall is blamed on it (R408) -/
  pc : W64
  deriving DecidableEq, Repr

/-- A request of a core on a channel, waiting for a slot or outstanding (R406, R417). -/
structure Outstanding where
  req : PeerReq
  team : Nat
  party : Nat
  pc : W64
  /-- the word, or none for a drained write-combining line -/
  word : Option Instr
  /-- number of the word's scoreboard entries -/
  tag : Nat
  /-- per request lane: destination registers in order, empty when nothing is written -/
  dests : List (List RegRef)
  /-- the word's lanes, which stand at it until its last request has left -/
  lanes : List Nat
  /-- whose stores or loads it carries: team, party, lane, address (R461) -/
  carried : List (Nat × Nat × Nat × W64)
  /-- model: of a drained line, the free-value count at each of its stores (R461) -/
  stamps : List Nat := []
  /-- read-like: it takes a response line (R406) -/
  reads : Bool
  /-- its place in the order of its word's requests (R406) -/
  index : Nat
  /-- the bytes go to the party's `peerBuf`, and the lanes run their uniform word again -/
  fetch : Bool
  /-- it is an engine job's: the task -/
  task : Option Nat := none
  /-- port over which it went last; none while no route was found (R422, R423) -/
  port : Option Nat := none
  /-- of a fetch: an error answer is reported to the word, a `launch`, instead of trapping there (R173) -/
  report : Bool := false
  /-- it reads the header of a launch window, the queue (R451), or of the pattern's head, 65 (R464); 64 once nobody awaits it -/
  window : Option Nat := none
  deriving DecidableEq, Repr

/-- A request channel of a core (R417). -/
structure Channel where
  issued : W32 := 0
  nextSeq : Nat := 0
  /-- held slots, oldest first -/
  out : List Outstanding := []
  /-- requests waiting for a slot, in the order of their words -/
  waiting : List Outstanding := []
  /-- the peer is reachable again: the next request takes sequence number 0, once the last error response has landed (R424) -/
  restart : Bool := false
  deriving DecidableEq, Repr

/-- A compute or service core (R196, R254, R287, R417). -/
structure Core where
  range : List RangeEntry := []
  wcb : List WcbLine := []
  chans : FMap Channel := []
  /-- RSLOT.peer, reset 0 (R407) -/
  peerSel : BitVec 10 := 0
  /-- the placement order of the party sampled last (R436) -/
  sampled : Nat := 0
  /-- the cycle from which its idle interval counts (R222) -/
  idleFrom : Nat := 0
  /-- placement order, plus one, of the party that port 0, port 1 and the uniform pipe (2) served last; the cycle from which each
  is free (R206) -/
  served : FMap Nat := []
  freeFrom : FMap Nat := []
  /-- the issue port to which the next strand placed here is bound (R206) -/
  portNext : Bool := false
  deriving DecidableEq, Repr

/-- A tide entry (R362): reset state 3, the rest 0; `from` is the cycle from which its silence counts (R363). -/
structure TideEntry where
  state : BitVec 2 := 3
  agg : Bool := false
  module : BitVec 17 := 0
  step : W32 := 0
  heard : W64 := 0
  silentFrom : Nat := 0
  deriving DecidableEq, Repr

/-- A tag record of `ldv.tag` (R367): the ring's NPA stands for the page. -/
structure TagRecord where
  asid : BitVec 16
  tag : W8
  ring : Nat
  step : W32
  deriving DecidableEq, Repr

/-- A collective record as read (R369). -/
structure CollRecord where
  kind : Nat := 0
  wire64 : Bool := false
  infmt : Nat := 0
  anchor : Int := 0
  outfmt : Nat := 0
  gamma : Nat := 0
  n : Nat := 1
  q : Nat := 1
  chunks : Nat := 1
  cblocks : Nat := 1
  timer : Nat := 0
  nbackup : Nat := 0
  members : List Nat := []
  /-- (primary, backup) member-table indices -/
  pairs : List (Nat × Nat) := []
  result : W64 := 0
  closerec : W64 := 0
  deriving DecidableEq, Repr

/-- A chunk at its owner (R373, R374). -/
structure ChunkState where
  open_ : Option W32 := none
  /-- on-time arrivals of the open step, late ones of the step before, early ones of the step after -/
  onTime : List Contribution := []
  late : List Contribution := []
  early : List Contribution := []
  /-- contributions that were on time or early until, before the first close, one of a lower step came (R373) -/
  waiting : List Contribution := []
  drops : Nat := 0
  /-- pairs covered at the last close, by primary index (R375) -/
  lastCovered : List Nat := []
  /-- cycle of the first on-time arrival (R374) -/
  since : Option Nat := none
  deriving DecidableEq, Repr

/-- Digests of one step of a handle (R382). -/
structure GaugeStep where
  step : W32
  /-- this member's digest, once it is formed -/
  own : Option (BitVec 128)
  unread : Bool
  set : List Nat
  got : List (Nat × BitVec 128)
  decided : Bool
  deriving DecidableEq, Repr

/-- A collective handle (R371). -/
structure Coll where
  isOpen : Bool := false
  slot : Nat := 0
  asid : BitVec 16 := 0
  /-- address of its record, by which members name it to one another (R369) -/
  address : W64 := 0
  record : CollRecord := {}
  /-- this module's member-table index -/
  me : Nat := 0
  /-- greatest step of any close record received, none before the first (R371) -/
  newest : Option W32 := none
  /-- model: the free-value count at its opening, which tells one opening of the handle from another (R305) -/
  gen : Nat := 0
  /-- steps that this device has put (R373, R381) -/
  puts : List W32 := []
  /-- contributions, each with its chunk, that wait in this device's engine for their owner's open step (R373) -/
  engine : List (Nat × Contribution) := []
  owned : FMap ChunkState := []
  /-- closes received, by 2^32 × chunk + step (R377) -/
  closes : FMap (Option ChunkClose) := []
  /-- steps of which a write was not performed, with the first failing address (R462) -/
  failed : List (W32 × W64) := []
  /-- gauge region lists, newest first, each with the steps put before, to which it does not apply (R381) -/
  regions : List (List W32 × List (W64 × W64)) := []
  gauge : List GaugeStep := []
  deriving DecidableEq, Repr

/-- A port adder's combining window (R428). -/
structure Combine where
  handle : Nat
  chunk : Nat
  step : W32
  parts : Contribution
  since : Nat
  deriving DecidableEq, Repr

/-- A checkpoint (R178, R383, R384). -/
structure Ckpt where
  state : BitVec 2 := 0
  bytes : Nat := 0
  slot : Nat := 0
  kind : Nat := 0
  target : W64 := 0
  /-- (ring NPA, step) of each pinned frame, in list order -/
  frames : List (Nat × W32) := []
  /-- device counter decremented at the end -/
  done : Option Nat := none
  /-- units of its stream as it sent them: destination and number (R423) -/
  units : List (Nat × Nat) := []
  /-- a frame could not be read, or the target has become unreachable: the drain can only fail (R384, R424) -/
  broken : Bool := false
  deriving DecidableEq, Repr

/-- A stash slot (R399). -/
inductive Slot where
  | free | reserved (tag : W8) (entry : Nat) | bound (tag : W8)
  deriving DecidableEq, Repr

/-- The pattern and the stash (R393 to R402). -/
structure Pattern where
  /-- entries as loaded, 256 bits each; PATSTAT.count is their number -/
  entries : List (BitVec 256) := []
  /-- PATSTAT.head (R402) -/
  head : Nat := 0
  /-- indices handed out and not retired -/
  outstanding : List Nat := []
  /-- arrival counts (R396), saturating at 255 -/
  arrivals : FMap Nat := []
  credit : Nat := 0
  err : Bool := false
  lost : Nat := 0
  slots : FMap Slot := []
  /-- bubble counters 0 to 4 (R401) -/
  bubbles : FMap W64 := []
  /-- core of the strand that issued `pat.ld` (R397) -/
  ldCore : Nat := 0
  /-- a refused kernel entry stops the hand-out (R397) -/
  stopped : Bool := false
  /-- the 64 bytes of the head's header in a peer window, once they have come, or none where they were refused (R397, R464) -/
  header64 : Option (Option Nat) := none
  /-- model: number of patterns loaded or discarded so far -/
  gen : Nat := 0
  deriving DecidableEq, Repr

/-- The fault queue (R335): the ring lies in near memory; `first` is the index of the oldest record. -/
structure FaultQ where
  first : Nat := 0
  count : Nat := 0
  peak : Nat := 0
  held : List (BitVec 256) := []
  deriving DecidableEq, Repr

/-- A UALink (0 to 23) or Ethernet (24 to 27) port (R422, R426). -/
structure Port where
  state : BitVec 3 := 0
  width : BitVec 3 := 0
  replays : BitVec 16 := 0
  retrains : BitVec 16 := 0
  /-- cycles of its replays within the last 65,536 (R422) -/
  recent : List Nat := []
  /-- model: the cycle from which a port that is not up has been so (R422) -/
  left : Nat := 0
  deriving DecidableEq, Repr

/-- What the target keeps of a requesting core's channel (R417, R423): the next sequence number it performs, the stored responses
of performed requests with the unit numbers under which the requester acknowledges them, and the reorder buffer. -/
structure Ingress where
  next : Nat := 0
  stored : List (Nat × Nat × PeerAnswer) := []
  ahead : List PeerReq := []
  deriving DecidableEq, Repr

/-- What the target keeps of the messages and bulk units of a source module (R413, R423): the next number that it delivers, the
reorder buffer, with each unit as the event of its delivery, the numbers of contributions that it has not accepted and that come
again (R373), and those of the units of a checkpoint stream that it has performed (R384). -/
structure Inbound where
  next : Nat := 0
  ahead : List (Nat × Instr) := []
  refused : List Nat := []
  streamed : List Nat := []
  deriving DecidableEq, Repr

/-- Traffic classes, one virtual channel each (R411, R412). -/
inductive Traffic where
  | request | response | message | bulk
  deriving DecidableEq, Repr

/-- How a unit leaves (R411 to R414): its class, its port (0 to 23 UALink, 24 to 27 Ethernet), and on Ethernet the entry of its
connection; a message or bulk unit carries its end-to-end number (R423). -/
structure Route where
  traffic : Traffic
  port : Nat
  number : Nat := 0
  endpoint : BitVec 256 := 0
  deriving DecidableEq, Repr

/-- Traffic that leaves the module (R411), and what it answers to the host, the management ports, JTAG and the capture unit. -/
inductive Packet where
  /-- a packet on a route -/
  | routed (r : Route) (p : Packet)
  | request (r : PeerReq)
  /-- response or acknowledgement to a requester's core: module, core, sequence number -/
  | response (module core seq : Nat) (a : PeerAnswer)
  | beacon (module : Nat) (step : W32)
  | signal (module : Nat) (asid : BitVec 16) (index : Nat)
  | credit (module : Nat) (asid : BitVec 16)
  | contribution (module : Nat) (record : W64) (chunk : Nat) (k : Contribution)
  /-- a partial, with its elements, in fields of so many bits, and their NaN bits as they travel (R428) -/
  | partialSum (module : Nat) (record : W64) (chunk : Nat) (k : Contribution) (bits : Nat) (fields : List (Nat × Bool))
  | close (module : Nat) (record : W64) (k : ChunkClose)
  | digest (module : Nat) (record : W64) (step : W32) (member : Nat) (d : BitVec 128)
  /-- n bytes of a checkpoint of a context at an offset of its target -/
  | stream (asid : BitVec 16) (target : W64) (kind offset n value : Nat)
  | msix (vector : Nat)
  | hostRead (offset : Nat) (vals : Option (List W8))
  | hostAbort (offset : Nat)
  | mgmtError (port : Nat)
  | mgmtReply (port : Nat) (bytes : List W8)
  | attestation (port : Nat) (nonce : BitVec 512) (rom fw strapDigest : BitVec 512) (version strapWord : W64) (sig : BitVec 4096)
  | jtag (bits : List Bool)
  | jtagWord (value : W64)
  | trace (die : Nat) (header : W64) (record : BitVec 256)
  | debugData (value : W64)
  deriving DecidableEq, Repr

/-- A message or bulk unit kept until its end-to-end acknowledgement (R423). -/
structure Unacked where
  module : Nat
  number : Nat
  /-- bulk of a collective, which a later beacon waits for (R421) -/
  bulk : Bool
  packet : Packet
  /-- how often the device step had risen when it was put (R421) -/
  rise : Nat := 0
  /-- ASID of the context of a contribution or partial, which `ctx.save` discards (R386) -/
  asid : Option (BitVec 16) := none
  /-- port over which it went last; none while no route was found (R422) -/
  port : Option Nat := none
  deriving DecidableEq, Repr

/-- The fabric (R411 to R429). -/
structure Fabric where
  /-- ports whose state has changed; any other is as bring-up trained it (R454) -/
  ports : FMap (Option Port) := []
  /-- unreachable modules by system module number (R422) -/
  unreachable : FMap Bool := []
  /-- by 2,048 × source module + source core -/
  ingress : FMap Ingress := []
  /-- by source module (R423) -/
  inbound : FMap Inbound := []
  nextNumber : FMap Nat := []
  unacked : List Unacked := []
  /-- open Ultra Ethernet connections by endpoint, with the entry as it was read (R414) -/
  conns : FMap (Option (BitVec 256)) := []
  /-- 1 + the cycle from which no route to a system module has been found, 0 for none (R422) -/
  routeless : FMap Nat := []
  combining : List Combine := []
  deriving DecidableEq, Repr

/-- Trace state of a die (R440). -/
structure TraceDie where
  buffer : List (BitVec 256) := []
  lost : Nat := 0
  frame : BitVec 24 := 0
  deriving DecidableEq, Repr

/-- Debug, sampling and trace (R430 to R442). -/
structure Debug where
  /-- DBGBP0 to DBGBP7, reset 0 (R430) -/
  bp : FMap (BitVec 128) := []
  halt0 : W64 := 0
  haltAsid : BitVec 16 := 0
  haltErr : Bool := false
  sel : BitVec 40 := 0
  selErr : Bool := false
  /-- DBGDATA's last write, the address of classes 4 to 6 (R434) -/
  data : W64 := 0
  sampBase : BitVec 11 := 0
  sampNext : BitVec 16 := 0
  sampLost : BitVec 12 := 0
  sampInterval : BitVec 24 := 4096
  sampEnable : Bool := false
  /-- cycle of the next samples (R436) -/
  sampAt : Nat := 0
  sampRead : BitVec 16 := 0
  trcAsid : BitVec 16 := 0
  trcAll : Bool := false
  trcKinds : BitVec 4 := 15
  trcStall : Bool := false
  trcEnable : Bool := false
  dies : FMap TraceDie := []
  deriving DecidableEq, Repr

/-- A launch window (R450). -/
structure Window where
  header : W64 := 0
  launch : W64 := 0
  params : FMap W64 := []
  busy : Bool := false
  result : BitVec 2 := 0
  /-- header, launch word and parameters as the doorbell found them, while busy (R451) -/
  rung : W64 × W64 × FMap W64 := (0, 0, [])
  /-- the 64 bytes of a header in a peer window, once they have come, or none where they were refused (R173, R451) -/
  header64 : Option (Option Nat) := none
  deriving DecidableEq, Repr

/-- Host, management, security, power (R446 to R460). -/
structure HostIf where
  windows : FMap Window := []
  /-- MSI-X (R447): function mask, vectors whose mask bit is clear (the bit is set at reset, log 21), pending bits -/
  maskAll : Bool := false
  unmasked : FMap Bool := []
  pendingV : FMap Bool := []
  farwin : BitVec 13 := 0
  semOwner : BitVec 2 := 0
  /-- 1 + the cycle from which the link of a management port has been down, 0 while it is up (R452) -/
  mgmtDown : FMap Nat := []
  straps : W64 := 0
  rststat : W64 := 5
  /-- key slots (R330), all empty after bring-up step 3 -/
  keys : FMap (Option (BitVec 512)) := []
  keyErr : Bool := false
  keySlot : BitVec 13 := 0
  /-- KEYDATA words 0 to 7 -/
  keydata : FMap W64 := []
  eccCorrected : W32 := 0
  eccUncorrected : W32 := 0
  powerCap : BitVec 14 := 4800
  clockState : BitVec 2 := 0
  /-- state set by software, which throttling never raises (R459, R460) -/
  clockSet : BitVec 2 := 0
  throttled : Bool := false
  trip : W8 := 110
  throttle : W8 := 100
  temp : W8 := 0
  /-- frozen (R443); power removed from every die but quay die 0 (R460) -/
  frozen : Bool := false
  powerOff : Bool := false
  rollback : W64 := 0
  fwVersion : W64 := 0
  fwDigest : BitVec 512 := 0
  /-- boundary-scan register and the pins it drives (R444) -/
  boundary : List Bool := []
  pins : List Bool := []
  jtagIR : W8 := 0xFF
  deriving DecidableEq, Repr

/-- Device registers of the control window that are stored whole or by field (R221 to R425). -/
structure Ctrl where
  dswapEnable : Bool := true
  dswapCycles : W32 := 65536
  mcfgShare : BitVec 2 := 0
  /-- whether a context was created since reset: MCFG is then read-only (R269) -/
  mcfgFixed : Bool := false
  wcbAge : BitVec 20 := 4096
  engLimit : BitVec 16 := 20
  vlogRead : BitVec 10 := 0
  vlogLost : BitVec 16 := 0
  vlogBase : BitVec 17 := 0
  vlogNext : BitVec 10 := 0
  fqCounter : BitVec 12 := 0
  fqValid : Bool := false
  fqBase : BitVec 15 := 0
  ueptBase : BitVec 11 := 0
  ueptValid : Bool := false
  lossto : BitVec 24 := 16384
  errthr : BitVec 8 := 16
  arity : BitVec 4 := 4
  window : BitVec 12 := 256
  minw : BitVec 2 := 0
  stale : BitVec 24 := 0
  tideAsid : BitVec 16 := 0
  leader : Bool := false
  tideEnable : Bool := false
  lead : W8 := 0
  beat : BitVec 16 := 64
  late : BitVec 16 := 512
  absent : BitVec 16 := 0x4000
  patAsid : BitVec 16 := 0
  upv : Bool := false
  upmod : BitVec 10 := 0
  ssize : BitVec 4 := 0
  credit : W8 := 0
  patEnable : Bool := false
  patstash : W64 := 0
  deriving DecidableEq, Repr

/-- Tide state beside the entries (R364). -/
structure Tide where
  entries : FMap TideEntry := []
  /-- the device step D -/
  step : W32 := 0
  lastBeat : Nat := 0
  /-- a rise of D not yet beaconed, and model: how often D has risen (R364, R421) -/
  due : Bool := false
  rises : Nat := 0
  /-- pending verdict of the group's context by ASID: undecided? (R382) -/
  verdicts : List (BitVec 16 × Bool) := []
  deriving DecidableEq, Repr

/-- What the model keeps of a saved context beside the bytes of its image and of its teams' records, whose layout R347 and R349 do not
give (log 18): teams by key, tasks in receipt order, graph instances, launches by key in queue order with their queue relative to the
grant, wide barriers with their parties, and the next launch number (R314, R347). Device counters are relative to the grant. -/
structure Image where
  asid : BitVec 16 := 0
  teams : List (Nat × Team) := []
  tasks : List Task := []
  instances : List Instance := []
  launches : List (Nat × Launch) := []
  wide : FMap Barrier := []
  nextLaunch : W32 := 0
  /-- near extents (NPA, length) of the backing of its teams' return stacks, as its tables mapped them (R257) -/
  hidden : List (Nat × Nat) := []
  deriving DecidableEq, Repr

/-- A far-memory byte with the key it was written under: 1 + identifier + 8,192 × the key in its slot; 0 for a byte never
written (R270, R330). -/
structure FarByte where
  byte : W8 := 0
  key : Nat := 0
  deriving DecidableEq, Repr

/-- A cached translation (R328): the leaf that a walk found. -/
structure Cached where
  asid : BitVec 16
  page : Nat
  bytes : Nat
  leaf : W64
  deriving DecidableEq, Repr

/-- The party that issues, the lanes it issues for, and the order in which lanes of one word are served where the manual
leaves that order open (R99, R106, R113): the model's own fields. -/
structure Issue where
  team : Nat := 0
  party : Nat := 0
  lanes : List Nat := []
  serve : List Nat := []
  /-- the word has trapped in some lane (R332) -/
  trapped : Bool := false
  /-- how many units a long word performs at most in this turn (R157); none: all of them -/
  units : Option Nat := none
  deriving DecidableEq, Repr

/-- What reaches the module from outside by no row of the opcode table (model). -/
inductive Outside where
  /-- a corrected soft error (R351, R458) -/
  | softError
  /-- an uncorrectable error in a unit of near (2k) or far memory (2k + 1), in a register, a cached return stack, a tile or a weight
  bank (R351) -/
  | upset (unit : Nat)
  | upsetReg (team party lane : Nat) (r : RegRef)
  | upsetStack (team party lane : Nat)
  | upsetTile (team tile : Nat)
  | upsetBank (team party : Nat) (one : Bool)
  /-- the PCIe function mask, or a vector's mask bit, is set or cleared (R447) -/
  | msixMaskAll (on : Bool)
  | msixMask (vector : Nat)
  /-- the link of a management port goes down or comes up (R452) -/
  | mgmtLink (port : Nat) (up : Bool)
  /-- firmware raises the rollback counter (R455) -/
  | rollback (v : W64)
  /-- a recovery image over PCIe (R453, R454) -/
  | recovery (f : Firmware)
  /-- the hottest die's temperature (R460) -/
  | temperature (t : W8)
  /-- a message or bulk unit of another module, with its end-to-end number and the event of its delivery (R423) -/
  | unit (module number : Nat) (i : Instr)
  /-- n bytes of another module's checkpoint stream for an address in this module's memory, with their number (R384, R423) -/
  | stream (module number : Nat) (asid : BitVec 16) (addr n value : Nat)
  deriving DecidableEq, Repr

/-- Whose turn is next (model): a machine event, what comes from outside, or an issue by the port of a party with an order of service;
`same` when it falls in the cycle of the turn before, where the order of that cycle allows it. -/
inductive Turn where
  | event (i : Instr)
  | outside (o : Outside)
  | issue (team party : Nat) (serve : List Nat) (same : Bool)
  deriving DecidableEq, Repr

/-- What has happened in the running cycle (model): the place of the last ordered turn in the order that the manual gives to what
meets in one cycle (R301, R308, R317, R385, R403), the dies that have placed a team (R216), and the teams that have left their
cores, whose resources are free from the next cycle (R214). -/
structure Cycle where
  rank : Nat := 0
  core : Nat := 0
  party : Nat := 0
  placed : List Nat := []
  left : List Team := []
  /-- chunks closed: handle and chunk (R374); parties that have issued: team and party (R206) -/
  closed : List (Nat × Nat) := []
  issued : List (Nat × Nat) := []
  /-- ASID and address of each `resume` (R190); port 2 has taken MGMTSEM (R452) -/
  resumed : List (BitVec 16 × Nat) := []
  semTaken : Bool := false
  deriving DecidableEq, Repr

/-- One PL-VL8 module. -/
structure State where
  /-- model: who issues -/
  cur : Issue := {}
  /-- model: whose turns come next; timing-dependent choices (R11) as data -/
  agenda : List Turn := []
  /-- model: what has happened in this cycle -/
  cyc : Cycle := {}
  /-- model: the free-value counter -/
  free : Nat := 0
  /-- sr.cycle of each die (R132), 0 at die reset -/
  cycles : FMap W64 := []
  /-- model: cycles since reset, which every interval of the device is measured in -/
  now : Nat := 0
  /-- near memory by NPA (R268): written to zero at bring-up step 3 (R454) -/
  near : Mem := []
  /-- far memory by FPA (R268) -/
  far : FMap FarByte := []
  /-- key tag of the zero bytes that an opened versioned frame left unlisted, by FPA / 2 MiB; 0 where none (R270, R292) -/
  farZero : FMap Nat := []
  /-- units in uncorrectable error: near 8-byte words (2k), far 64-byte lines (2k + 1) (R351) -/
  bad : List Nat := []
  tlb : List Cached := []
  /-- instruction caches: ASID, address / 64, and the 16 words of the fetch block (R167, R298) -/
  icache : List (Nat × Nat × List W32) := []
  ctxs : FMap Ctx := []
  teams : FMap Team := []
  disp : Disp := {}
  cores : FMap Core := []
  counters : FMap Counter := []
  /-- task entries in receipt order (R307, R308) -/
  tasks : List Task := []
  instances : List Instance := []
  /-- model: next submission number of graph instances -/
  nextInst : Nat := 0
  tags : List TagRecord := []
  /-- NPAs of the rings of which a frame has been opened (R465) -/
  rings : List Nat := []
  /-- frames that `step.pub` publishes once their last access is performed: ring and step (R293) -/
  publishing : List (Nat × W32) := []
  colls : FMap Coll := []
  ckpts : FMap Ckpt := []
  tide : Tide := {}
  pat : Pattern := {}
  fq : FaultQ := {}
  fab : Fabric := {}
  dbg : Debug := {}
  host : HostIf := {}
  ctrl : Ctrl := {}
  /-- what belongs to the image that bears a serial number, beside its bytes (R314, R347, R349) -/
  images : FMap Image := []
  /-- model: what has left the module, newest first -/
  out : List Packet := []
  deriving DecidableEq, Repr

/-- The module at the end of bring-up (R454 step 5): every register at its reset value, every SRAM zero, every key slot
empty, no context, ready. STRAPS is what the pins gave; the model takes zero (log 2). -/
def State.reset : State := {}

end Sys2Proof.Machine
end

