-- ==== Sys2Proof/Machine/Device.lean ====
section
/-! DEFINITION. What every part of the device reports through: packets, MSI-X vectors (R447), the violation log (R333),
the fault queue (R334, R335), error counts (R458), dependence-counter values (R168), and the physical memories with their
uncorrectable units (R351). -/

namespace Sys2Proof.Machine

open Sys2Proof

/-- A packet leaves the module. -/
def State.send (s : State) (p : Packet) : State := { s with out := p :: s.out }

/-- Several packets leave in order. -/
def State.sendAll (s : State) (ps : List Packet) : State := ps.foldl State.send s

/-- Raises an MSI-X vector, none before bring-up step 5: a masked one becomes pending (R447). -/
def State.raiseVector (s : State) (v : Nat) : State :=
  if s.host.rststat.toNat % 256 ≠ 5 then s
  else if s.host.maskAll || !FMap.get false s.host.unmasked v then
    { s with host := { s.host with pendingV := FMap.set false s.host.pendingV v true } }
  else s.send (.msix v)

/-- Adds n to a saturating count. -/
def satAdd (limit a n : Nat) : Nat := Nat.min limit (a + n)

/-- sr.cycle of a die (R132). -/
def State.dieCycle (s : State) (die : Nat) : W64 := FMap.get 0 s.cycles die

/-- Die of a core (R132). -/
def dieOf (core : Nat) : Nat := if core < 1536 then core / 192 else (core - 1536) / 2

/-- Cluster of a core: 0 to 191 for compute clusters, 192 to 199 for the service clusters of the dies (R132). -/
def clusterOf (core : Nat) : Nat := if core < 1536 then core / 8 else 192 + (core - 1536) / 2

/-- Twin of a core; the two service cores of a die count as one (R132, R217). -/
def twinOf (core : Nat) : Nat := core / 2

/-- Cores of the module: 1,536 compute cores and 16 service cores (R1, R132). -/
def coreCount : Nat := 1552

/-- Module number in the pod and pod number from STRAPS (R453). -/
def State.module (s : State) : Nat := s.host.straps.toNat % 1024
/-- Pod number (R453). -/
def State.pod (s : State) : Nat := s.host.straps.toNat / 1024 % 64

/-! ### Physical memory -/

/-- Where a byte lies once its address is resolved. -/
inductive Place where
  /-- near memory at an NPA -/
  | near (a : Nat)
  /-- far memory at an FPA under a key identifier -/
  | far (a key : Nat)
  /-- a versioned page with no published frame, which reads zero (R294) -/
  | zeros
  deriving DecidableEq, Repr

/-- The place n bytes further on. -/
def Place.add (p : Place) (n : Nat) : Place :=
  match p with
  | .near a => .near (a + n)
  | .far a k => .far (a + n) k
  | .zeros => .zeros

/-- What names key identifier k and the key that its slot holds (R270, R330). -/
def State.keyTag (s : State) (k : Nat) : Nat := 1 + k + 8192 * ((FMap.get none s.host.keys k).getD 0).toNat

/-- The far byte at an FPA with the tag it was written under; an unlisted byte of an opened versioned frame is a zero under the
frame's key (R292). -/
def State.farCell (s : State) (a : Nat) : FarByte :=
  let f : FarByte := FMap.get {} s.far a
  if f.key = 0 then { byte := 0, key := FMap.get 0 s.farZero (a / 2 ^ 21) } else f

/-- A far byte under key identifier k. Under another identifier it reads as something other than its plaintext (R270); under
another key of the same slot its value is left open (log 7). -/
def State.farByte (s : State) (k a : Nat) : W8 :=
  let f := s.farCell a
  if f.key = 0 ∨ f.key = s.keyTag k then f.byte
  else
    let m := Config.cipherMask (s.keyTag k) f.key a
    f.byte ^^^ (if m = 0 ∧ (f.key - 1) % 8192 ≠ k then 1 else m)

/-- n far bytes, little-endian. -/
def State.farRead (s : State) (k a : Nat) : Nat → Nat
  | 0 => 0
  | n + 1 => (s.farByte k a).toNat + 256 * s.farRead k (a + 1) n

/-- A far byte written under a key tag; a zero byte that its frame's tag already gives is not listed. -/
def farPut (zero : FMap Nat) (m : FMap FarByte) (tag a : Nat) (b : W8) : FMap FarByte :=
  if b = 0 ∧ FMap.get 0 zero (a / 2 ^ 21) = tag then FMap.drop m a else FMap.set {} m a { byte := b, key := tag }

/-- n far bytes written under a key tag. -/
def farWrite (zero : FMap Nat) (m : FMap FarByte) (tag a : Nat) : Nat → Nat → FMap FarByte
  | 0, _ => m
  | n + 1, v => farWrite zero (farPut zero m tag a (BitVec.ofNat 8 v)) tag (a + 1) n (v / 256)

/-- n bytes at a place. -/
def State.readPlace (s : State) (p : Place) (n : Nat) : Nat :=
  match p with
  | .near a => Mem.read s.near a n
  | .far a k => s.farRead k a n
  | .zeros => 0

/-- Whether n bytes at a place touch protected unit u of R351. -/
def Place.touches (p : Place) (n u : Nat) : Bool :=
  match p with
  | .near a => u % 2 == 0 && decide (a < 4 * u + 8) && decide (4 * u < a + n)
  | .far a _ => u % 2 == 1 && decide (a < 64 * (u / 2) + 64) && decide (64 * (u / 2) < a + n)
  | .zeros => false

/-- Whether n bytes at a place lie in a unit with an uncorrectable error (R351). -/
def State.isBad (s : State) (p : Place) (n : Nat) : Bool := s.bad.any fun u => p.touches n u

/-- Whether a write of n bytes at a place covers unit u whole. -/
def Place.covers (p : Place) (n u : Nat) : Bool :=
  match p with
  | .near a => u % 2 == 0 && decide (a ≤ 4 * u) && decide (4 * u + 8 ≤ a + n)
  | .far a _ => u % 2 == 1 && decide (a ≤ 64 * (u / 2)) && decide (64 * (u / 2) + 64 ≤ a + n)
  | .zeros => false

/-- Units in error that a write of n bytes at a place covers whole are sound again (R351). -/
def State.mend (s : State) (p : Place) (n : Nat) : State := { s with bad := s.bad.filter fun u => !p.covers n u }

/-- Writes the n low bytes of v at a place; a unit in error that the write covers whole is sound again (R351). -/
def State.writePlace (s : State) (p : Place) (n v : Nat) : State :=
  let s := s.mend p n
  match p with
  | .near a => { s with near := Mem.write s.near a n v }
  | .far a k => { s with far := farWrite s.farZero s.far (s.keyTag k) a n v }
  | .zeros => s

/-- The listed bytes of a 2 MiB frame by offset, as plaintext. -/
def State.frameBytes (s : State) (p : Place) : List (Nat × W8) :=
  match p with
  | .near a => (FMap.slice s.near a (2 ^ 21)).map fun e => (e.1 - a, e.2)
  | .far a k => (FMap.slice s.far a (2 ^ 21)).map fun e => (e.1 - a, s.farByte k e.1)
  | .zeros => []

/-- Gives a 2 MiB frame the listed bytes, zero elsewhere (R292), every far byte under the frame's key (R270). -/
def State.setFrame (s : State) (p : Place) (bs : List (Nat × W8)) : State :=
  let s := s.mend p (2 ^ 21)
  match p with
  | .near a => { s with near := bs.foldl (fun m e => FMap.set 0 m (a + e.1) e.2) (FMap.clear s.near a (2 ^ 21)) }
  | .far a k =>
    let zero := FMap.set 0 s.farZero (a / 2 ^ 21) (s.keyTag k)
    { s with farZero := zero
             far := bs.foldl (fun m e => farPut zero m (s.keyTag k) (a + e.1) e.2) (FMap.clear s.far a (2 ^ 21)) }
  | .zeros => s

/-- Bytes written to near memory at an NPA by the device itself. -/
def State.nearWrite (s : State) (a n v : Nat) : State := s.writePlace (.near a) n v

/-! ### Reports -/

/-- Counts an uncorrectable error; vector 5 when the count, which saturates, increases (R447, R458). -/
def State.countUncorrected (s : State) : State :=
  if s.host.eccUncorrected.toNat = 2 ^ 32 - 1 then s
  else State.raiseVector { s with host := { s.host with eccUncorrected := s.host.eccUncorrected + 1 } } 5

/-- Bytes 8 to 15 of a violation-log entry (R333). -/
def violationWord (asid : BitVec 16) (detail access module core strand lane : Nat) (host : Bool) : Nat :=
  asid.toNat + 2 ^ 16 * (detail % 16) + 2 ^ 20 * (access % 4) + 2 ^ 22 * (module % 1024) + 2 ^ 32 * (core % 2048)
    + 2 ^ 43 * (strand % 64) + 2 ^ 49 * (lane % 64) + 2 ^ 55 * b2n host

/-- Writes a violation-log entry at index next; the oldest of 1,023 unread entries is overwritten (R333). -/
def State.logViolation (s : State) (addr word die : Nat) : State :=
  let c := s.ctrl
  let at_ := c.vlogBase.toNat * 2 ^ 15 + 32 * c.vlogNext.toNat
  let full := (c.vlogNext - c.vlogRead).toNat == 1023
  let s := s.nearWrite at_ 32 (addr % 2 ^ 64 + 2 ^ 64 * word + 2 ^ 128 * (s.dieCycle die).toNat)
  State.raiseVector { s with ctrl := { c with
    vlogNext := c.vlogNext + 1
    vlogRead := if full then c.vlogRead + 1 else c.vlogRead
    vlogLost := if full then BitVec.ofNat 16 (satAdd 65535 c.vlogLost.toNat 1) else c.vlogLost } } 1

/-- Whether R331 says that a detail is logged. -/
def loggedDetail (d : Nat) : Bool := d != 3 && d != 7 && d != 8 && d != 13 && d != 14

/-- A dependence counter (R168). -/
def State.counter (s : State) (i : Nat) : Counter := FMap.get {} s.counters i

/-- Writes a dependence counter. -/
def State.setCounter (s : State) (i : Nat) (c : Counter) : State := { s with counters := FMap.set {} s.counters i c }

/-- The first task linked to counter i (R310). -/
def firstLinked (ts : List Task) (i : Nat) : Option Task :=
  ts.find? fun t => t.state == .waiting && t.gate == some i

/-- A waiting task with no unsatisfied gate and no edge is ready (R307). -/
def Task.settle (now : Nat) (t : Task) : Task :=
  if t.state == .waiting && t.gate == none && t.edges.isEmpty then { t with state := .ready, readyAt := now } else t

/-- Every gate linked to a counter that reads zero is satisfied, the next linked task being examined at once (R310). -/
def State.examineCounter (s : State) (i : Nat) : State :=
  if (s.counter i).value = 0 then
    { s with tasks := s.tasks.map fun t =>
        if t.state == .waiting && t.gate == some i then Task.settle s.now { t with gate := none } else t }
  else s

/-- `task.sig.add` on a device counter, modulo 2³² (R169). -/
def State.signalCounter (s : State) (i n : Nat) : State :=
  let c := s.counter i
  State.examineCounter (s.setCounter i { c with value := BitVec.ofNat 32 (c.value.toNat + n) }) i

/-- A job's or retirement's decrement: at 0 the value stays and the under bit is set (R168). -/
def State.decCounter (s : State) (i : Nat) : State :=
  let c := s.counter i
  if c.value = 0 then s.setCounter i { c with under := true }
  else State.examineCounter (s.setCounter i { c with value := c.value - 1 }) i

/-- A job that ends in an access violation sets its counter's fault bit and records the address (R168, R169). -/
def State.faultCounter (s : State) (i : Nat) (addr : W64) : State :=
  let c := s.counter i
  if c.fault then s else s.setCounter i { c with fault := true, failAddr := addr }

/-- Writes one record at the tail of the fault queue's ring, raises vector 0 and signals the counter (R335). -/
def State.placeFaultRecord (s : State) (r : BitVec 256) : State :=
  let q := s.fq
  let at_ := s.ctrl.fqBase.toNat * 2 ^ 17 + 32 * ((q.first + q.count) % 4096)
  let s := s.nearWrite at_ 32 r.toNat
  let s := { s with fq := { q with count := q.count + 1, peak := Nat.max q.peak (q.count + 1) } }
  let s := s.raiseVector 0
  if s.ctrl.fqValid then s.signalCounter s.ctrl.fqCounter.toNat 1 else s

/-- A fault record is formed: written, or held while the queue is full (R335). -/
def State.pushFaultRecord (s : State) (r : BitVec 256) : State :=
  if s.fq.count < 4096 then s.placeFaultRecord r
  else
    let s' := { s with fq := { s.fq with held := s.fq.held ++ [r] } }
    if s.fq.held.isEmpty then s'.raiseVector 2 else s'

/-- The fields of a fault record (R334). -/
def faultRecord (mask whereV : W64) (lane strand core type access party : Nat) (asid : BitVec 16) (addr : W64) : BitVec 256 :=
  BitVec.ofNat 256 (addr.toNat + 2 ^ 64 * asid.toNat + 2 ^ 83 * (party % 8) + 2 ^ 86 * (access % 4) + 2 ^ 88 * (type % 8)
    + 2 ^ 91 * (core % 2048) + 2 ^ 102 * (strand % 64) + 2 ^ 108 * (lane % 64) + 2 ^ 128 * whereV.toNat + 2 ^ 192 * mask.toNat)

/-- Where the oldest fault record lies (R335). -/
def State.oldestRecord (s : State) : Nat := s.ctrl.fqBase.toNat * 2 ^ 17 + 32 * s.fq.first

/-- Pops the oldest record and places the oldest held one in the space it leaves (R188, R335). -/
def State.popFaultRecord (s : State) : Option (Nat × State) :=
  if s.fq.count = 0 then none
  else
    let v := Mem.read s.near s.oldestRecord 32
    let s := { s with fq := { s.fq with first := (s.fq.first + 1) % 4096, count := s.fq.count - 1 } }
    match s.fq.held with
    | [] => some (v, s)
    | r :: rest => some (v, State.placeFaultRecord { s with fq := { s.fq with held := rest } } r)

end Sys2Proof.Machine
end

