-- ==== Sys2Proof/Machine/Space.lean ====
section
/-! DEFINITION. Where an address leads: address classes (R265 to R267), the page-table walk and its caches (R324 to R328),
access rights (R326), physical limits (R268, R269), and versioned pages (R290 to R295, R327, R465). -/

namespace Sys2Proof.Machine

open Sys2Proof

/-- Kinds of access, in the numbering of R333. -/
inductive Acc where
  | read | write | atomic | fetch
  deriving DecidableEq, Repr

/-- Number of an access kind (R333). -/
def Acc.code : Acc → Nat
  | .read => 0 | .write => 1 | .atomic => 2 | .fetch => 3

/-- Why an access does not reach its bytes. -/
inductive Miss where
  /-- no translation: the party parks (R100) -/
  | absent
  /-- an access violation with a detail of R331 -/
  | bad (detail : Nat)
  /-- no free or recyclable frame: the party parks with no record (R292) -/
  | frame
  /-- no acceptable version (R104) -/
  | version
  deriving DecidableEq, Repr

/-- Where an address leads before any version is resolved. -/
inductive Loc where
  /-- local memory of the team at a window offset (R266) -/
  | here (off : Nat)
  /-- target address A[45:0] at a module of the pod (R267) -/
  | peer (module addr : Nat)
  | phys (p : Place)
  /-- a versioned page: the NPA of its ring and the offset in the page (R327) -/
  | ring (npa off : Nat)
  deriving DecidableEq, Repr

/-! ### Page tables -/

/-- Physical address bits [47:8] of an entry, with [7:0] zero (R325). -/
def pteAddr (e : Nat) : Nat := e / 2 ^ 24 * 2 ^ 8

/-- Bytes that a leaf size code maps (R325). -/
def leafBytes (size : Nat) : Nat := if size = 0 then 2 ^ 16 else if size = 1 then 2 ^ 21 else 2 ^ 30

/-- A leaf or versioned leaf that its own fields allow (R325). -/
def leafOk (e : Nat) : Bool :=
  let kind := e % 4
  let size := bits e 7 6
  (kind == 2 || (kind == 3 && size == 1 && bit e 5)) && size != 3 && bits e 23 21 == 0
    && (kind == 3 || pteAddr e % leafBytes size == 0)
    && (bits e 20 8 == 0 || (kind == 2 && !bit e 5))

/-- A table entry that its own fields allow, for a table of the given alignment (R325). -/
def tableOk (e align : Nat) : Bool :=
  e % 4 == 1 && bits e 7 6 == 0 && bits e 20 8 == 0 && bits e 23 21 == 0 && pteAddr e % align == 0

/-- Implemented physical addresses: near memory outside the far-memory cache share, or far memory (R268, R269). -/
def State.physCheck (s : State) (near : Bool) (a : Nat) : Option Nat :=
  if near then
    if a ≥ 3 * 2 ^ 30 then some 2
    else if a % 2 ^ 21 ≥ 2 ^ 21 - s.ctrl.mcfgShare.toNat * 2 ^ 19 then some 10 else none
  else if a ≥ 3 * 2 ^ 39 then some 2 else none

/-- Whether a key slot holds a key (R330). -/
def State.hasKey (s : State) (k : Nat) : Bool := (FMap.get none s.host.keys k).isSome

/-- An 8-byte physical load of the walker; far tables are read under key identifier 0 (R326, R351). -/
def State.readTable (s : State) (near : Bool) (a : Nat) : Except Miss Nat :=
  match s.physCheck near a with
  | some d => .error (.bad d)
  | none =>
    if !near && !s.hasKey 0 then .error (.bad 11)
    else
      let p := if near then Place.near a else Place.far a 0
      if s.isBad p 8 then .error (.bad 4) else .ok (s.readPlace p 8)

/-- An absent entry with nonzero reserved bits or a nonzero key, which ends a walk with detail 12 (R325). -/
def absentBad (e : Nat) : Bool := e % 4 == 0 && (bits e 23 21 != 0 || bits e 20 8 != 0)

/-- Lowest index bit of the level that has k levels from it to the last, and the alignment of its table (R324). -/
def levelShift : Nat → Nat
  | 5 => 48 | 4 => 39 | 3 => 30 | 2 => 21 | _ => 16

/-- Number of index values of that level (R324). -/
def levelSize (k : Nat) : Nat := if k ≤ 1 then 32 else 512

/-- The walk through k remaining levels from a table entry: the leaf found and the bytes it maps (R324). -/
def State.walkFrom (s : State) (va : Nat) : Nat → Nat → Except Miss (Nat × Nat)
  | 0, _ => .error (.bad 12)
  | k + 1, t =>
    if !tableOk t (8 * levelSize (k + 1)) then .error (.bad 12)
    else
      match s.readTable (bit t 5) (pteAddr t + 8 * (va / 2 ^ levelShift (k + 1) % levelSize (k + 1))) with
      | .error m => .error m
      | .ok e =>
        if absentBad e then .error (.bad 12)
        else if e % 4 = 0 then .error .absent
        else if e % 4 = 1 then s.walkFrom va k e
        else if leafOk e && (k + 1 ≤ 3 : Bool) && bits e 7 6 == k then .ok (e, 2 ^ levelShift (k + 1))
        else .error (.bad 12)

/-- The NPA or FPA at which `map` and `unmap` find the entry of a page of the given size, with its memory; none when an
intermediate table is missing (R188, R326). -/
def State.entryPlace (s : State) (va stop : Nat) : Nat → Nat → Option Place
  | 0, _ => none
  | k + 1, t =>
    if !tableOk t (8 * levelSize (k + 1)) then none
    else
      let a := pteAddr t + 8 * (va / 2 ^ levelShift (k + 1) % levelSize (k + 1))
      if k = stop then some (if bit t 5 then .near a else .far a 0)
      else
        match s.readTable (bit t 5) a with
        | .error _ => none
        | .ok e => if e % 4 = 1 then s.entryPlace va stop k e else none

/-- The context in a slot (R347). -/
def State.ctx (s : State) (slot : Nat) : Ctx := FMap.get {} s.ctxs slot

/-- Writes a context slot. -/
def State.setCtx (s : State) (slot : Nat) (c : Ctx) : State := { s with ctxs := FMap.set {} s.ctxs slot c }

/-- The slot of the resident context with an ASID (R329). -/
def State.slotOf (s : State) (asid : BitVec 16) : Option Nat :=
  (s.ctxs.find? fun p => p.2.resident && p.2.asid == asid).map (·.1)

/-- Whether a cached translation covers an address (R328). -/
def Cached.covers (c : Cached) (asid : BitVec 16) (va : Nat) : Bool :=
  c.asid == asid && decide (c.page ≤ va) && decide (va < c.page + c.bytes)

/-- What a walk through memory finds for an address of the context in a slot (R324). -/
def State.walk (s : State) (slot va : Nat) : Except Miss (Nat × Nat) := s.walkFrom va 5 (s.ctx slot).root.toNat

/-- A cached translation as a walk would give it. -/
def Cached.found (c : Cached) : Nat × Nat := (c.leaf.toNat, c.bytes)

/-- The walk found exactly a leaf. -/
def foundIs (w : Except Miss (Nat × Nat)) (q : Nat × Nat) : Bool := match w with | .ok p => p == q | .error _ => false

/-- A walk through memory, or a cached translation of the page that differs from it when the free choice takes that (R328). DESIGN
CHOICE: a walk takes no time, so none that began before a `map` still finds the page absent when its `resume` is performed (R352,
log 70). -/
def State.findLeaf (s : State) (slot va : Nat) : Except Miss (Nat × Nat) :=
  let w := s.walk slot va
  match s.tlb.find? fun e => e.covers (s.ctx slot).asid va && !foundIs w e.found with
  | none => w
  | some e => if Config.usesCached s.free then .ok e.found else w

/-! ### Address classes -/

/-- LW of a context (R266, R348). -/
def Ctx.localBase (c : Ctx) : Nat := bits c.control.toNat 55 30 * 2 ^ 30

/-- Whether an address lies in the local window (R265). -/
def inWindow (lw a : Nat) : Bool := decide (lw ≤ a) && decide (a < lw + 2 ^ 30)

/-! ### What walks leave cached (R328) -/

/-- Whether an address is translated, and neither in the window nor a peer's (R265). -/
def State.translated (s : State) (slot va : Nat) : Bool :=
  decide (va < 2 ^ 57) && !inWindow (s.ctx slot).localBase va && va / 2 ^ 56 != 1

/-- The translations that a walk of an address leaves cached: its leaf if it finds one, and every present entry of a level-4 table
that it reads, whatever it ends in (R328). -/
def State.walked (s : State) (slot va : Nat) : List Cached :=
  let entry := fun (a leaf n : Nat) => ({ asid := (s.ctx slot).asid, page := a / n * n, bytes := n, leaf := w64 leaf } : Cached)
  let small := (List.range 32).filterMap fun i =>
    let a := va / 2 ^ 21 * 2 ^ 21 + 2 ^ 16 * i
    match s.walk slot a with
    | .ok (leaf, 65536) => some (entry a leaf (2 ^ 16))
    | _ => none
  match s.walk slot va with
  | .ok (leaf, n) => if n = 2 ^ 16 then small else [entry va leaf n]
  | .error _ => small

/-- Keeps the translations of the walk that an access made (R328). -/
def State.keepLeaf (s : State) (slot va : Nat) : State :=
  let found := match s.walk slot va with
    | .ok (leaf, n) => s.tlb.contains { asid := (s.ctx slot).asid, page := va / n * n, bytes := n, leaf := w64 leaf }
    | .error _ => false
  if found || !s.translated slot va then s
  else { s with tlb := ((s.walked slot va).filter fun e => !s.tlb.contains e) ++ s.tlb }

/-- Removes cached translations that touch n bytes from a page address (R188). -/
def State.dropLeaves (s : State) (asid : BitVec 16) (page n : Nat) : State :=
  { s with tlb := s.tlb.filter fun e => !(e.asid == asid && decide (e.page < page + n) && decide (page < e.page + e.bytes)) }

/-! ### Access rights -/

/-- Whether a leaf permits an access (R326). -/
def permits (acc : Acc) (leaf : Nat) : Bool :=
  match acc with
  | .read => bit leaf 2
  | .write => bit leaf 3
  | .atomic => bit leaf 2 && bit leaf 3
  | .fetch => bit leaf 4

/-- A leaf used for an address: rights, then physical limits and the key slot (R269, R326, R330). -/
def State.useLeaf (s : State) (acc : Acc) (leaf bytes va : Nat) : Except Miss Loc :=
  if !permits acc leaf then .error (.bad 1)
  else if leaf % 4 = 3 then
    match s.physCheck true (pteAddr leaf) with
    | some d => .error (.bad d)
    | none => .ok (.ring (pteAddr leaf) (va % bytes))
  else
    let a := pteAddr leaf + va % bytes
    match s.physCheck (bit leaf 5) a with
    | some d => .error (.bad d)
    | none =>
      if bit leaf 5 then .ok (.phys (.near a))
      else if s.hasKey (bits leaf 20 8) then .ok (.phys (.far a (bits leaf 20 8))) else .error (.bad 11)

/-- Where n bytes at address va lead for a party of the context in a slot whose team has `alloc` bytes of local memory
(R265 to R267, R324 to R326). -/
def State.locate (s : State) (slot alloc : Nat) (acc : Acc) (va n : Nat) : Except Miss Loc :=
  let lw := (s.ctx slot).localBase
  if va ≥ 2 ^ 57 then .error (.bad 2)
  else if inWindow lw va then
    if va - lw + n ≤ alloc then .ok (.here (va - lw)) else .error (.bad 3)
  else if va / 2 ^ 56 = 1 then .ok (.peer (va / 2 ^ 46 % 1024) (va % 2 ^ 46))
  else
    match s.findLeaf slot va with
    | .error m => .error m
    | .ok (leaf, bytes) => s.useLeaf acc leaf bytes va

/-! ### Versioned pages -/

/-- State code of a frame: 0 free, 1 open, 2 + p published with p pins. -/
structure Frame where
  index : Nat
  step : Nat
  code : Nat
  deriving DecidableEq, Repr

/-- Frames of the ring: K of R327. -/
def State.ringCount (s : State) (npa : Nat) : Nat := 2 ^ (1 + Mem.read s.near npa 8 % 4)

/-- Frame f of a ring. Model's layout of bytes 8 to 63: six bytes a frame (log 13). -/
def State.frame (s : State) (npa f : Nat) : Frame :=
  { index := f, step := Mem.read s.near (npa + 8 + 6 * f) 4, code := Mem.read s.near (npa + 12 + 6 * f) 2 }

/-- All frames of a ring. -/
def State.frames (s : State) (npa : Nat) : List Frame := (List.range (s.ringCount npa)).map (s.frame npa)

/-- Writes a frame's state. -/
def State.putFrame (s : State) (npa : Nat) (f : Frame) : State :=
  (s.nearWrite (npa + 8 + 6 * f.index) 4 f.step).nearWrite (npa + 12 + 6 * f.index) 2 f.code

/-- The owner's ASID, when a frame was opened since the record was zeroed (R465). -/
def State.ringOwner (s : State) (npa : Nat) : Option (BitVec 16) :=
  if Mem.read s.near (npa + 58) 1 = 0 then none else some (BitVec.ofNat 16 (Mem.read s.near (npa + 56) 2))

/-- Why a ring record cannot be used: its header or frame state is in uncorrectable error (R351), or its first eight bytes break
R327. -/
def State.ringFault (s : State) (npa : Nat) : Option Nat :=
  if s.isBad (.near npa) 64 then some 4 else if Mem.read s.near npa 8 < 3 then none else some 12

/-- The record's header can be read and follows R327. -/
def State.ringOk (s : State) (npa : Nat) : Bool := (s.ringFault npa).isNone

/-- A frame entry that R327 allows: a leaf of kind 2 and size 1. -/
def frameEntryOk (e : Nat) : Bool := leafOk e && e % 4 == 2 && bits e 7 6 == 1

/-- Where byte `off` of frame f lies (R327, R330). -/
def State.framePlace (s : State) (npa f off : Nat) : Except Miss Place :=
  let e := Mem.read s.near (npa + 64 + 8 * f) 8
  match s.ringFault npa with
  | some d => .error (.bad d)
  | none =>
    if s.isBad (.near (npa + 64 + 8 * f)) 8 then .error (.bad 4)
    else if !frameEntryOk e then .error (.bad 12)
    else match s.physCheck (bit e 5) (pteAddr e + off) with
    | some d => .error (.bad d)
    | none =>
      if bit e 5 then .ok (.near (pteAddr e + off))
      else if s.hasKey (bits e 20 8) then .ok (.far (pteAddr e + off) (bits e 20 8)) else .error (.bad 11)

/-- The frame of the greatest step among those given. -/
def newestOf (fs : List Frame) : Option Frame :=
  fs.foldl (fun b f => match b with | none => some f | some g => if g.step < f.step then some f else some g) none

/-- Published frames, pinned or not (R290). -/
def State.published (s : State) (npa : Nat) : List Frame := (s.frames npa).filter fun f => decide (2 ≤ f.code)

/-- Live teams of the context with an ASID, placed or saved (R295). DESIGN CHOICE: those of a context that `ctx.save` has saved are on the
device no more, though a team that is saved on it counts (log 84). -/
def State.teamsOf (s : State) (asid : BitVec 16) : List Team :=
  (s.teams.map (·.2)).filter fun t => t.live && t.asid == asid

/-- Tmin of R295 for a ring's owner; none when it has no bound. Teams of a context that `ctx.save` has saved do not count (log 84). -/
def State.tmin (s : State) (npa : Nat) : Option Nat :=
  match s.ringOwner npa with
  | none => none
  | some a => (s.teamsOf a).foldl
      (fun b t => match b with | none => some t.step.toNat | some m => some (Nat.min m t.step.toNat)) none

/-- Frames that may be recycled: published, unpinned, and older than a published frame not above Tmin (R295). -/
def State.recyclable (s : State) (npa : Nat) : List Frame :=
  let pub := s.published npa
  pub.filter fun f => f.code == 2 && pub.any fun g =>
    decide (f.step < g.step) && (match s.tmin npa with | none => true | some m => decide (g.step ≤ m))

/-- The oldest frame of a list. -/
def oldestOf (fs : List Frame) : Option Frame :=
  fs.foldl (fun b f => match b with | none => some f | some g => if f.step < g.step then some f else some g) none

/-- The frame that `ver.open` or a first write takes: a free one, else the oldest recyclable (R292). -/
def State.frameToOpen (s : State) (npa : Nat) : Option Frame :=
  match (s.frames npa).find? fun f => f.code == 0 with
  | some f => some f
  | none => oldestOf (s.recyclable npa)

/-- The near address of entry e of lane l of strand k in the backing of its team's return stacks, as the tables map it (R257; the
order within the reservation is the model's, log 15). -/
def State.backingAt (s : State) (T : Team) (k l e : Nat) : Nat :=
  ((s.ctx T.slot).stackbase.toNat + T.stackAt + k * T.hdr.stack + 8 * (l * (T.hdr.stack / (8 * T.hdr.width)) + e)) % 2 ^ 64

/-- Near extents (NPA, length) to which the tables of the context in a slot map n bytes from a virtual address, by granules of 64 KiB. -/
def State.nearExtents (s : State) (slot va n : Nat) : List (Nat × Nat) :=
  (List.range ((va % 2 ^ 16 + n + (2 ^ 16 - 1)) / 2 ^ 16)).filterMap fun i =>
    let lo := Nat.max va ((va / 2 ^ 16 + i) * 2 ^ 16)
    match s.walk slot (lo % 2 ^ 64) with
    | .ok (leaf, m) =>
      if bit leaf 5 && leaf % 4 == 2 then some (pteAddr leaf + lo % m, Nat.min (va + n) ((va / 2 ^ 16 + i + 1) * 2 ^ 16) - lo) else none
    | .error _ => none

/-- Near extents of the bytes of the stack pool that the teams of the context in a slot have taken (R257). -/
def State.stackExtents (s : State) (slot : Nat) : List (Nat × Nat) :=
  s.teams.flatMap fun (t : Nat × Team) =>
    if t.2.live && t.2.slot == slot && t.2.hdr.stack != 0 then
      s.nearExtents slot ((s.ctx slot).stackbase.toNat + t.2.stackAt) (t.2.hdr.strands * t.2.hdr.stack)
    else []

/-- Near extents that back return stacks: of the resident contexts, and of those that `ctx.save` has saved (R257). -/
def State.backings (s : State) : List (Nat × Nat) :=
  (s.ctxs.flatMap fun (c : Nat × Ctx) => s.stackExtents c.1) ++ s.images.flatMap fun (i : Nat × Image) => i.2.hidden

/-- Byte i at a place backs a return stack: no program load or store reaches it (R257). -/
def hiddenAt (bs : List (Nat × Nat)) (p : Place) (i : Nat) : Bool :=
  match p with
  | .near a => bs.any fun b => decide (b.1 ≤ a + i) && decide (a + i < b.1 + b.2)
  | _ => false

/-- An extent shares a byte with n bytes at a place. -/
def Place.meets (p : Place) (n : Nat) (b : Nat × Nat) : Bool :=
  match p with
  | .near a => decide (b.1 < a + n) && decide (a < b.1 + b.2)
  | _ => false

/-- n bytes of v at a place with those that back a return stack replaced by what f gives (R257). -/
def State.veil (s : State) (p : Place) (n v : Nat) (f : Nat → W8) : Nat :=
  match s.backings.filter (p.meets n) with
  | [] => v
  | b :: bs => ofBytes ((List.range n).map fun i => if hiddenAt (b :: bs) p i then f i else BitVec.ofNat 8 (v / 2 ^ (8 * i)))

/-- Offsets of the bytes of a 2 MiB frame that back a return stack (R257). -/
def State.hiddenIn (s : State) (p : Place) : List Nat :=
  match s.backings.filter (p.meets (2 ^ 21)) with
  | [] => []
  | bs => (List.range (2 ^ 21)).filter (hiddenAt bs p)

/-- The listed bytes of a 2 MiB frame as a program reads them (R257, log 15). -/
def State.frameSeen (s : State) (p : Place) : List (Nat × W8) :=
  match s.hiddenIn p with
  | [] => s.frameBytes p
  | is => (s.frameBytes p).filter (fun e => !hiddenAt s.backings p e.1) ++ is.map fun i => (i, Config.hiddenByte s.free i)

/-- A program gives a 2 MiB frame the listed bytes, zero elsewhere; those that back a return stack keep their values (R257, R292). -/
def State.fillFrame (s : State) (p : Place) (bs : List (Nat × W8)) : State :=
  (s.hiddenIn p).foldl (fun (t : State) i => t.writePlace (p.add i) 1 (s.readPlace (p.add i) 1)) (s.setFrame p bs)

/-- Opens the frame of a step: it receives the newest published frame or zeros, and the ring its owner (R292, R465). -/
def State.openFrame (s : State) (asid : BitVec 16) (npa step : Nat) : Except Miss (State × Nat) :=
  match s.frameToOpen npa with
  | none => .error .frame
  | some f =>
    match s.framePlace npa f.index 0 with
    | .error m => .error m
    | .ok dst =>
      let bytes : Except Miss (List (Nat × W8)) :=
        match newestOf (s.published npa) with
        | none => .ok []
        | some g => match s.framePlace npa g.index 0 with
          | .error m => .error m
          | .ok src => if s.isBad src (2 ^ 21) then .error (.bad 4) else .ok (s.frameSeen src)
      match bytes with
      | .error m => .error m
      | .ok bs =>
        let s := s.fillFrame dst bs
        let s := if (s.ringOwner npa).isNone then
            (s.nearWrite (npa + 56) 2 asid.toNat).nearWrite (npa + 58) 1 1 else s
        let s := if s.rings.contains npa then s else { s with rings := s.rings ++ [npa] }
        .ok (s.putFrame npa { index := f.index, step := step, code := 1 }, f.index)

/-- The frame that a write of a team's step resolves, opened when it is absent (R291, R292, R465). -/
def State.writeFrame (s : State) (asid : BitVec 16) (npa step : Nat) : Except Miss (State × Nat) :=
  match s.ringFault npa with
  | some d => .error (.bad d)
  | none =>
  if (match s.ringOwner npa with | none => false | some o => o != asid) then .error (.bad 6)
  else
    match (s.frames npa).find? fun f => f.code != 0 && f.step == step with
    | none => s.openFrame asid npa step
    | some f => if f.code = 1 then .ok (s, f.index) else .error (.bad 6)

/-- Where a plain read of a versioned page lands: the newest published frame, or zeros (R294). -/
def State.readFrame (s : State) (npa off : Nat) : Except Miss Place :=
  match s.ringFault npa with
  | some d => .error (.bad d)
  | none => match newestOf (s.published npa) with
    | none => .ok .zeros
    | some f => s.framePlace npa f.index off

/-! ### Physical accesses of a located address -/

/-- n bytes at a place as a program reads them, or detail 4 (R351). DESIGN CHOICE: a byte that backs a return stack reads as a free
value (R257, log 15). -/
def State.fetchPlace (s : State) (p : Place) (n : Nat) : Except Miss Nat :=
  if s.isBad p n then .error (.bad 4) else .ok (s.veil p n (s.readPlace p n) (Config.hiddenByte s.free))

/-- A program's store of n bytes at a place: bytes that back a return stack keep their values (R257). -/
def State.storePlace (s : State) (p : Place) (n v : Nat) : State :=
  let old := s.readPlace p n
  s.writePlace p n (s.veil p n v fun i => BitVec.ofNat 8 (old / 2 ^ (8 * i)))

/-- n bytes read at a location that is not in a peer window. -/
def State.readLoc (s : State) (mem : Mem) (l : Loc) (n : Nat) : Except Miss Nat :=
  match l with
  | .here off => .ok (Mem.read mem off n)
  | .peer _ _ => .error (.bad 5)
  | .phys p => s.fetchPlace p n
  | .ring npa off => match s.readFrame npa off with
    | .error m => .error m
    | .ok p => s.fetchPlace p n

/-- The place that a write reaches, versioned pages resolved to the frame of a step (R291). -/
def State.writeTarget (s : State) (asid : BitVec 16) (step : Nat) (l : Loc) : Except Miss (State × Place) :=
  match l with
  | .here _ => .error (.bad 3)
  | .peer _ _ => .error (.bad 5)
  | .phys p => .ok (s, p)
  | .ring npa off => match s.writeFrame asid npa step with
    | .error m => .error m
    | .ok (s, f) => match s.framePlace npa f off with
      | .error m => .error m
      | .ok p => .ok (s, p)

end Sys2Proof.Machine
end

