-- ==== Sys2Proof/Machine/Ops.lean ====
section
/-! DEFINITION. The named operations on teams, parties, lanes and their registers; trace records (R439 to R441); taking a
trap, entering its handler and returning from it (R135, R187, R332, R338 to R342). -/

namespace Sys2Proof.Machine

open Sys2Proof

/-! ### Teams, parties, lanes -/

/-- Lane l of a party. -/
def Party.lane (p : Party) (l : Nat) : Lane := FMap.get {} p.lanes l
/-- Writes lane l. -/
def Party.setLane (p : Party) (l : Nat) (x : Lane) : Party := { p with lanes := FMap.set {} p.lanes l x }
/-- Each listed lane becomes what f makes of it. -/
def Party.mapLanes (p : Party) (ls : List Nat) (f : Nat → Lane → Lane) : Party :=
  { p with lanes := ls.foldl (fun m l => FMap.set {} m l (f l (p.lane l))) p.lanes }
/-- Numbers of the lanes that have not exited, ascending (R200). -/
def Party.active (p : Party) : List Nat := (p.lanes.filter fun x => !x.2.exited).map (·.1)
/-- Party k of a team. -/
def Team.party (t : Team) (k : Nat) : Party := FMap.get {} t.parties k
/-- Writes party k. -/
def Team.setParty (t : Team) (k : Nat) (p : Party) : Team := { t with parties := FMap.set {} t.parties k p }
/-- Team t. -/
def State.team (s : State) (t : Nat) : Team := FMap.get {} s.teams t
/-- Writes team t. -/
def State.setTeam (s : State) (t : Nat) (x : Team) : State := { s with teams := FMap.set {} s.teams t x }
/-- Party k of team t. -/
def State.party (s : State) (t k : Nat) : Party := (s.team t).party k
/-- Writes party k of team t. -/
def State.setParty (s : State) (t k : Nat) (p : Party) : State := s.setTeam t ((s.team t).setParty k p)
/-- Writes lane l of party k of team t. -/
def State.setLane (s : State) (t k l : Nat) (x : Lane) : State := s.setParty t k ((s.party t k).setLane l x)

/-- The issuing team. -/
def State.curTeam (s : State) : Team := s.team s.cur.team
/-- The issuing party. -/
def State.curParty (s : State) : Party := s.party s.cur.team s.cur.party
/-- Writes the issuing team. -/
def State.setCurTeam (s : State) (t : Team) : State := s.setTeam s.cur.team t
/-- Writes the issuing party. -/
def State.setCurParty (s : State) (p : Party) : State := s.setParty s.cur.team s.cur.party p
/-- The context slot of the issuing team. -/
def State.curCtx (s : State) : Ctx := s.ctx s.curTeam.slot
/-- Each issuing lane becomes what f makes of it. -/
def State.mapLanes (s : State) (f : Nat → Lane → Lane) : State := s.setCurParty (s.curParty.mapLanes s.cur.lanes f)

/-- Strand or sequencer index of a party key (R132). -/
def partyIndex (k : Nat) : Nat := if k < 64 then k else k - 64
/-- The lowest issuing lane. -/
def State.firstLane (s : State) : Nat := s.cur.lanes.head?.getD 0

/-- The lane continues at an address, at no incomplete word. -/
def Lane.goTo (l : Lane) (pc : W64) : Lane := { l with
  pc := pc, wait := .none, marked := false, unit := 0, units := 0, tiles := [], staleCount := none, staleSince := none }
/-- The lane continues at the next word. -/
def Lane.next (l : Lane) : Lane := l.goTo (l.pc + 4)
/-- The lane waits at its word. -/
def Lane.hold (l : Lane) (w : Wait) : Lane := { l with wait := w, marked := false }
/-- The progress index that a strand or context reads: that of the incomplete word at which a lane of it stands (R132). -/
def Party.index (p : Party) : Nat := ((p.active.map fun l => (p.lane l).unit).find? (· != 0)).getD 0

/-- Every issuing lane continues at the next word. -/
def State.advance (s : State) : State := s.mapLanes fun _ l => l.next
/-- Every issuing lane waits at its word. -/
def State.hold (s : State) (w : Wait) : State := s.mapLanes fun _ l => l.hold w
/-- Every issuing lane continues at an address. -/
def State.jump (s : State) (pc : W64) : State := s.mapLanes fun _ l => l.goTo pc

/-! ### Registers (R23 to R26) and the old or new value of an undersized read (R209) -/

/-- A number for a register. -/
def regCode : RegRef → Nat
  | .v n => n | .s n => 128 + n | .c n => 192 + n

/-- The scoreboard entry of a register, if any (R212). -/
def Lane.pendOf (l : Lane) (r : RegRef) : Option Pend := l.pend.find? fun e => e.reg == r

/-- A read of the register now is undersized (R53, R120, R130). -/
def Pend.early (e : Pend) : Bool :=
  !e.full && !e.exported && (match e.latency with | none => true | some k => decide (e.elapsed < k))

/-- The old value that an undersized read takes, when it takes it (R209). -/
def Lane.stale (l : Lane) (free lane : Nat) (r : RegRef) : Option W64 :=
  match l.pendOf r with
  | none => none
  | some e => if e.early && !e.written && e.tag == 0 && Config.readsOld free lane (regCode r) then some e.old else none

/-- Lane register or temporary n as stored (R23). -/
def Lane.reg (l : Lane) (n : Nat) : W32 := if n < 120 then FMap.get 0 l.v n else FMap.get 0 l.t (n - 120)
/-- Writes lane register or temporary n. -/
def Lane.setReg (l : Lane) (n : Nat) (x : W32) : Lane :=
  if n < 120 then { l with v := FMap.set 0 l.v n x } else { l with t := FMap.set 0 l.t (n - 120) x }
/-- Flag cn as stored (R26). -/
def Lane.flag (l : Lane) (n : Nat) : Bool := l.c.getLsbD n
/-- Writes flag cn. -/
def Lane.setFlag (l : Lane) (n : Nat) (b : Bool) : Lane :=
  { l with c := if b then l.c ||| (1#4 <<< n) else l.c &&& ~~~(1#4 <<< n) }

/-- Lane register n as lane number `lane` reads it. -/
def Lane.rd (l : Lane) (free lane n : Nat) : W32 :=
  match l.stale free lane (.v n) with | some o => o.setWidth 32 | none => l.reg n
/-- The pair from register n (R25). -/
def Lane.rd64 (l : Lane) (free lane n : Nat) : W64 := l.rd free lane (n + 1) ++ l.rd free lane n
/-- Writes the pair from register n (R25). -/
def Lane.setReg64 (l : Lane) (n : Nat) (x : W64) : Lane :=
  (l.setReg n (x.setWidth 32)).setReg (n + 1) (x.extractLsb' 32 32)
/-- A group of k registers as one number, the lowest register lowest (R25). -/
def Lane.rdGroup (l : Lane) (free lane n : Nat) : Nat → Nat
  | 0 => 0
  | k + 1 => (l.rd free lane n).toNat + 2 ^ 32 * l.rdGroup free lane (n + 1) k
/-- Writes a group of k registers (R25). -/
def Lane.setGroup (l : Lane) (n : Nat) : Nat → Nat → Lane
  | 0, _ => l
  | k + 1, v => (l.setReg n (BitVec.ofNat 32 v)).setGroup (n + 1) k (v / 2 ^ 32)
/-- Flag cn as lane number `lane` reads it. -/
def Lane.rdFlag (l : Lane) (free lane n : Nat) : Bool :=
  match l.stale free lane (.c n) with | some o => o != 0 | none => l.flag n

/-- Uniform register n as stored (R24). -/
def Party.sreg (p : Party) (n : Nat) : W64 := FMap.get 0 p.s n
/-- Writes uniform register n. -/
def Party.setSreg (p : Party) (n : Nat) (x : W64) : Party := { p with s := FMap.set 0 p.s n x }
/-- Uniform register n as the issuing lanes read it. -/
def State.rdS (s : State) (n : Nat) : W64 :=
  let p := s.curParty
  match s.cur.lanes.findSome? fun l => (p.lane l).stale s.free l (.s n) with
  | some o => o
  | none => p.sreg n
/-- Writes a uniform register of the issuing party. -/
def State.setS (s : State) (n : Nat) (x : W64) : State := s.setCurParty (s.curParty.setSreg n x)
/-- Writes a flag in every issuing lane (R118). -/
def State.setFlags (s : State) (n : Nat) (b : Bool) : State := s.mapLanes fun _ l => l.setFlag n b
/-- Flag cn of each issuing lane. -/
def State.flagList (s : State) (n : Nat) : List Bool := s.cur.lanes.map fun l => (s.curParty.lane l).rdFlag s.free l n

/-! ### What issuing a word does to its lanes (R17, R53, R209, R212) -/

/-- What a stall count adds to the sum of R53. -/
def weight (st : BitVec 2) : Nat := if st = 1 then 2 else if st = 2 then 4 else 1

/-- Value of a register before a word wrote it. -/
def oldValue (p : Party) (l : Lane) : RegRef → W64
  | .v n => (l.reg n).setWidth 64
  | .s n => p.sreg n
  | .c n => w64 (b2n (l.flag n))

/-- What the scoreboard keeps of a word: its destinations, its latency, and whether it is a special-function word. -/
structure Effect where
  dests : List RegRef := []
  lat : Option Nat := none
  sf : Bool := false
  deriving DecidableEq, Repr

/-- The scoreboard after a word issued: entries age by the word's stall count; a register written again loses its entry; without
stall count 0b11 each destination gains one (R53, R209, R212). -/
def agePend (e : Effect) (st : BitVec 2) (p : Party) (before : Lane) (pend : List Pend) : List Pend :=
  let aged := pend.map fun e => { e with elapsed := e.elapsed + weight st }
  let due := fun (e : Pend) => e.tag == 0 && !e.exported && (match e.latency with | none => false | some k => decide (k ≤ e.elapsed))
  let kept := (aged.zip pend).filter fun x =>
    !due x.1 && (!e.dests.contains x.1.reg || (x.1.tag != 0 && !before.pend.contains x.2))
  let fresh := if st = 3 then [] else (e.dests.filter fun r => !kept.any fun x => x.1.reg == r).map fun r =>
    ({ reg := r, old := oldValue p before r, producer := before.pc, latency := e.lat, elapsed := weight st, full := false, holds := false,
       written := false, exported := false, sf := e.sf, clause := before.clause.isSome, tag := 0 } : Pend)
  kept.map (·.1) ++ fresh.filter fun e => !due e

/-- What issuing does to a lane beside the word's own effect: the stall count of R17, the scoreboard, the count of R201 and
the pass bit of R432. -/
def Lane.issued (now : Nat) (e : Effect) (st : BitVec 2) (p : Party) (before after : Lane) : Lane :=
  { after with
    ready := now + weight st
    pend := agePend e st p before after.pend
    skipped := 0
    pass := false
    lastPc := before.pc
    bad := after.bad.filter fun r => !e.dests.contains r }

/-- A party has issued a word in the lanes `went`: its other lanes count it (R201), its team's idle time starts anew (R222), and an
issue slot of a skid counts from the cycle after the trap (R338). -/
def State.countIssue (s : State) (t k : Nat) (went : List Nat) : State :=
  let T := s.team t
  let P := T.party k
  let skid := match T.halt with
    | .skid _ since => if since < s.now then P.skid + 1 else P.skid
    | .debugSkid since => if since < s.now then P.skid + 1 else P.skid
    | _ => P.skid
  let Q := P.mapLanes (P.active.filter fun l => !went.contains l) fun _ x => { x with skipped := x.skipped + 1 }
  s.setTeam t ({ T with lastIssue := s.now, swapIn := none }.setParty k { Q with lastIssue := s.now, skid := skid })

/-- Special-function results that were pending at a handler's entry are still to be written (R341). -/
def Party.drains (p : Party) : Bool := p.active.any fun l => (p.lane l).pend.any fun e => e.drain.isSome

/-- Special-function results that were pending at a handler's entry are written: all of them, or those that are due (R341). -/
def Party.drained (p : Party) (all : Bool) (now : Nat) : Party :=
  p.mapLanes p.active fun _ x => { x with pend := x.pend.filter fun e => match e.drain with
    | none => true
    | some c => !all && decide (now < c) }

/-! ### Trace records (R439 to R441) -/

/-- Records a die buffer holds: 4 MiB of 32 bytes (R440). -/
def traceCapacity : Nat := 131072

/-- Trace state of a die. -/
def State.traceDie (s : State) (die : Nat) : TraceDie := FMap.get {} s.dbg.dies die
/-- Writes the trace state of a die. -/
def State.setTraceDie (s : State) (die : Nat) (d : TraceDie) : State :=
  { s with dbg := { s.dbg with dies := FMap.set {} s.dbg.dies die d } }

/-- A trace record (R439). -/
def traceRecord (type lane strand core : Nat) (seq : Bool) (step : W32) (cycle pc payload : W64) : BitVec 256 :=
  BitVec.ofNat 256 (type + 2 ^ 5 * b2n seq + 2 ^ 6 * (lane % 64) + 2 ^ 12 * (strand % 64) + 2 ^ 18 * (core % 2048)
    + 2 ^ 32 * step.toNat + 2 ^ 64 * cycle.toNat + 2 ^ 128 * pc.toNat + 2 ^ 192 * payload.toNat)

/-- Once its buffer has space again, a die that has lost records writes one with their count, before any other; it raises vector 8
(R440, R447). -/
def State.reportLost (s : State) (die : Nat) : State :=
  let d := s.traceDie die
  if d.lost = 0 ∨ traceCapacity ≤ d.buffer.length then s
  else
    let r := traceRecord 6 0 0 0 false 0 (s.dieCycle die) 0 (w64 d.lost)
    (s.setTraceDie die { d with buffer := d.buffer ++ [r], lost := 0 }).raiseVector 8

/-- A record enters its die's buffer, or is dropped and counted when the buffer is full (R440). -/
def State.pushTrace (s : State) (die : Nat) (r : BitVec 256) : State :=
  let s := s.reportLost die
  let d := s.traceDie die
  if d.buffer.length < traceCapacity then s.setTraceDie die { d with buffer := d.buffer ++ [r] }
  else s.setTraceDie die { d with lost := d.lost + 1 }

/-- Whether tracing is on for a context (R438). -/
def State.traced (s : State) (asid : BitVec 16) : Bool := s.dbg.trcEnable && (s.dbg.trcAll || s.dbg.trcAsid == asid)

/-- Where a lane stands once it has written a record (R439, R441): at a branch's target, behind a clause header; none after `exit`. -/
def anchorPc (type : Nat) (pc payload : W64) : Option W64 :=
  if type = 1 then some payload else if type = 4 then some (pc + 4) else if type = 5 then none else some pc

/-- One record of a lane, with an anchor before it when one is due, and one behind it after 4,096 records. A record that is dropped makes
an anchor due, which follows the overflow record of the die (R440, R441). -/
def State.traceLane (s : State) (t k l type : Nat) (pc payload : W64) : State :=
  let s := s.reportLost (dieOf ((s.team t).party k).core)
  let T := s.team t
  let P := T.party k
  let L := P.lane l
  let die := dieOf P.core
  let rec_ := fun (ty : Nat) (pc payload : W64) =>
    traceRecord ty (if P.seq then 0 else l) (partyIndex k) P.core P.seq T.step (s.dieCycle die) pc payload
  let anchor := fun (pc : W64) => rec_ 0 pc (w64 (T.asid.toNat + 2 ^ 32 * T.launch.toNat))
  let losing := decide ((s.traceDie die).lost ≠ 0)
  let s := if L.anchorDue && !losing then s.pushTrace die (anchor L.pc) else s
  let s := s.pushTrace die (rec_ type pc payload)
  let n := L.traced + 1
  let s := match anchorPc type pc payload with
    | some a => if n = 4096 ∧ (s.traceDie die).lost = 0 then s.pushTrace die (anchor a) else s
    | none => s
  s.setLane t k l { L with traced := n % 4096, anchorDue := decide ((s.traceDie die).lost ≠ 0) }

/-- Records of a type, one for each listed lane, when its kind is enabled (R438, R439). -/
def State.trace (s : State) (t k : Nat) (ls : List Nat) (type kind : Nat) (pc payload : Nat → W64) : State :=
  if s.traced (s.team t).asid && s.dbg.trcKinds.getLsbD kind then
    ls.foldl (fun s l => s.traceLane t k l type (pc l) (payload l)) s
  else s

/-- Branch records of issuing lanes (type 1): lane and target. -/
def State.traceBranch (s : State) (ls : List Nat) (target : Nat → W64) : State :=
  let p := s.curParty
  s.trace s.cur.team s.cur.party ls 1 0 (fun l => (p.lane l).pc) target

/-! ### Taking a trap -/

/-- The bits of sr.fault (R135). -/
def faultWord (kind detail lane skid info : Nat) : W64 :=
  w64 (info % 2 ^ 32 + 2 ^ 32 * (skid % 256) + 2 ^ 40 * (lane % 256) + 2 ^ 48 * (detail % 256) + 2 ^ 60 * (kind % 16))

/-- The skid field of a sr.fault value replaced (R135). -/
def withSkid (f : W64) (n : Nat) : W64 := (f &&& ~~~(0xFF#64 <<< 32)) ||| (BitVec.ofNat 64 (n % 256) <<< 32)

/-- Why a lane or a party traps: kind, detail and info of R135. -/
structure Cause where
  kind : Nat
  detail : Nat := 0
  info : Nat := 0
  /-- access of an access violation as in the violation log (R333, R334) -/
  acc : Nat := 0
  deriving DecidableEq, Repr

/-- The lane field of a trap: 0xFF in a sequencer context (R135). -/
def State.laneField (s : State) (lane : Nat) : Nat := if s.curParty.seq then 0xFF else lane

/-- TAKING A TRAP: the lanes `ls` of the issuing party stop at their word with cause c, recorded for lane field `lane` (R332). The first
trap of the team begins its skid (R338), also in the cycle of a debugger's halt (R445); of several in one cycle R339 says who holds the
trap, and the others keep their own cause with skid 0; a later one within the skid does not issue: `gate` then undoes the word. Of several
causes in lanes of one word the lowest lane's is recorded (R332). -/
def State.takeTrap (s : State) (ls : List Nat) (lane : Nat) (c : Cause) : State :=
  let T := s.curTeam
  let P := s.curParty
  let P' := P.mapLanes ls fun _ l => l.hold .stopped
  let first := ls.head?.getD 0
  let marked : Party :=
    { P' with fault := faultWord c.kind c.detail lane 0 c.info, trapLane := first, trapAcc := c.acc, skid := 0, trapped := true }
  let unmarked := { T with parties := T.parties.map fun (e : Nat × Party) => (e.1, { e.2 with skid := 0, trapped := false }) }
  let fresh := fun (T : Team) (h : Halt) =>
    let s := { s with cur := { s.cur with trapped := true } }
    let s := s.setCurTeam ({ T with halt := h }.setParty s.cur.party marked)
    s.trace s.cur.team s.cur.party ls 2 1 (fun l => (P.lane l).pc) (fun _ => marked.fault)
  match T.halt with
  | .skid p since =>
    if s.cur.trapped then
      let Q := if lane ≥ bits P.fault.toNat 47 40 then P' else marked
      (s.setCurParty Q).trace s.cur.team s.cur.party ls 2 1 (fun l => (P.lane l).pc) (fun _ => Q.fault)
    else if since = s.now then
      let holder := T.party p
      let before := decide (P.core < holder.core ∨ (P.core = holder.core ∧ s.cur.party < p))
      fresh T (.skid (if before then s.cur.party else p) since)
    else { s with cur := { s.cur with trapped := true } }.setCurParty P'
  | .debugSkid since =>
    if since = s.now then fresh unmarked (.skid s.cur.party s.now) else { s with cur := { s.cur with trapped := true } }.setCurParty P'
  | _ => fresh unmarked (.skid s.cur.party s.now)

/-- A trap of the word as a whole, in every issuing lane (R332, R135). -/
def State.trapAll (s : State) (lane : Nat) (c : Cause) : State := s.takeTrap s.cur.lanes (s.laneField lane) c

/-- A trap of a uniform word: lane field 0xFF (R135). -/
def State.trapUniform (s : State) (c : Cause) : State := s.takeTrap s.cur.lanes 0xFF c

/-- The illegal-instruction trap of R33 at a whole word. -/
def State.illegal (s : State) (uniform : Bool) (detail : Nat) : State :=
  if uniform then s.trapUniform { kind := 1, detail := detail } else s.trapAll s.firstLane { kind := 1, detail := detail }

/-- Whether a lane is parked (R100). -/
def Wait.isParked : Wait → Bool
  | .parked _ _ => true
  | _ => false

/-- A record of a type other than 0 for a party (R334). -/
def State.partyRecord (s : State) (t k type : Nat) : State :=
  let T := s.team t
  let P := T.party k
  s.pushFaultRecord (faultRecord (w64 (T.number.toNat + 2 ^ 32 * T.launch.toNat)) P.fault (if P.seq then 0 else P.trapLane)
    (partyIndex k) P.core type (if bits P.fault.toNat 63 60 = 5 then P.trapAcc else 0) (if P.seq then 1 else 0) T.asid (P.lane P.trapLane).pc)

/-- Lane entries of a party by lane, for its non-exited lanes. -/
def Party.collect {α : Type} (p : Party) (f : Lane → α) : FMap α := p.active.map fun l => (l, f (p.lane l))

/-- What the trap of a party saves (R340). -/
def Party.trapSave (p : Party) (free : Nat) : TrapSave :=
  { free := free, pcs := p.collect (·.pc), priv := p.priv, units := p.collect fun x => (x.unit, x.units), clauses := p.collect (·.clause), waits := p.collect (·.wait)
    passes := p.collect (·.pass)
    temps := p.active.flatMap fun l => (p.lane l).t.map fun (e : Nat × W32) => (8 * l + e.1, e.2) }

/-- A party goes back to the state that its trap saved, registers and flags apart (R187, R342). Lanes that had stopped at
a word go on; a lane that a `resume` marked keeps its mark and performs its word first (R336). -/
def Party.restore (p : Party) (v : TrapSave) : Party :=
  let q := p.mapLanes (p.active) fun l x =>
    let w := FMap.get Wait.none v.waits l
    let u := FMap.get (0, 0) v.units l
    { x with
      pc := FMap.get x.pc v.pcs l
      wait := if w == .stopped then .none else w
      unit := u.1
      units := u.2
      pass := FMap.get false v.passes l
      errors := x.errors.map fun (e : PeerFault) => { e with held := false }
      clause := FMap.get none v.clauses l
      t := (FMap.slice v.temps (8 * l) 8).map fun (e : Nat × W32) => (e.1 - 8 * l, e.2) }
  { q with priv := v.priv, save := none }

/-- The party enters its handler as one run of its lanes that are not parked (R340); its special-function results are drained
before its first special-function word (R341). -/
def Party.enter (p : Party) (now free : Nat) (handler : W64) : Party :=
  let q := p.mapLanes (p.active) fun _ x =>
    let x := { x with errors := x.errors.map fun (e : PeerFault) => { e with held := true } }
    let x := { x with pend := x.pend.map fun (e : Pend) => if e.sf && e.drain.isNone then { e with drain := some (now + 40) } else e }
    if x.wait.isParked then { x with unit := 0, units := 0 }
    else { x.goTo handler with clause := none, t := [], ready := 0, pend := x.pend.filter fun e => !e.written }
  { q with priv := true, save := some (p.trapSave free) }

/-- Barrier b of a team, or wide barrier b of its context (R161). -/
def State.barrierOf (s : State) (t : Nat) (wide : Bool) (b : Nat) : Barrier :=
  if wide then FMap.get {} (s.ctx (s.team t).slot).wide b else FMap.get {} (s.team t).bars b

/-- Writes a barrier. -/
def State.setBarrierOf (s : State) (t : Nat) (wide : Bool) (b : Nat) (x : Barrier) : State :=
  if wide then
    let slot := (s.team t).slot
    s.setCtx slot { s.ctx slot with wide := FMap.set {} (s.ctx slot).wide b x }
  else s.setTeam t { s.team t with bars := FMap.set {} (s.team t).bars b x }

/-- A lane at a `bar.try` whose strand stops takes its flag from Φ as it stands, and stands past the word (R300). -/
def State.endTry (s : State) (t : Nat) (x : Lane) : Lane :=
  match x.wait with
  | .barrier wide b target (some (_, n, st)) =>
    Lane.issued s.now { dests := [.c n] } st {} x (x.setFlag n (decide (target < (s.barrierOf t wide b).phase))).next
  | .expired n st => Lane.issued s.now { dests := [.c n] } st {} x (x.setFlag n false).next
  | _ => x

/-- The count of R368 pauses. -/
def Lane.pauseStale (now : Nat) (x : Lane) : Lane :=
  match x.staleSince with
  | none => x
  | some c => { x with staleCount := x.staleCount.map (· + (now - c)), staleSince := none }

/-- The count of R368 goes on for a lane parked at `ldv` or `ldv.tag`. -/
def Lane.startStale (now : Nat) (x : Lane) : Lane :=
  if x.wait.isParked && x.staleCount.isSome && x.staleSince.isNone then { x with staleSince := some now } else x

/-- The count of R368 goes on, when the lane's team runs. -/
def Lane.countStale (x : Lane) (runs : Bool) (now : Nat) : Lane := if runs then x.startStale now else x

/-- Each lane of a team that has not exited becomes what f makes of it. -/
def Team.mapLanes (T : Team) (f : Lane → Lane) : Team :=
  { T with parties := T.parties.map fun (e : Nat × Party) => (e.1, e.2.mapLanes e.2.active fun _ x => f x) }

/-- A team stops: every `bar.try` of it ends (R300), and the counts of R368 pause. -/
def State.endTries (s : State) (t : Nat) : State :=
  s.setTeam t ((s.team t).mapLanes fun x => (s.endTry t x).pauseStale s.now)

/-- A lane of a party stands inside a clause (R39, R207). -/
def Party.inClause (p : Party) : Bool := p.active.any fun l => (p.lane l).clause.isSome

/-- Every lane of every strand of the team has exited (R214). -/
def Team.isOver (T : Team) : Bool := (T.parties.filter fun (e : Nat × Party) => !e.2.seq).all fun e => e.2.active.isEmpty

/-- Whether party k of a team issues: not while the team is pre-empted (R344), but to the trailer of an open clause (R207); not
while it is halted, but through its skid and in a handler (R338, R340); a sequencer context of a team whose lanes have all exited
only to the end of its long word (R214). -/
def Team.mayIssue (T : Team) (k : Nat) : Bool :=
  T.live && T.resident && (T.drainFrom.isNone || (T.party k).inClause) && (k < 64 || !T.isOver || (T.party k).index != 0) &&
    (match T.halt with
     | .running => true
     | .skid p _ =>
       !((T.party k).trapped && p != k) &&
       decide ((T.party k).skid < 24) && ((T.party k).save.isSome || T.parties.all fun (e : Nat × Party) => e.2.save.isNone)
     | .debugSkid _ =>
       decide ((T.party k).skid < 24) && ((T.party k).save.isSome || T.parties.all fun (e : Nat × Party) => e.2.save.isNone)
     | .handler p => p == k
     | .halted => false)

/-- ENTERING THE HANDLER: the skid of a trap held by party k ends. Skids are recorded; the party enters the handler of the
context image, or the team stays halted with a record of type 1, or of type 2 for a trap in a handler (R338 to R342). -/
def State.enterHandler (s : State) (t k : Nat) : State :=
  let s := s.endTries t
  let T := s.team t
  let T := { T with parties := T.parties.map fun (e : Nat × Party) =>
    (e.1, { e.2 with fault := withSkid e.2.fault (if e.2.trapped && e.1 != k then 0 else e.2.skid), trapped := false }) }
  let P := T.party k
  let c := s.ctx T.slot
  let h := if P.seq then c.seqhandler else c.handler
  match P.save with
  | some v =>
    let s := (s.setTeam t { T with halt := .halted, holder := some k }).partyRecord t k 2
    s.setParty t k ((s.party t k).restore v)
  | none =>
    if h = 0 then (s.setTeam t { T with halt := .halted, holder := some k }).partyRecord t k 1
    else s.setTeam t ({ T with halt := .handler k, holder := some k }.setParty k (P.enter s.now s.free h))

/-- Lanes stopped by a halt go on (R343); a parked lane that a `resume` marked keeps its mark and performs its word again
(R336). -/
def Party.release (p : Party) : Party :=
  p.mapLanes p.active fun _ x => if x.wait == .stopped then { x with wait := .none } else x

/-- A halted team is released: each lane continues at its recorded program counter (R187, R343), a party that was in its
handler there. -/
def Team.release (t : Team) : Team :=
  let runs := (t.parties.find? fun (e : Nat × Party) => e.2.save.isSome).map (·.1)
  { t with halt := (match runs with | some k => .handler k | none => .running)
           holder := runs
           editsDue := !t.edits.isEmpty
           parties := t.parties.map fun (e : Nat × Party) => (e.1, { e.2.release with skid := 0 }) }

/-- Releases a halted team (R343); the counts of R368 go on. -/
def State.releaseTeam (s : State) (t : Nat) : State := s.setTeam t ((s.team t).release.mapLanes (·.startStale s.now))

/-- RETURNING FROM A HANDLER: party k goes back to its saved state, sr.fault.kind is cleared, and the team is released
(R187); its lanes, and those of the team that a `resume` makes perform their word again, write return records (R439). -/
def State.leaveHandler (s : State) (t k : Nat) : State :=
  let T := s.team t
  let P := T.party k
  match P.save with
  | none => s
  | some v =>
    let P := P.restore v
    let P := { P with fault := P.fault &&& 0x0FFFFFFFFFFFFFFF#64 }
    let s := (s.setTeam t (T.setParty k P)).releaseTeam t
    (s.team t).parties.foldl (fun (s : State) e =>
      s.trace t e.1 (if e.1 = k then e.2.active else e.2.active.filter fun l => (e.2.lane l).marked && (e.2.lane l).wait.isParked)
        3 1 (fun l => (e.2.lane l).pc) fun _ => 0) s

end Sys2Proof.Machine
end

