-- ==== Sys2Proof/Machine/Operands.lean ====
section
/-! DEFINITION. Operands: which registers and flags each word reads and writes, in groups as R25 gives them, its result
latency (R53, R120), and what R33 says of registers that a word may not name. -/

namespace Sys2Proof.Machine

open Sys2Proof

/-- Registers and flags of a word: groups (first register, size) of lane sources, lane destinations, uniform sources and
uniform destinations, flags read and written, and the result latency where it is fixed. -/
structure Uses where
  vs : List (Nat × Nat) := []
  vd : List (Nat × Nat) := []
  ss : List (Nat × Nat) := []
  sd : List (Nat × Nat) := []
  cs : List Nat := []
  cd : List Nat := []
  lat : Option Nat := none
  /-- a special-function word (R341) -/
  sf : Bool := false
  deriving DecidableEq, Repr

/-- Families of words for R32, R37 and R332: L words that act alone and may stand in a clause, cross-lane words, other L
words, U words of both streams, of strands only, of sequencers only, of the supervisor, and machine events. -/
inductive Family where
  | body | cross | lane | uniform | strandU | seqU | system | event
  deriving DecidableEq, Repr

/-- Two lane sources and a destination of k registers. -/
def rr (d a b : BitVec 7) (k lat : Nat) : Uses :=
  { vs := [(a.toNat, k), (b.toNat, k)], vd := [(d.toNat, k)], lat := some lat }
/-- One lane source and a destination of k registers. -/
def r1 (d a : BitVec 7) (k lat : Nat) : Uses := { vs := [(a.toNat, k)], vd := [(d.toNat, k)], lat := some lat }
/-- Two uniform sources and a destination. -/
def ss3 (d a b : BitVec 6) (lat : Option Nat) : Uses :=
  { ss := [(a.toNat, 1), (b.toNat, 1)], sd := [(d.toNat, 1)], lat := lat }
/-- Registers of an integer type code divided by two: 32-bit or 64-bit. -/
def wide (k : Nat) : Nat := if k = 0 then 1 else 2
/-- Registers of a float type of R30. -/
def isF64 (t : BitVec 2) : Nat := if t = 1 then 2 else 1
/-- Latency of a floating word (R53). -/
def fLat (t : BitVec 2) : Nat := if t = 1 then 8 else 4
/-- Registers of a float type code of R67. -/
def fRegs (c : Nat) : Nat := if c = 1 then 2 else 1
/-- A 16-bit destination with `.hi` keeps the lower half of vd, so it reads it (R67). -/
def kept (d : BitVec 7) (h : BitVec 1) (dst : Nat) : List (Nat × Nat) := if h = 1 ∧ 2 ≤ dst then [(d.toNat, 1)] else []
/-- A combined comparison reads its flag (R56). -/
def combined (comb n : Nat) : List Nat := if comb = 0 then [] else [n]
/-- Registers of a lane mask (R79). -/
def maskRegs (W : Nat) : Nat := if W = 64 then 2 else 1
/-- Destination registers of `ldv` for its control word (R103). -/
def ldvRegs (c : Nat) : Nat := if c % 8 = 3 then 2 else if c % 8 = 4 then 4 else 1
/-- Registers of one operand of `atom` for its control word (R105). -/
def atomRegs (c : Nat) : Nat := if bits c 6 4 < 2 then 1 else if bits c 6 4 < 4 then 2 else 4
/-- Source groups of `atom`: x, or expected and new for cas (R106). DESIGN CHOICE: the two operands of a cas are two groups, so that a
new operand which begins at t0, behind an expected one at the end of the share, meets detail 5 and not detail 4 (R25, log 60). -/
def atomGroups (d : BitVec 7) (c : Nat) : List (Nat × Nat) :=
  if c % 16 = 7 then [(d.toNat, atomRegs c), (d.toNat + atomRegs c, atomRegs c)] else [(d.toNat, atomRegs c)]
/-- Source registers of `red` for its control word (R107, R108). -/
def redRegs (c : Nat) : Nat :=
  if c % 16 = 7 then 1 else if c % 16 = 6 then (if bit c 7 && bit c 4 then 2 else 1) else if bits c 6 4 < 2 then 1 else 2

/-- The registers and flags of a word, for strand width W and the control words of `ldv`, `atom` and `red` (R102). DESIGN CHOICE: what `copy`,
`copyt` and `launch` take from s(r) and s(r + 1) is a pair in the sense of R159 also where their rules do not call it one (R170, R171, R173,
log 75). -/
def usesOf (W : Nat) (ctl : BitVec 3 → Nat) (i : Instr) : Uses :=
  match i with
  | .add d a b m _ => rr d a b (if m = 1 then 2 else 1) (if m = 1 then 4 else 2)
  | .sub d a b m _ => rr d a b (if m = 1 then 2 else 1) (if m = 1 then 4 else 2)
  | .mul d a b m _ => { vs := [(a.toNat, if m = 3 then 2 else 1), (b.toNat, if m = 3 then 2 else 1)], vd := [(d.toNat, if m = 3 then 2 else 1)], lat := some (if m = 0 then 4 else 8) }
  | .mad d a b m _ => { vs := [(a.toNat, if m = 1 then 2 else 1), (b.toNat, if m = 1 then 2 else 1), (d.toNat, if m = 0 then 1 else 2)], vd := [(d.toNat, if m = 0 then 1 else 2)], lat := some (if m = 0 then 4 else 8) }
  | .and d a b _ => rr d a b 1 2
  | .or d a b _ => rr d a b 1 2
  | .xor d a b _ => rr d a b 1 2
  | .andn d a b _ => rr d a b 1 2
  | .shl d a b _ => rr d a b 1 2
  | .shr d a b _ => rr d a b 1 2
  | .sar d a b _ => rr d a b 1 2
  | .rot d a b _ => rr d a b 1 2
  | .min d a b _ => rr d a b 1 2
  | .max d a b _ => rr d a b 1 2
  | .cmp d a b t _ => { vs := [(a.toNat, wide (t.toNat / 2)), (b.toNat, wide (t.toNat / 2))], cs := combined (d.toNat / 32) (d.toNat % 4), cd := [d.toNat % 4], lat := some (if t.toNat < 2 then 2 else 4) }
  | .sel d a b n _ => { rr d a b 1 2 with cs := [n.toNat] }
  | .popc d a _ => r1 d a 1 2
  | .clz d a _ => r1 d a 1 2
  | .brev d a _ => r1 d a 1 2
  | .bfe d a b _ => rr d a b 1 2
  | .mov d a _ => r1 d a 1 2
  | .movc d _ => { vd := [(d.toNat, 1)], cs := [0, 1, 2, 3], lat := some 2 }
  | .addi d a _ _ => r1 d a 1 2
  | .andi d a _ _ => r1 d a 1 2
  | .shli d a _ _ => r1 d a 1 2
  | .shri d a _ _ => r1 d a 1 2
  | .sari d a _ _ => r1 d a 1 2
  | .li d _ _ => { vd := [(d.toNat, 1)], lat := some 2 }
  | .lih d _ _ => r1 d d 1 2
  | .fadd d a b t _ => rr d a b (isF64 t) (fLat t)
  | .fsub d a b t _ => rr d a b (isF64 t) (fLat t)
  | .fmul d a b t _ => rr d a b (isF64 t) (fLat t)
  | .ffma d a b t _ => let u := rr d a b (isF64 t) (fLat t); { u with vs := (d.toNat, isF64 t) :: u.vs }
  | .fmin d a b t _ => rr d a b (isF64 t) (fLat t)
  | .fmax d a b t _ => rr d a b (isF64 t) (fLat t)
  | .fcmp d a b t _ => { vs := [(a.toNat, isF64 t), (b.toNat, isF64 t)], cs := combined (d.toNat / 32) (d.toNat % 4), cd := [d.toNat % 4], lat := some (fLat t) }
  | .fsgn d a b _ _ => rr d a b 1 4
  | .cvtF d a c h _ _ => { vs := (a.toNat, fRegs (c.toNat % 4)) :: kept d h (c.toNat / 4 % 4), vd := [(d.toNat, fRegs (c.toNat / 4 % 4))], lat := some (if c.toNat % 4 = 1 ∨ c.toNat / 4 % 4 = 1 then 8 else 4) }
  | .cvtFi d a c _ _ => { vs := [(a.toNat, fRegs (c.toNat % 4))], vd := [(d.toNat, wide (c.toNat / 4 % 4 / 2))], lat := some (if c.toNat % 4 = 1 then 8 else 4) }
  | .cvtIf d a c h _ => { vs := (a.toNat, wide (c.toNat % 4 / 2)) :: kept d h (c.toNat / 4 % 4), vd := [(d.toNat, fRegs (c.toNat / 4 % 4))], lat := some (if c.toNat / 4 % 4 = 1 then 8 else 4) }
  | .fclass d a t _ => { vs := [(a.toNat, isF64 t)], vd := [(d.toNat, 1)], lat := some (fLat t) }
  | .rcp d a t _ => { vs := [(a.toNat, t.toNat + 1)], vd := [(d.toNat, t.toNat + 1)], sf := true }
  | .rsqrt d a t _ => { vs := [(a.toNat, t.toNat + 1)], vd := [(d.toNat, t.toNat + 1)], sf := true }
  | .sqrt d a t _ => { vs := [(a.toNat, t.toNat + 1)], vd := [(d.toNat, t.toNat + 1)], sf := true }
  | .exp2 d a t _ => { vs := [(a.toNat, t.toNat + 1)], vd := [(d.toNat, t.toNat + 1)], sf := true }
  | .log2 d a t _ => { vs := [(a.toNat, t.toNat + 1)], vd := [(d.toNat, t.toNat + 1)], sf := true }
  | .sin d a _ => { vs := [(a.toNat, 1)], vd := [(d.toNat, 1)], sf := true }
  | .cos d a _ => { vs := [(a.toNat, 1)], vd := [(d.toNat, 1)], sf := true }
  | .tanh d a _ => { vs := [(a.toNat, 1)], vd := [(d.toNat, 1)], sf := true }
  | .lgst d a _ => { vs := [(a.toNat, 1)], vd := [(d.toNat, 1)], sf := true }
  | .shfl d a b _ _ => { vs := [(a.toNat, 1), (b.toNat, 1)], vd := [(d.toNat, 1)] }
  | .voteAny d c _ => { cs := [c.toNat], cd := [d.toNat] }
  | .voteAll d c _ => { cs := [c.toNat], cd := [d.toNat] }
  | .voteBallot d c _ => { vd := [(d.toNat, maskRegs W)], cs := [c.toNat] }
  | .scan d a _ _ => { vs := [(a.toNat, 1)], vd := [(d.toNat, 1)] }
  | .matchLanes d a m _ => { vs := [(a.toNat, m.toNat + 1)], vd := [(d.toNat, maskRegs W)] }
  | .elect d _ => { cd := [d.toNat] }
  | .reds d a m _ => { vs := [(a.toNat, if m = 1 then 2 else 1)], vd := [(d.toNat, if m = 1 then 2 else 1)] }
  | .redsAf d a b m _ => { vs := [(a.toNat, if m = 0 then 1 else 2), (b.toNat, 1)], vd := [(d.toNat, 2)] }
  | .redsInt d a _ t _ => { vs := [(a.toNat, wide (t.toNat / 2))], vd := [(d.toNat, wide (t.toNat / 2))] }
  | .bra c _ _ => { cs := if c = 0 then [] else if c.toNat ≤ 4 then [c.toNat - 1] else [c.toNat - 5] }
  | .brx a _ => { vs := [(a.toNat, 1)] }
  | .lpad _ _ => {}
  | .call _ _ => {}
  | .ret _ => {}
  | .reconv _ _ => {}
  | .exit _ => {}
  | .ldB d a b _ _ _ => { vs := [(a.toNat, 1)], ss := [(56 + b.toNat, 1)], vd := [(d.toNat, 1)] }
  | .ldH d a b _ _ _ => { vs := [(a.toNat, 1)], ss := [(56 + b.toNat, 1)], vd := [(d.toNat, 1)] }
  | .ldW d a b _ _ _ => { vs := [(a.toNat, 1)], ss := [(56 + b.toNat, 1)], vd := [(d.toNat, 1)] }
  | .ldD d a b _ _ _ => { vs := [(a.toNat, 1)], ss := [(56 + b.toNat, 1)], vd := [(d.toNat, 2)] }
  | .ldQ d a b _ _ _ => { vs := [(a.toNat, 1)], ss := [(56 + b.toNat, 1)], vd := [(d.toNat, 4)] }
  | .stB d a b _ _ _ => { vs := [(a.toNat, 1), (d.toNat, 1)], ss := [(56 + b.toNat, 1)] }
  | .stH d a b _ _ _ => { vs := [(a.toNat, 1), (d.toNat, 1)], ss := [(56 + b.toNat, 1)] }
  | .stW d a b _ _ _ => { vs := [(a.toNat, 1), (d.toNat, 1)], ss := [(56 + b.toNat, 1)] }
  | .stD d a b _ _ _ => { vs := [(a.toNat, 1), (d.toNat, 2)], ss := [(56 + b.toNat, 1)] }
  | .stQ d a b _ _ _ => { vs := [(a.toNat, 1), (d.toNat, 4)], ss := [(56 + b.toNat, 1)] }
  | .ldv d a b _ _ _ => { vs := [(a.toNat, 1)], ss := [(56 + b.toNat, 1), (48 + b.toNat, 1)], vd := [(d.toNat, ldvRegs (ctl b))] }
  | .ldvTag d a b _ _ _ => { vs := [(a.toNat, 1)], ss := [(56 + b.toNat, 1), (48 + b.toNat, 1)], vd := [(d.toNat, ldvRegs (ctl b))] }
  | .atom d a b _ _ _ => { vs := (a.toNat, 1) :: atomGroups d (ctl b), ss := [(56 + b.toNat, 1), (48 + b.toNat, 1)], vd := [(d.toNat, atomRegs (ctl b))] }
  | .red d a b _ _ _ => { vs := [(a.toNat, 1), (d.toNat, redRegs (ctl b))], ss := [(56 + b.toNat, 1), (48 + b.toNat, 1)] }
  | .qopPop d a n _ => { vs := [(a.toNat, 1)], vd := [(d.toNat, 1)], cd := [n.toNat] }
  | .qopPush d a n _ => { vs := [(a.toNat, 1), (d.toNat, 1)], cd := [n.toNat] }
  | .rand d a b i _ => { vs := [(a.toNat, 4), (b.toNat, 2)], vd := (d.toNat, 4) :: if i = 1 then [(a.toNat, 4)] else [] }
  | .tcon d a u t _ _ => { vs := [(a.toNat, t.toNat + 1), (8 * u.toNat, 8 * (t.toNat + 1))], vd := [(d.toNat, 8 * (t.toNat + 1))] }
  | .sadd d a b _ => ss3 d a b (some 2)
  | .ssub d a b _ => ss3 d a b (some 2)
  | .smul d a b m _ => ss3 d a b (some (if m = 0 then 4 else 8))
  | .sand d a b _ => ss3 d a b (some 2)
  | .sor d a b _ => ss3 d a b (some 2)
  | .sxor d a b _ => ss3 d a b (some 2)
  | .sandn d a b _ => ss3 d a b (some 2)
  | .sshl d a b _ => ss3 d a b (some 2)
  | .sshr d a b _ => ss3 d a b (some 2)
  | .ssar d a b _ => ss3 d a b (some 2)
  | .smin d a b _ => ss3 d a b (some 2)
  | .smax d a b _ => ss3 d a b (some 2)
  | .scmp c a b _ m _ => { ss := [(a.toNat, 1), (b.toNat, 1)], cs := combined m.toNat (c.toNat % 4), cd := [c.toNat % 4], lat := some 2 }
  | .ssel d a b _ n _ => { ss3 d a b (some 2) with cs := [n.toNat] }
  | .saddi d a _ _ => { ss := [(a.toNat, 1)], sd := [(d.toNat, 1)], lat := some 2 }
  | .sli d _ _ => { sd := [(d.toNat, 1)], lat := some 2 }
  | .slik d _ _ _ => { ss := [(d.toNat, 1)], sd := [(d.toNat, 1)], lat := some 2 }
  | .sld d a _ _ => { ss := [(a.toNat, 1)], sd := [(d.toNat, 1)] }
  | .sst d a _ _ => { ss := [(a.toNat, 1), (d.toNat, 1)] }
  | .sbr c _ _ => { cs := if c.toNat < 4 then [] else [c.toNat % 4] }
  | .sloop d _ _ => { ss := [(d.toNat, 1)], sd := [(d.toNat, 1)], lat := some 2 }
  | .sjmp a _ => { ss := [(a.toNat, 1)] }
  | .clause _ _ => {}
  | .clend _ _ _ _ _ _ => {}
  | .mfsrUniform d _ _ => { sd := [(d.toNat, 1)] }
  | .mfsrLane d h _ _ => { vd := [(64 * h.toNat + d.toNat, 1)] }
  | .mtsrUniform d _ _ => { ss := [(d.toNat, 1)] }
  | .mtsrLane d h _ _ => { vs := [(64 * h.toNat + d.toNat, 1)] }
  | .wload _ a b c _ _ => { ss := (a.toNat, 2) :: if c = 1 then [(b.toNat, 1)] else [] }
  | .wswap _ => {}
  | .mma _ a b _ => { ss := [(a.toNat, 2), (b.toNat, 1)] }
  | .mmac _ _ b _ => { ss := [(b.toNat, 2)] }
  | .accAlloc _ _ _ => {}
  | .accFree _ _ _ => {}
  | .accRd _ a b _ _ => { ss := [(a.toNat, 2), (b.toNat, 1)] }
  | .accAnc _ _ b _ => { ss := [(b.toNat, 1)] }
  | .accFlg d _ _ _ => { sd := [(d.toNat, 1)] }
  | .tshape _ a _ => { ss := [(a.toNat, 1)] }
  | .tld _ a b _ => { ss := [(a.toNat, 1), (b.toNat, 1)] }
  | .tst _ a b _ => { ss := [(a.toNat, 1), (b.toNat, 1)] }
  | .barInit _ b _ _ => { ss := [(b.toNat, 1)] }
  | .barArr _ _ _ => {}
  | .barWait _ _ _ => {}
  | .barAw _ _ _ => {}
  | .barTry _ n b _ _ => { ss := [(b.toNat, 1)], cd := [n.toNat] }
  | .fence _ _ _ => {}
  | .ifence _ => {}
  | .icinv a b _ => { ss := [(a.toNat, 1), (b.toNat, 1)] }
  | .copy a b _ _ _ => { ss := [(a.toNat, 2), (b.toNat, 2)] }
  | .copyt a b _ _ => { ss := [(a.toNat, 2), (b.toNat, 2)] }
  | .taskSub d a _ => { ss := [(a.toNat, 1)], sd := [(d.toNat, 1)] }
  | .taskSigAdd a b _ => { ss := [(a.toNat, 1), (b.toNat, 1)] }
  | .taskSigSet a b _ => { ss := [(a.toNat, 1), (b.toNat, 1)] }
  | .taskSigRd d a _ => { ss := [(a.toNat, 1)], sd := [(d.toNat, 1)] }
  | .taskWait a _ => { ss := [(a.toNat, 1)] }
  | .taskWaitTake a _ => { ss := [(a.toNat, 1)] }
  | .taskTry n a _ => { ss := [(a.toNat, 1)], cd := [n.toNat] }
  | .taskTryTake n a _ => { ss := [(a.toNat, 1)], cd := [n.toNat] }
  | .launch d a b _ => { ss := [(a.toNat, 2), (b.toNat, 1)], sd := [(d.toNat, 1)] }
  | .replay n a b _ => { ss := [(a.toNat, 1), (b.toNat, 1)], cd := [n.toNat] }
  | .stepEnter a _ => { ss := [(a.toNat, 1)] }
  | .stepPub a _ => { ss := [(a.toNat, 1)] }
  | .verOpen a _ => { ss := [(a.toNat, 1)] }
  | .ckptFreeze d a _ => { ss := [(a.toNat, 1)], sd := [(d.toNat, 1)] }
  | .ckptStat d a _ => { ss := [(a.toNat, 1)], sd := [(d.toNat, 1)] }
  | .collOpen d a _ => { ss := [(a.toNat, 1)], sd := [(d.toNat, 1)] }
  | .collPut a b _ => { ss := [(a.toNat, 1), (b.toNat, 1)] }
  | .collWait d a _ => { ss := [(a.toNat, 1)], sd := [(d.toNat, 1)] }
  | .collStat d a _ => { ss := [(a.toNat, 1)], sd := [(d.toNat, 1)] }
  | .tideRd d a _ _ => { ss := [(a.toNat, 1)], sd := [(d.toNat, 1)] }
  | .gauge a b _ => { ss := [(a.toNat, 1), (b.toNat, 1)] }
  | .patLd n a b _ => { ss := [(a.toNat, 1), (b.toNat, 1)], cd := [n.toNat] }
  | .patNext d _ => { sd := [(d.toNat, 2)] }
  | .patDone a _ => { ss := [(a.toNat, 1)] }
  | .stashPut d a _ => { ss := [(a.toNat, 1)], sd := [(d.toNat, 1)] }
  | .stashGet d a _ => { ss := [(a.toNat, 1)], sd := [(d.toNat, 1)] }
  | .stashFree a _ => { ss := [(a.toNat, 1)] }
  | .trap _ _ _ => {}
  | .eret _ => {}
  | .brk _ _ _ => {}
  | .halt _ => {}
  | .map d a b _ => { ss := [(a.toNat, 2), (b.toNat, 1)], sd := [(d.toNat, 1)] }
  | .unmap a b _ => { ss := [(a.toNat, 1), (b.toNat, 1)] }
  | .tlbinv a b _ => { ss := [(a.toNat, 1), (b.toNat, 1)] }
  | .fqPop d n _ => { sd := [(d.toNat, 4)], cd := [n.toNat] }
  | .resume a b _ => { ss := [(a.toNat, 1), (b.toNat, 1)] }
  | .ctxSave a b _ => { ss := [(a.toNat, 1), (b.toNat, 1)] }
  | .ctxRest a b _ => { ss := [(a.toNat, 1), (b.toNat, 1)] }
  | .barTryTimeout _ _ => {}
  | .teamPlace _ => {}
  | .dispatchSwap _ => {}
  | .parkedShareSwitch _ _ => {}
  | .engdrainExpiry _ => {}
  | .teamRetire _ => {}
  | .taskStart _ => {}
  | .jobComplete _ => {}
  | .jobPark _ => {}
  | .replayInstanceStart _ => {}
  | .contextTeardown _ => {}
  | .teamHalt _ => {}
  | .frameOpenRetry _ _ => {}
  | .framePublish _ _ => {}
  | .stalenessFault _ _ _ => {}
  | .wcbAgeDrain _ => {}
  | .wcbFlush => {}
  | .peerRequestReceive _ => {}
  | .peerResponseLand _ _ _ _ => {}
  | .peerAckLand _ _ _ _ => {}
  | .linkReplay _ => {}
  | .linkRetrain _ _ => {}
  | .moduleUnreachable _ => {}
  | .tideEnable _ => {}
  | .tideBeaconSend => {}
  | .tideBeaconReceive _ _ => {}
  | .tideLateExpiry _ => {}
  | .tideAbsentExpiry _ => {}
  | .collContributionArrival _ _ _ => {}
  | .collTimerClose _ _ => {}
  | .collCloseReceive _ _ => {}
  | .gaugeDigestReceive _ _ _ _ => {}
  | .partialArrival _ _ _ => {}
  | .combineWindowExpiry _ _ _ => {}
  | .ckptDrainEnd _ _ => {}
  | .patternSignalReceive _ _ => {}
  | .creditReceive _ => {}
  | .patternHandout => {}
  | .patcfgEnable _ => {}
  | .patcfgDisable _ => {}
  | .sampleTick => {}
  | .traceFrameSend _ => {}
  | .traceOverflowRecord _ => {}
  | .debugHalt _ => {}
  | .debugRelease _ => {}
  | .dbgdataRead => {}
  | .dbgdataWrite _ => {}
  | .freezePin => {}
  | .mgmtFreeze _ => {}
  | .jtagExtest _ => {}
  | .jtagIdcode => {}
  | .jtagSamplePreload _ => {}
  | .jtagFreeze _ => {}
  | .jtagDsel _ => {}
  | .jtagDdata _ => {}
  | .jtagBypass _ => {}
  | .hostFarRead _ _ => {}
  | .hostFarWrite _ _ => {}
  | .doorbell _ => {}
  | .msixUnmask _ => {}
  | .mgmtsemAcquire _ => {}
  | .mgmtsemRelease _ => {}
  | .mgmtLinkLossRelease _ => {}
  | .identity _ => {}
  | .attest _ _ => {}
  | .bringUp _ _ => {}
  | .keyLoad _ _ => {}
  | .keyEmpty _ _ => {}
  | .powerCapThrottle _ => {}
  | .thermalThrottle _ => {}
  | .thermalTrip _ => {}
  | .registerWrite _ _ _ _ => {}
  | .illegalInstruction _ => {}
  | .instructionFetchFault _ _ => {}
  | .pendingRegisterWrite _ _ _ _ => {}
  | .longWordUnitComplete _ _ => {}
  | .endToEndAckReceive _ _ => {}
  | .thermalThrottleRelease _ => {}

/-- The control word s(48 + base) as a number (R102). -/
def State.control (s : State) (b : BitVec 3) : Nat := (s.rdS (48 + b.toNat)).toNat

/-- Registers and flags of a word of the issuing party. -/
def State.uses (s : State) (i : Instr) : Uses := usesOf s.curTeam.hdr.width s.control i

/-- The registers of groups. -/
def spread (f : Nat → RegRef) (gs : List (Nat × Nat)) : List RegRef :=
  gs.flatMap fun g => (List.range g.2).map fun i => f (g.1 + i)

/-- Registers and flags that a word reads. -/
def Uses.sources (u : Uses) : List RegRef := spread .v u.vs ++ spread .s u.ss ++ u.cs.map .c
/-- Registers and flags that a word writes. -/
def Uses.dests (u : Uses) : List RegRef := spread .v u.vd ++ spread .s u.sd ++ u.cd.map .c

/-- A lane register group inside the allotment V, or inside t0 to t7, and aligned (R23, R25). -/
def groupOk (V : Nat) (g : Nat × Nat) : Bool :=
  g.1 % g.2 == 0 && (if g.1 < 120 then decide (g.1 + g.2 ≤ V) else decide (g.1 + g.2 ≤ 128))

/-- A group that names a clause temporary. -/
def isTemp (g : Nat × Nat) : Bool := decide (120 ≤ g.1)

/-- A uniform register group that is aligned (R159). -/
def pairOk (g : Nat × Nat) : Bool := g.1 % g.2 == 0


/-- The stall count of a word, bits [1:0] (R17); 0 for an event. -/
def stallOf (i : Instr) : BitVec 2 :=
  match i with
  | .add _ _ _ _ st => st
  | .sub _ _ _ _ st => st
  | .mul _ _ _ _ st => st
  | .mad _ _ _ _ st => st
  | .and _ _ _ st => st
  | .or _ _ _ st => st
  | .xor _ _ _ st => st
  | .andn _ _ _ st => st
  | .shl _ _ _ st => st
  | .shr _ _ _ st => st
  | .sar _ _ _ st => st
  | .rot _ _ _ st => st
  | .min _ _ _ st => st
  | .max _ _ _ st => st
  | .cmp _ _ _ _ st => st
  | .sel _ _ _ _ st => st
  | .popc _ _ st => st
  | .clz _ _ st => st
  | .brev _ _ st => st
  | .bfe _ _ _ st => st
  | .mov _ _ st => st
  | .movc _ st => st
  | .addi _ _ _ st => st
  | .andi _ _ _ st => st
  | .shli _ _ _ st => st
  | .shri _ _ _ st => st
  | .sari _ _ _ st => st
  | .li _ _ st => st
  | .lih _ _ st => st
  | .fadd _ _ _ _ st => st
  | .fsub _ _ _ _ st => st
  | .fmul _ _ _ _ st => st
  | .ffma _ _ _ _ st => st
  | .fmin _ _ _ _ st => st
  | .fmax _ _ _ _ st => st
  | .fcmp _ _ _ _ st => st
  | .fsgn _ _ _ _ st => st
  | .cvtF _ _ _ _ _ st => st
  | .cvtFi _ _ _ _ st => st
  | .cvtIf _ _ _ _ st => st
  | .fclass _ _ _ st => st
  | .rcp _ _ _ st => st
  | .rsqrt _ _ _ st => st
  | .sqrt _ _ _ st => st
  | .exp2 _ _ _ st => st
  | .log2 _ _ _ st => st
  | .sin _ _ st => st
  | .cos _ _ st => st
  | .tanh _ _ st => st
  | .lgst _ _ st => st
  | .shfl _ _ _ _ st => st
  | .voteAny _ _ st => st
  | .voteAll _ _ st => st
  | .voteBallot _ _ st => st
  | .scan _ _ _ st => st
  | .matchLanes _ _ _ st => st
  | .elect _ st => st
  | .reds _ _ _ st => st
  | .redsAf _ _ _ _ st => st
  | .redsInt _ _ _ _ st => st
  | .bra _ _ st => st
  | .brx _ st => st
  | .lpad _ st => st
  | .call _ st => st
  | .ret st => st
  | .reconv _ st => st
  | .exit st => st
  | .ldB _ _ _ _ _ st => st
  | .ldH _ _ _ _ _ st => st
  | .ldW _ _ _ _ _ st => st
  | .ldD _ _ _ _ _ st => st
  | .ldQ _ _ _ _ _ st => st
  | .stB _ _ _ _ _ st => st
  | .stH _ _ _ _ _ st => st
  | .stW _ _ _ _ _ st => st
  | .stD _ _ _ _ _ st => st
  | .stQ _ _ _ _ _ st => st
  | .ldv _ _ _ _ _ st => st
  | .ldvTag _ _ _ _ _ st => st
  | .atom _ _ _ _ _ st => st
  | .red _ _ _ _ _ st => st
  | .qopPop _ _ _ st => st
  | .qopPush _ _ _ st => st
  | .rand _ _ _ _ st => st
  | .tcon _ _ _ _ _ st => st
  | .sadd _ _ _ st => st
  | .ssub _ _ _ st => st
  | .smul _ _ _ _ st => st
  | .sand _ _ _ st => st
  | .sor _ _ _ st => st
  | .sxor _ _ _ st => st
  | .sandn _ _ _ st => st
  | .sshl _ _ _ st => st
  | .sshr _ _ _ st => st
  | .ssar _ _ _ st => st
  | .smin _ _ _ st => st
  | .smax _ _ _ st => st
  | .scmp _ _ _ _ _ st => st
  | .ssel _ _ _ _ _ st => st
  | .saddi _ _ _ st => st
  | .sli _ _ st => st
  | .slik _ _ _ st => st
  | .sld _ _ _ st => st
  | .sst _ _ _ st => st
  | .sbr _ _ st => st
  | .sloop _ _ st => st
  | .sjmp _ st => st
  | .clause _ st => st
  | .clend _ _ _ _ _ st => st
  | .mfsrUniform _ _ st => st
  | .mfsrLane _ _ _ st => st
  | .mtsrUniform _ _ st => st
  | .mtsrLane _ _ _ st => st
  | .wload _ _ _ _ _ st => st
  | .wswap st => st
  | .mma _ _ _ st => st
  | .mmac _ _ _ st => st
  | .accAlloc _ _ st => st
  | .accFree _ _ st => st
  | .accRd _ _ _ _ st => st
  | .accAnc _ _ _ st => st
  | .accFlg _ _ _ st => st
  | .tshape _ _ st => st
  | .tld _ _ _ st => st
  | .tst _ _ _ st => st
  | .barInit _ _ _ st => st
  | .barArr _ _ st => st
  | .barWait _ _ st => st
  | .barAw _ _ st => st
  | .barTry _ _ _ _ st => st
  | .fence _ _ st => st
  | .ifence st => st
  | .icinv _ _ st => st
  | .copy _ _ _ _ st => st
  | .copyt _ _ _ st => st
  | .taskSub _ _ st => st
  | .taskSigAdd _ _ st => st
  | .taskSigSet _ _ st => st
  | .taskSigRd _ _ st => st
  | .taskWait _ st => st
  | .taskWaitTake _ st => st
  | .taskTry _ _ st => st
  | .taskTryTake _ _ st => st
  | .launch _ _ _ st => st
  | .replay _ _ _ st => st
  | .stepEnter _ st => st
  | .stepPub _ st => st
  | .verOpen _ st => st
  | .ckptFreeze _ _ st => st
  | .ckptStat _ _ st => st
  | .collOpen _ _ st => st
  | .collPut _ _ st => st
  | .collWait _ _ st => st
  | .collStat _ _ st => st
  | .tideRd _ _ _ st => st
  | .gauge _ _ st => st
  | .patLd _ _ _ st => st
  | .patNext _ st => st
  | .patDone _ st => st
  | .stashPut _ _ st => st
  | .stashGet _ _ st => st
  | .stashFree _ st => st
  | .trap _ _ st => st
  | .eret st => st
  | .brk _ _ st => st
  | .halt st => st
  | .map _ _ _ st => st
  | .unmap _ _ st => st
  | .tlbinv _ _ st => st
  | .fqPop _ _ st => st
  | .resume _ _ st => st
  | .ctxSave _ _ st => st
  | .ctxRest _ _ st => st
  | .barTryTimeout _ _ => 0
  | .teamPlace _ => 0
  | .dispatchSwap _ => 0
  | .parkedShareSwitch _ _ => 0
  | .engdrainExpiry _ => 0
  | .teamRetire _ => 0
  | .taskStart _ => 0
  | .jobComplete _ => 0
  | .jobPark _ => 0
  | .replayInstanceStart _ => 0
  | .contextTeardown _ => 0
  | .teamHalt _ => 0
  | .frameOpenRetry _ _ => 0
  | .framePublish _ _ => 0
  | .stalenessFault _ _ _ => 0
  | .wcbAgeDrain _ => 0
  | .wcbFlush => 0
  | .peerRequestReceive _ => 0
  | .peerResponseLand _ _ _ _ => 0
  | .peerAckLand _ _ _ _ => 0
  | .linkReplay _ => 0
  | .linkRetrain _ _ => 0
  | .moduleUnreachable _ => 0
  | .tideEnable _ => 0
  | .tideBeaconSend => 0
  | .tideBeaconReceive _ _ => 0
  | .tideLateExpiry _ => 0
  | .tideAbsentExpiry _ => 0
  | .collContributionArrival _ _ _ => 0
  | .collTimerClose _ _ => 0
  | .collCloseReceive _ _ => 0
  | .gaugeDigestReceive _ _ _ _ => 0
  | .partialArrival _ _ _ => 0
  | .combineWindowExpiry _ _ _ => 0
  | .ckptDrainEnd _ _ => 0
  | .patternSignalReceive _ _ => 0
  | .creditReceive _ => 0
  | .patternHandout => 0
  | .patcfgEnable _ => 0
  | .patcfgDisable _ => 0
  | .sampleTick => 0
  | .traceFrameSend _ => 0
  | .traceOverflowRecord _ => 0
  | .debugHalt _ => 0
  | .debugRelease _ => 0
  | .dbgdataRead => 0
  | .dbgdataWrite _ => 0
  | .freezePin => 0
  | .mgmtFreeze _ => 0
  | .jtagExtest _ => 0
  | .jtagIdcode => 0
  | .jtagSamplePreload _ => 0
  | .jtagFreeze _ => 0
  | .jtagDsel _ => 0
  | .jtagDdata _ => 0
  | .jtagBypass _ => 0
  | .hostFarRead _ _ => 0
  | .hostFarWrite _ _ => 0
  | .doorbell _ => 0
  | .msixUnmask _ => 0
  | .mgmtsemAcquire _ => 0
  | .mgmtsemRelease _ => 0
  | .mgmtLinkLossRelease _ => 0
  | .identity _ => 0
  | .attest _ _ => 0
  | .bringUp _ _ => 0
  | .keyLoad _ _ => 0
  | .keyEmpty _ _ => 0
  | .powerCapThrottle _ => 0
  | .thermalThrottle _ => 0
  | .thermalTrip _ => 0
  | .registerWrite _ _ _ _ => 0
  | .illegalInstruction _ => 0
  | .instructionFetchFault _ _ => 0
  | .pendingRegisterWrite _ _ _ _ => 0
  | .longWordUnitComplete _ _ => 0
  | .endToEndAckReceive _ _ => 0
  | .thermalThrottleRelease _ => 0

/-- The family of a word for R32, R37 and R332. -/
def familyOf (i : Instr) : Family :=
  match i with
  | .add _ _ _ _ _ => .body
  | .sub _ _ _ _ _ => .body
  | .mul _ _ _ _ _ => .body
  | .mad _ _ _ _ _ => .body
  | .and _ _ _ _ => .body
  | .or _ _ _ _ => .body
  | .xor _ _ _ _ => .body
  | .andn _ _ _ _ => .body
  | .shl _ _ _ _ => .body
  | .shr _ _ _ _ => .body
  | .sar _ _ _ _ => .body
  | .rot _ _ _ _ => .body
  | .min _ _ _ _ => .body
  | .max _ _ _ _ => .body
  | .cmp _ _ _ _ _ => .body
  | .sel _ _ _ _ _ => .body
  | .popc _ _ _ => .body
  | .clz _ _ _ => .body
  | .brev _ _ _ => .body
  | .bfe _ _ _ _ => .body
  | .mov _ _ _ => .body
  | .movc _ _ => .body
  | .addi _ _ _ _ => .body
  | .andi _ _ _ _ => .body
  | .shli _ _ _ _ => .body
  | .shri _ _ _ _ => .body
  | .sari _ _ _ _ => .body
  | .li _ _ _ => .body
  | .lih _ _ _ => .body
  | .fadd _ _ _ _ _ => .body
  | .fsub _ _ _ _ _ => .body
  | .fmul _ _ _ _ _ => .body
  | .ffma _ _ _ _ _ => .body
  | .fmin _ _ _ _ _ => .body
  | .fmax _ _ _ _ _ => .body
  | .fcmp _ _ _ _ _ => .body
  | .fsgn _ _ _ _ _ => .body
  | .cvtF _ _ _ _ _ _ => .body
  | .cvtFi _ _ _ _ _ => .body
  | .cvtIf _ _ _ _ _ => .body
  | .fclass _ _ _ _ => .body
  | .rcp _ _ _ _ => .body
  | .rsqrt _ _ _ _ => .body
  | .sqrt _ _ _ _ => .body
  | .exp2 _ _ _ _ => .body
  | .log2 _ _ _ _ => .body
  | .sin _ _ _ => .body
  | .cos _ _ _ => .body
  | .tanh _ _ _ => .body
  | .lgst _ _ _ => .body
  | .shfl _ _ _ _ _ => .cross
  | .voteAny _ _ _ => .cross
  | .voteAll _ _ _ => .cross
  | .voteBallot _ _ _ => .cross
  | .scan _ _ _ _ => .cross
  | .matchLanes _ _ _ _ => .cross
  | .elect _ _ => .cross
  | .reds _ _ _ _ => .cross
  | .redsAf _ _ _ _ _ => .cross
  | .redsInt _ _ _ _ _ => .cross
  | .bra _ _ _ => .lane
  | .brx _ _ => .lane
  | .lpad _ _ => .lane
  | .call _ _ => .lane
  | .ret _ => .lane
  | .reconv _ _ => .lane
  | .exit _ => .lane
  | .ldB _ _ _ _ _ _ => .lane
  | .ldH _ _ _ _ _ _ => .lane
  | .ldW _ _ _ _ _ _ => .lane
  | .ldD _ _ _ _ _ _ => .lane
  | .ldQ _ _ _ _ _ _ => .lane
  | .stB _ _ _ _ _ _ => .lane
  | .stH _ _ _ _ _ _ => .lane
  | .stW _ _ _ _ _ _ => .lane
  | .stD _ _ _ _ _ _ => .lane
  | .stQ _ _ _ _ _ _ => .lane
  | .ldv _ _ _ _ _ _ => .lane
  | .ldvTag _ _ _ _ _ _ => .lane
  | .atom _ _ _ _ _ _ => .lane
  | .red _ _ _ _ _ _ => .lane
  | .qopPop _ _ _ _ => .lane
  | .qopPush _ _ _ _ => .lane
  | .rand _ _ _ _ _ => .lane
  | .tcon _ _ _ _ _ _ => .lane
  | .sadd _ _ _ _ => .uniform
  | .ssub _ _ _ _ => .uniform
  | .smul _ _ _ _ _ => .uniform
  | .sand _ _ _ _ => .uniform
  | .sor _ _ _ _ => .uniform
  | .sxor _ _ _ _ => .uniform
  | .sandn _ _ _ _ => .uniform
  | .sshl _ _ _ _ => .uniform
  | .sshr _ _ _ _ => .uniform
  | .ssar _ _ _ _ => .uniform
  | .smin _ _ _ _ => .uniform
  | .smax _ _ _ _ => .uniform
  | .scmp _ _ _ _ _ _ => .uniform
  | .ssel _ _ _ _ _ _ => .uniform
  | .saddi _ _ _ _ => .uniform
  | .sli _ _ _ => .uniform
  | .slik _ _ _ _ => .uniform
  | .sld _ _ _ _ => .uniform
  | .sst _ _ _ _ => .uniform
  | .sbr _ _ _ => .uniform
  | .sloop _ _ _ => .uniform
  | .sjmp _ _ => .uniform
  | .clause _ _ => .strandU
  | .clend _ _ _ _ _ _ => .strandU
  | .mfsrUniform _ _ _ => .uniform
  | .mfsrLane _ _ _ _ => .strandU
  | .mtsrUniform _ _ _ => .uniform
  | .mtsrLane _ _ _ _ => .strandU
  | .wload _ _ _ _ _ _ => .seqU
  | .wswap _ => .seqU
  | .mma _ _ _ _ => .seqU
  | .mmac _ _ _ _ => .seqU
  | .accAlloc _ _ _ => .uniform
  | .accFree _ _ _ => .uniform
  | .accRd _ _ _ _ _ => .uniform
  | .accAnc _ _ _ _ => .uniform
  | .accFlg _ _ _ _ => .uniform
  | .tshape _ _ _ => .uniform
  | .tld _ _ _ _ => .uniform
  | .tst _ _ _ _ => .uniform
  | .barInit _ _ _ _ => .uniform
  | .barArr _ _ _ => .uniform
  | .barWait _ _ _ => .uniform
  | .barAw _ _ _ => .uniform
  | .barTry _ _ _ _ _ => .uniform
  | .fence _ _ _ => .uniform
  | .ifence _ => .uniform
  | .icinv _ _ _ => .uniform
  | .copy _ _ _ _ _ => .uniform
  | .copyt _ _ _ _ => .uniform
  | .taskSub _ _ _ => .uniform
  | .taskSigAdd _ _ _ => .uniform
  | .taskSigSet _ _ _ => .uniform
  | .taskSigRd _ _ _ => .uniform
  | .taskWait _ _ => .uniform
  | .taskWaitTake _ _ => .uniform
  | .taskTry _ _ _ => .uniform
  | .taskTryTake _ _ _ => .uniform
  | .launch _ _ _ _ => .uniform
  | .replay _ _ _ _ => .uniform
  | .stepEnter _ _ => .uniform
  | .stepPub _ _ => .uniform
  | .verOpen _ _ => .uniform
  | .ckptFreeze _ _ _ => .uniform
  | .ckptStat _ _ _ => .uniform
  | .collOpen _ _ _ => .uniform
  | .collPut _ _ _ => .uniform
  | .collWait _ _ _ => .uniform
  | .collStat _ _ _ => .uniform
  | .tideRd _ _ _ _ => .uniform
  | .gauge _ _ _ => .uniform
  | .patLd _ _ _ _ => .uniform
  | .patNext _ _ => .strandU
  | .patDone _ _ => .uniform
  | .stashPut _ _ _ => .uniform
  | .stashGet _ _ _ => .uniform
  | .stashFree _ _ => .uniform
  | .trap _ _ _ => .uniform
  | .eret _ => .uniform
  | .brk _ _ _ => .uniform
  | .halt _ => .uniform
  | .map _ _ _ _ => .system
  | .unmap _ _ _ => .system
  | .tlbinv _ _ _ => .system
  | .fqPop _ _ _ => .system
  | .resume _ _ _ => .system
  | .ctxSave _ _ _ => .system
  | .ctxRest _ _ _ => .system
  | .barTryTimeout _ _ => .event
  | .teamPlace _ => .event
  | .dispatchSwap _ => .event
  | .parkedShareSwitch _ _ => .event
  | .engdrainExpiry _ => .event
  | .teamRetire _ => .event
  | .taskStart _ => .event
  | .jobComplete _ => .event
  | .jobPark _ => .event
  | .replayInstanceStart _ => .event
  | .contextTeardown _ => .event
  | .teamHalt _ => .event
  | .frameOpenRetry _ _ => .event
  | .framePublish _ _ => .event
  | .stalenessFault _ _ _ => .event
  | .wcbAgeDrain _ => .event
  | .wcbFlush => .event
  | .peerRequestReceive _ => .event
  | .peerResponseLand _ _ _ _ => .event
  | .peerAckLand _ _ _ _ => .event
  | .linkReplay _ => .event
  | .linkRetrain _ _ => .event
  | .moduleUnreachable _ => .event
  | .tideEnable _ => .event
  | .tideBeaconSend => .event
  | .tideBeaconReceive _ _ => .event
  | .tideLateExpiry _ => .event
  | .tideAbsentExpiry _ => .event
  | .collContributionArrival _ _ _ => .event
  | .collTimerClose _ _ => .event
  | .collCloseReceive _ _ => .event
  | .gaugeDigestReceive _ _ _ _ => .event
  | .partialArrival _ _ _ => .event
  | .combineWindowExpiry _ _ _ => .event
  | .ckptDrainEnd _ _ => .event
  | .patternSignalReceive _ _ => .event
  | .creditReceive _ => .event
  | .patternHandout => .event
  | .patcfgEnable _ => .event
  | .patcfgDisable _ => .event
  | .sampleTick => .event
  | .traceFrameSend _ => .event
  | .traceOverflowRecord _ => .event
  | .debugHalt _ => .event
  | .debugRelease _ => .event
  | .dbgdataRead => .event
  | .dbgdataWrite _ => .event
  | .freezePin => .event
  | .mgmtFreeze _ => .event
  | .jtagExtest _ => .event
  | .jtagIdcode => .event
  | .jtagSamplePreload _ => .event
  | .jtagFreeze _ => .event
  | .jtagDsel _ => .event
  | .jtagDdata _ => .event
  | .jtagBypass _ => .event
  | .hostFarRead _ _ => .event
  | .hostFarWrite _ _ => .event
  | .doorbell _ => .event
  | .msixUnmask _ => .event
  | .mgmtsemAcquire _ => .event
  | .mgmtsemRelease _ => .event
  | .mgmtLinkLossRelease _ => .event
  | .identity _ => .event
  | .attest _ _ => .event
  | .bringUp _ _ => .event
  | .keyLoad _ _ => .event
  | .keyEmpty _ _ => .event
  | .powerCapThrottle _ => .event
  | .thermalThrottle _ => .event
  | .thermalTrip _ => .event
  | .registerWrite _ _ _ _ => .event
  | .illegalInstruction _ => .event
  | .instructionFetchFault _ _ => .event
  | .pendingRegisterWrite _ _ _ _ => .event
  | .longWordUnitComplete _ _ => .event
  | .endToEndAckReceive _ _ => .event
  | .thermalThrottleRelease _ => .event

/-- Words with a .f64 operand, which may occupy their port for two cycles (R206). -/
def hasF64 (i : Instr) : Bool :=
  match i with
  | .fadd _ _ _ t _ | .fsub _ _ _ t _ | .fmul _ _ _ t _ | .ffma _ _ _ t _ | .fmin _ _ _ t _ | .fmax _ _ _ t _ | .fcmp _ _ _ t _
  | .fclass _ _ t _ => t == 1
  | .rcp _ _ t _ | .rsqrt _ _ t _ | .sqrt _ _ t _ | .exp2 _ _ t _ | .log2 _ _ t _ => t == 1
  | .cvtF _ _ c _ _ _ => c.toNat % 4 == 1 || c.toNat / 4 % 4 == 1
  | .cvtFi _ _ c _ _ => c.toNat % 4 == 1
  | .cvtIf _ _ c _ _ => c.toNat / 4 % 4 == 1
  | .reds _ _ m _ | .redsAf _ _ _ m _ => m == 1
  | .tcon _ _ _ t _ _ => t == 1
  | _ => false

/-- U words, whose traps stop every issuing lane and record lane 0xFF (R135, R332). -/
def uniformWord (i : Instr) : Bool :=
  match familyOf i with
  | .uniform | .strandU | .seqU | .system => true
  | _ => false

/-- Acquires and releases of any scope, fences, barrier, rendezvous and cross-lane words, and `exit`: where a failed
read-like request is taken (R461). -/
def ordering (i : Instr) : Bool :=
  match i with
  | .ldB _ _ _ _ o _ | .ldH _ _ _ _ o _ | .ldW _ _ _ _ o _ | .ldD _ _ _ _ o _ | .ldQ _ _ _ _ o _ => o == 1
  | .stB _ _ _ _ o _ | .stH _ _ _ _ o _ | .stW _ _ _ _ o _ | .stD _ _ _ _ o _ | .stQ _ _ _ _ o _ => o == 2
  | .ldv _ _ _ _ o _ | .ldvTag _ _ _ _ o _ => o == 1
  | .atom _ _ _ _ o _ => o != 0
  | .red _ _ _ _ o _ => o == 2
  | .qopPop _ _ _ _ | .qopPush _ _ _ _ | .tcon _ _ _ _ _ _ => true
  | .fence _ _ _ | .barInit _ _ _ _ | .barArr _ _ _ | .barWait _ _ _ | .barAw _ _ _ | .barTry _ _ _ _ _ => true
  | .stepEnter _ _ | .stepPub _ _ | .collPut _ _ _ | .collWait _ _ _ | .collStat _ _ _ | .patDone _ _ | .stashFree _ _ => true
  | .taskSigAdd _ _ _ | .taskSigSet _ _ _ | .taskWait _ _ | .taskWaitTake _ _ | .taskTry _ _ _ | .taskTryTake _ _ _ => true
  | .copy _ _ _ _ _ | .copyt _ _ _ _ | .taskSub _ _ _ | .launch _ _ _ _ | .replay _ _ _ _ | .exit _ => true
  | i => familyOf i == .cross

/-- Releases and fences of system scope, which wait for earlier peer accesses (R165, R288, R419). -/
def systemRelease (i : Instr) : Bool :=
  match i with
  | .stB _ _ _ c o _ | .stH _ _ _ c o _ | .stW _ _ _ c o _ | .stD _ _ _ c o _ | .stQ _ _ _ c o _ => c == 6 && o == 2
  | .atom _ _ _ c o _ => c == 6 && (o == 2 || o == 3)
  | .red _ _ _ c o _ => c == 6 && o == 2
  | .fence p o _ => p == 6 && (o == 0 || o == 2)
  | .stepPub _ _ | .collPut _ _ _ | .patDone _ _ | .stashFree _ _ => true
  | _ => false

/-- Where a failed write-like request is taken: a release or fence of system scope, or `exit` (R461). -/
def takesWriteFault (i : Instr) : Bool :=
  match i with
  | .exit _ => true
  | .fence p _ _ => p == 6
  | i => systemRelease i

/-! ### What issuing a word does to its lanes -/

/-- What the scoreboard keeps of a word. -/
def Uses.effect (u : Uses) : Effect := { dests := u.dests, lat := u.lat, sf := u.sf }

/-- What issuing a word with these uses does to a lane (R17, R53, R201, R209, R212, R432). -/
def Lane.settle (now : Nat) (u : Uses) (st : BitVec 2) (p : Party) (before after : Lane) : Lane :=
  Lane.issued now u.effect st p before after

end Sys2Proof.Machine
end

