-- ==== Sys2Proof/Machine/Peer.lean ====
section
/-! DEFINITION. A core's way to the peers of its pod: the write-combining buffer (R287 to R289), request channels with
their slots and response lines (R406, R417, R418), and what system-scope releases wait for (R419). -/

namespace Sys2Proof.Machine

open Sys2Proof

/-- Core c. -/
def State.core (s : State) (c : Nat) : Core := FMap.get {} s.cores c
/-- Writes core c. -/
def State.setCore (s : State) (c : Nat) (x : Core) : State := { s with cores := FMap.set {} s.cores c x }
/-- The channel of a core to a module. -/
def Core.chan (c : Core) (m : Nat) : Channel := FMap.get {} c.chans m
/-- Writes a channel. -/
def Core.setChan (c : Core) (m : Nat) (x : Channel) : Core := { c with chans := FMap.set {} c.chans m x }

/-- Response lines reserved by a core: one for each read-like request outstanding (R406, R418). -/
def Core.lines (c : Core) : Nat := (c.chans.map fun (e : Nat × Channel) => (e.2.out.filter (·.reads)).length).sum

/-- The head of a channel's queue may leave: no earlier request of its word waits, a slot is free and, for a read-like
request, a response line (R406, R418); not while a channel that starts anew still drains (R424). -/
def Core.mayLeave (c : Core) (m : Nat) : Bool :=
  match (c.chan m).waiting with
  | [] => false
  | o :: _ => decide ((c.chan m).out.length < 8) && (!o.reads || decide (c.lines < 64))
      && !((c.chan m).restart && !(c.chan m).out.isEmpty)
      && c.chans.all fun (e : Nat × Channel) => e.2.waiting.all fun p => !(p.tag == o.tag && decide (p.index < o.index))

/-! ### Routes (R411 to R414, R422) -/

/-- System module number of this module (R362). -/
def State.systemModule (s : State) : Nat := 1024 * s.pod + s.module

/-- A system module is unreachable (R422). -/
def State.lost (s : State) (m : Nat) : Bool := FMap.get false s.fab.unreachable m

/-- A port as bring-up step 4 trains it: at ×4, or a UALink port degraded to ×2 or ×1, or lost (R422, R454). DESIGN CHOICE: what the
far end lets it come to is free (log 44). -/
def trainedPort (p : Nat) : Port :=
  let w := Config.trainedWidth p
  if w = 4 then { state := 2, width := 4 }
  else if p < 24 ∧ (w = 2 ∨ w = 1) then { state := 3, width := BitVec.ofNat 3 w }
  else { state := 4 }

/-- Port p. -/
def State.port (s : State) (p : Nat) : Port := (FMap.get none s.fab.ports p).getD (trainedPort p)

/-- A port is up. -/
def Port.up (p : Port) : Bool := p.state == 2 || p.state == 3

/-- The number under which the model keeps the stream sink at endpoint e, beside the system modules, which have 17 bits (R362,
R414). -/
def sinkOf (e : Nat) : Nat := 2 ^ 17 + e % 2 ^ 16

/-- The entry of the endpoint table for a destination: of system module e, or of the endpoint of a sink (R414). -/
def State.endpoint (s : State) (e : Nat) : BitVec 256 :=
  if s.ctrl.ueptValid then BitVec.ofNat 256 (Mem.read s.near (s.ctrl.ueptBase.toNat * 2 ^ 21 + 32 * (e % 2 ^ 17)) 32) else 0

/-- The entry under which traffic to an endpoint goes: that of its open connection, else the table's (R414). -/
def State.connection (s : State) (e : Nat) : BitVec 256 := (FMap.get none s.fab.conns e).getD (s.endpoint e)

/-- Kind of an endpoint; with UEPT.valid 0 no module of another pod is reachable (R414, R415). -/
def State.endpointKind (s : State) (e : Nat) : Nat := if s.ctrl.ueptValid then (s.connection e).toNat % 4 else 0

/-- A connection to an endpoint is open (R414). -/
def State.connect (s : State) (e : Nat) : State :=
  { s with fab := { s.fab with conns := FMap.set none s.fab.conns e (some (s.connection e)) } }

/-- A connection to a module of another pod is open before a unit goes to it (R414). -/
def State.openTo (s : State) (m : Nat) : State :=
  if m / 1024 = s.pod ∨ (FMap.get none s.fab.conns m).isSome then s else s.connect m

/-- The connection to an endpoint is closed; the next one reads its entry anew (R414). -/
def State.disconnect (s : State) (e : Nat) : State := { s with fab := { s.fab with conns := FMap.set none s.fab.conns e none } }

/-- Ethernet ports that an endpoint entry permits (R414). -/
def etherPorts (entry : BitVec 256) : List Nat :=
  (List.range 4).filterMap fun i => if entry.extractLsb' 4 4 == 0 || entry.getLsbD (4 + i) then some (24 + i) else none

/-- Ports that are up and give a route to a system module: in the pod the planes whose port is up at the target too, beyond it the
Ethernet ports of its connection (R411, R412, R414, R422). -/
def State.routePorts (s : State) (m : Nat) : List Nat :=
  if m / 1024 = s.pod then (List.range 24).filter fun p => (s.port p).up && !Config.planeDown s.free p (m % 1024)
  else (etherPorts (s.connection m)).filter fun p => (s.port p).up

/-- One of some ports. -/
def State.pickPort (s : State) (ps : List Nat) : Option Nat :=
  match ps with
  | [] => none
  | [p] => some p
  | ps => ps[Config.portPick s.free % ps.length]?

/-- A unit leaves for a system module over a route, if there is one; the port that it takes. A message or bulk unit has an end-to-end
number (R423). -/
def State.transmit (s : State) (m : Nat) (c : Traffic) (p : Packet) (number : Nat := 0) : State × Option Nat :=
  match s.pickPort (s.routePorts m) with
  | none =>
    (if FMap.get 0 s.fab.routeless m = 0 then { s with fab := { s.fab with routeless := FMap.set 0 s.fab.routeless m (s.now + 1) } } else s
    , none)
  | some port =>
    let entry := if m / 1024 = s.pod then 0 else s.connection m
    (State.send { s with fab := { s.fab with routeless := FMap.set 0 s.fab.routeless m 0 } }
      (.routed { traffic := c, port := port, number := number, endpoint := entry } p), some port)

/-- A turn queued for a machine event. -/
def State.later (s : State) (i : Instr) : State := { s with agenda := s.agenda ++ [.event i] }

/-- The error with which a request ends: a response or an acknowledgement (R424). -/
def requestError (r : PeerReq) (detail : Nat) : Instr :=
  match r.op with
  | .store | .red => .peerAckLand r.core r.dst r.seq (some detail)
  | _ => .peerResponseLand r.core r.dst r.seq (.error detail)

/-- A request leaves: a request to the module itself is received here, one to an unreachable module ends with detail 5, any
other goes out on the request class (R267, R424). -/
def State.emit (s : State) (r : PeerReq) : State × Option Nat :=
  if r.dst = s.module then (s.later (.peerRequestReceive r), none)
  else if s.lost (1024 * s.pod + r.dst) then (s.later (requestError r 5), none)
  else s.transmit (1024 * s.pod + r.dst) .request (.request r)

/-- The head of the queue takes a slot and the channel's next sequence number (R406, R417). -/
def State.leaveOne (s : State) (c m : Nat) : State × Option Outstanding :=
  let ch := (s.core c).chan m
  match ch.waiting with
  | [] => (s, none)
  | o :: rest =>
    let seq := if ch.restart then 0 else ch.nextSeq
    let r := s.emit { o.req with seq := seq }
    let o := { o with req := { o.req with seq := seq }, port := r.2 }
    let ch := { ch with waiting := rest, out := ch.out ++ [o], nextSeq := seq + 1, issued := ch.issued + 1, restart := false }
    (r.1.setCore c ((r.1.core c).setChan m ch), some o)

/-- Whether requests of a word still wait on a core. -/
def Core.stands (c : Core) (tag : Nat) : Bool := c.chans.any fun (e : Nat × Channel) => e.2.waiting.any fun o => o.tag == tag

/-- Requests leave while they may; the words whose last request has left (R406). -/
def State.pump (s : State) (c : Nat) : Nat → State × List Outstanding
  | 0 => (s, [])
  | n + 1 =>
    match (s.core c).chans.find? fun (e : Nat × Channel) => (s.core c).mayLeave e.1 with
    | none => (s, [])
    | some e =>
      let r := s.leaveOne c e.1
      let q := r.1.pump c n
      match r.2 with
      | some o => (q.1, if (r.1.core c).stands o.tag then q.2 else o :: q.2)
      | none => q

/-- Number of requests that wait on a core. -/
def Core.waitingCount (c : Core) : Nat := (c.chans.map fun (e : Nat × Channel) => e.2.waiting.length).sum

/-- Lanes whose trap saved them at a word whose requests bear a number wait no more; with a pc, they stand there (R340, R406). -/
def Party.wakeSaved (p : Party) (tag : Nat) (ls : List Nat) (pc : Option W64) : Party :=
  match p.save with
  | none => p
  | some v =>
    let hit := ls.filter fun l => FMap.get Wait.none v.waits l == .slots tag
    let waits := hit.foldl (fun (m : FMap Wait) l => FMap.set .none m l .none) v.waits
    { p with save := some { v with waits := waits, pcs := match pc with
        | none => v.pcs
        | some a => hit.foldl (fun (m : FMap W64) l => FMap.set 0 m l a) v.pcs } }

/-- Lanes that stand at a word waiting for slots go on: it counts as issued (R17, R406). -/
def State.wordLeft (s : State) (o : Outstanding) : State :=
  match o.word with
  | none => s
  | some i =>
    let T := s.team o.team
    let P := T.party o.party
    let u := usesOf T.hdr.width (fun _ => 0) i
    let ls := o.lanes.filter fun l => (P.lane l).wait == .slots o.tag
    let Q := P.mapLanes ls fun _ x => Lane.settle s.now { u with vd := [], sd := [] } (stallOf i) P x x.next
    let s := s.setParty o.team o.party (Q.wakeSaved o.tag o.lanes (some (o.pc + 4)))
    if ls.isEmpty then s else s.countIssue o.team o.party ls

/-- Requests leave after a slot was freed, and their words go on (R406). -/
def State.pumpAll (s : State) (c : Nat) : State :=
  let r := s.pump c (s.core c).waitingCount
  r.2.foldl State.wordLeft r.1

/-- Puts requests behind those that already wait on a channel. -/
def State.enqueue (s : State) (c m : Nat) (os : List Outstanding) : State :=
  let K := s.core c
  let ch := K.chan m
  s.setCore c (K.setChan m { ch with waiting := ch.waiting ++ os })

/-! ### The write-combining buffer -/

/-- Bytes that a line holds, by offset: value, and the team, party, lane and address of the store that wrote it last. -/
def WcbLine.held (l : WcbLine) : List (Nat × W8 × Nat × Nat × Nat × W64) :=
  l.bytes.filterMap fun (e : Nat × Option (W8 × Nat)) => e.2.map fun b => (e.1, b.1, (l.parties[b.2]?).getD (0, 0, 0, 0))

/-- The request that a drained line makes: its written bytes as one group, each with the lane that wrote it (R288, R416). Of its stores the
first one's word stands for it where a stall is blamed on it (R408). -/
def drainRequest (s : State) (c : Nat) (l : WcbLine) : Outstanding :=
  { req := { src := s.module, dst := l.module, core := c, asid := l.asid, seq := 0, op := .store, code := 0, ty := 0
             strand := (l.held.head?.map fun e => partyIndex e.2.2.2.1).getD 0
             lanes := l.held.map fun e => { lane := e.2.2.2.2.1, addr := w64 (l.line + e.1), size := 1, x := e.2.1.toNat, y := 0 } }
    team := 0, party := 0, pc := l.pc, word := none, tag := 0, dests := [], lanes := [], carried := l.parties, stamps := l.stamps, reads := false
    index := 0, fetch := false }

/-- Drains the lines of a core that satisfy p, oldest first (R288). -/
def State.drain (s : State) (c : Nat) (p : WcbLine → Bool) : State :=
  let K := s.core c
  let ls := K.wcb.filter p
  let s := s.setCore c { K with wcb := K.wcb.filter fun l => !p l }
  ls.foldl (fun s l => (s.enqueue c l.module [drainRequest s c l]).pumpAll c) s

/-- The line's stores by one of the given parties. -/
def WcbLine.heldFor (l : WcbLine) (t k : Nat) (ls : List Nat) : Bool :=
  l.parties.any fun q => q.1 == t && q.2.1 == k && ls.contains q.2.2.1

/-- Whether a line holds the 128 target bytes of an address. -/
def WcbLine.covers (l : WcbLine) (m : Nat) (asid : BitVec 16) (addr : Nat) : Bool :=
  l.module == m && l.asid == asid && l.line == addr / 128 * 128

/-- A plain store of n bytes for the given lanes enters the line of its peer, ASID and target line, the line held longest draining
first when all 32 are held; a full line drains (R287, R288). -/
def State.combine (s : State) (c t k : Nat) (ls : List Nat) (m : Nat) (asid : BitVec 16) (addr n v : Nat) (va : W64) : State :=
  let s := if (s.core c).wcb.any (·.covers m asid addr) || decide ((s.core c).wcb.length < 32) then s
    else match (s.core c).wcb with
      | [] => s
      | l :: _ => s.drain c (· == l)
  let K := s.core c
  let old : WcbLine := (K.wcb.find? (·.covers m asid addr)).getD
    { module := m, asid := asid, line := addr / 128 * 128, bytes := [], since := s.now, parties := [], pc := ((s.party t k).lane (ls.head?.getD 0)).pc }
  let before := fun (g : Nat) => match (s.party t k).save with | none => false | some v => decide (g ≤ v.free)
  let listed := fun (q : Nat × Nat × Nat × W64) (e : (Nat × Nat × Nat × W64) × Nat) => e.1 == q && !before e.2
  let fresh := (ls.map fun l => (t, k, l, va)).filter fun q => !(old.parties.zip old.stamps).any (listed q)
  let parties := old.parties ++ fresh
  let stamps := old.stamps ++ fresh.map fun _ => s.free
  let who := ((parties.zip stamps).findIdx? (listed (t, k, ls.head?.getD 0, va))).getD 0
  let new : WcbLine := { old with
    bytes := (List.range n).foldl (fun b i => FMap.set none b (addr % 128 + i) (some (BitVec.ofNat 8 (v / 2 ^ (8 * i)), who))) old.bytes
    parties := parties, stamps := stamps }
  let wcb := if K.wcb.contains old then K.wcb.map fun l => if l == old then new else l else K.wcb ++ [new]
  let s := s.setCore c { K with wcb := wcb }
  if new.held.length = 128 then s.drain c (· == new) else s

/-! ### System-scope releases -/

/-- Whether an earlier peer access of the lanes is unanswered: a request of any core, waiting or outstanding, a drained line's among
them (R419). -/
def State.peerBusy (s : State) (t k : Nat) (ls : List Nat) : Bool :=
  s.cores.any fun (c : Nat × Core) => c.2.chans.any fun (e : Nat × Channel) => (e.2.out ++ e.2.waiting).any fun o =>
    o.carried.any fun q => q.1 == t && q.2.1 == k && ls.contains q.2.2.1

/-- A release or fence of system scope drains the lines that hold the issuing lanes' stores; the lanes then wait for the
acknowledgements and responses of their earlier peer accesses (R165, R288, R419). -/
def State.releaseSystem (s : State) : State :=
  let s := s.drain s.curParty.core (·.heldFor s.cur.team s.cur.party s.cur.lanes)
  if s.peerBusy s.cur.team s.cur.party s.cur.lanes then s.hold .release
  else s.mapLanes fun _ x => if x.wait == .release then x.hold .none else x

end Sys2Proof.Machine
end

