-- ==== Sys2Proof/Machine/Gate.lean ====
section
/-! DEFINITION. What every word goes through before and after its own effect: breakpoints (R431), the illegal-instruction
checks that depend on the party (R33), errors of earlier peer requests (R461), uncorrectable registers (R351), undersized
reads (R209 to R211), stall counts and the scoreboard (R17, R212), and the skid of a trap (R338). -/

namespace Sys2Proof.Machine

open Sys2Proof

/-- Distinct elements in order of first appearance. -/
def dedup {α : Type} [BEq α] (xs : List α) : List α := xs.foldl (fun a x => if a.contains x then a else a ++ [x]) []

/-- `State.cur` names lanes of a live, resident team that have not exited. -/
def State.issuing (s : State) : Bool :=
  s.curTeam.live && s.curTeam.resident && !s.cur.lanes.isEmpty && s.cur.lanes.all fun l => !(s.curParty.lane l).exited

/-- The breakpoint that a lane matches at its word, if any (R430 to R432). -/
def State.breakAt (s : State) (l : Nat) : Option Nat :=
  let P := s.curParty
  let L := P.lane l
  if L.pass then none
  else (List.range 8).find? fun n =>
    let b := FMap.get 0 s.dbg.bp n
    b.getLsbD 70 && b.extractLsb' 112 16 == s.curTeam.asid && b.extractLsb' 0 64 == L.pc
      && (P.seq || b.getLsbD 71 || (b.extractLsb' 64 6).toNat == l)

/-! ### Causes of R33 -/

/-- A reserved control word of `ldv`, `atom` or `red` (R102, R103, R105, R107). -/
def controlReserved (i : Instr) (ctl : BitVec 3 → Nat) : Bool :=
  match i with
  | .ldv _ _ b _ _ _ => let c := ctl b; decide (c ≥ 2 ^ 48) || bits c 15 8 != 0 || bits c 7 3 != 0 || decide (c % 8 > 4)
  | .ldvTag _ _ b _ _ _ => let c := ctl b; decide (c ≥ 2 ^ 16) || bits c 7 3 != 0 || decide (c % 8 > 4)
  | .atom _ _ b _ _ _ =>
    let c := ctl b
    decide (c ≥ 2 ^ 7) || decide (c % 16 > 7) || decide (bits c 6 4 > 4) || (bits c 6 4 == 4 && c % 16 != 7)
  | .red _ _ b _ _ _ =>
    let c := ctl b
    decide (c ≥ 2 ^ 16) || decide (c % 16 > 7)
      || (if c % 16 = 6 then decide (bits c 6 4 > 1)
          else decide (bits c 15 7 ≠ 0) || (if c % 16 = 7 then bits c 6 4 != 0 else decide (bits c 6 4 > 3)))
  | _ => false

/-- Whether the word may issue from the party's stream (R32). A clause header or trailer is judged with its structure, whose
detail is lower (R33, R37). -/
def streamOk (i : Instr) (seq : Bool) : Bool :=
  match i with
  | .clause .. | .clend .. => true
  | i => match familyOf i with
  | .body | .cross | .lane | .strandU => !seq
  | .seqU => seq
  | .uniform | .system | .event => true

/-- A special register held per lane (R27). -/
def srLane (r : Nat) : Bool := r == 0 || r == 8
/-- A 64-bit special register (R27). -/
def srWide (r : Nat) : Bool := r == 7 || r == 10 || r == 11 || r == 12
/-- A special register that a sequencer context does not hold (R27). -/
def srNotSeq (r : Nat) : Bool := r == 0 || r == 8 || r == 9 || r == 11
/-- Whether a write is allowed at a level (R27). -/
def srWritable (r : Nat) (sup : Bool) : Bool :=
  r == 8 || r == 9 || (sup && (r == 10 || r == 11 || r == 12 || r == 14 || r == 15))

/-- A special-register access that R27 or R28 forbids (detail 9). -/
def srForbidden (i : Instr) (seq sup : Bool) : Bool :=
  match i with
  | .mfsrUniform _ r _ => srLane r.toNat || (seq && srNotSeq r.toNat)
  | .mfsrLane _ _ r _ => srWide r.toNat
  | .mtsrUniform _ r _ => srLane r.toNat || (seq && srNotSeq r.toNat) || !srWritable r.toNat sup
  | .mtsrLane _ _ r _ => srWide r.toNat || !srWritable r.toNat sup
  | _ => false

/-- A privileged operation (R32, R187, R188). -/
def privileged (i : Instr) : Bool :=
  match i with
  | .eret _ => true
  | i => familyOf i == .system

/-- An entry that `map` accepts (R188, R325). -/
def entryOk (e : Nat) : Bool := if e % 4 = 0 then !absentBad e else (if e % 4 = 1 then tableOk e 256 else leafOk e)

/-- The lanes `ls` of a party that stand at an incomplete long word: one of them, with all the word's units (R134). -/
def Party.incomplete (p : Party) (ls : List Nat) : Option (Nat × Nat) :=
  (ls.find? fun l => (p.lane l).units != 0).map fun l => (l, (p.lane l).units)

/-- A progress index above the units of the word at which the lanes stand (R134). -/
def Party.indexReserved (p : Party) (ls : List Nat) (v : Nat) : Bool :=
  match p.incomplete ls with | none => false | some e => decide (e.2 < v)

/-- A value that is reserved in special register r of a party; `ls` are lanes that may stand at a long word (R131 to R134). -/
def Team.specialReserved (T : Team) (P : Party) (ls : List Nat) (r v : Nat) : Bool :=
  match r with
  | 9 => decide (4 < v % 8)
  | 10 => !(T.hdr.width == 64 && !P.seq) && P.indexReserved ls (v / 2 ^ 32)
  | 11 =>
    let b := v % 2 ^ 32
    b % 64 != 0 || decide (T.hdr.stack < b) || P.active.any fun l => decide (b / (8 * T.hdr.width) < (P.lane l).depth)
  | 12 => decide (14 ≤ v / 2 ^ 60)
  | 15 => P.indexReserved ls (v % 2 ^ 32)
  | _ => false

/-- The lanes of the issuing party that do not issue and so may stand at an incomplete word. -/
def State.standing (s : State) : List Nat := s.curParty.active.filter fun l => !s.cur.lanes.contains l

/-- The value that `mtsr` writes: of the lowest issuing lane in the lane form (R131). -/
def State.writtenSpecial (s : State) (i : Instr) : Option (Nat × Nat) :=
  match i with
  | .mtsrUniform d r _ => if srLane r.toNat then none else some (r.toNat, (s.rdS d.toNat).toNat)
  | .mtsrLane d h r _ => some (r.toNat, ((s.curParty.lane s.firstLane).rd s.free s.firstLane (64 * h.toNat + d.toNat)).toNat)
  | _ => none

/-- A word that some other detail of R33 may also stop, with a register value that R131, R187, R188 or R189 calls reserved; a
save area that is not a multiple of 4 KiB counts as one (log 43). So do the byte count, the counter word and the launch word that
R170, R171 and R173 reserve (R159). -/
def State.valueReserved (s : State) (i : Instr) : Bool :=
  match i with
  | .map _ a _ _ => !entryOk (s.rdS (a.toNat + 1)).toNat
  | .tlbinv _ b _ => bits (s.rdS b.toNat).toNat 17 16 == 3
  | .ctxSave a b _ =>
    let slot := (s.rdS a.toNat).toNat % 64
    slot == s.curTeam.slot || !(s.ctx slot).resident || (s.rdS b.toNat).toNat % 4096 != 0
  | .copy _ b _ _ _ =>
    let n := (s.rdS b.toNat).toNat
    n == 0 || decide (2 ^ 32 < n) || bits (s.rdS (b.toNat + 1)).toNat 63 13 != 0
  | .copyt _ b _ _ => bits (s.rdS (b.toNat + 1)).toNat 63 13 != 0
  | .launch _ a _ _ => bits (s.rdS (a.toNat + 1)).toNat 63 51 != 0
  | .ctxRest a b _ => (s.ctx ((s.rdS a.toNat).toNat % 64)).resident || (s.rdS b.toNat).toNat % 4096 != 0
  | i =>
    match s.writtenSpecial i with
    | none => false
    | some e => !(s.curParty.seq && srNotSeq e.1) && s.curTeam.specialReserved s.curParty s.standing e.1 e.2

/-- A reserved value in the word, in its control word or in a register that it reads (detail 3 of R33). -/
def State.reservedIn (s : State) (i : Instr) : Bool :=
  !wellFormed i || controlReserved i s.control || s.valueReserved i
    || (match i with | .tcon .. => s.curTeam.hdr.width != 64 | _ => false)

/-- A clause temporary named by lanes of which none stands in a clause (detail 5 of R33). -/
def State.tempOutside (s : State) (u : Uses) : Bool :=
  (u.vs ++ u.vd).any isTemp && s.cur.lanes.all fun l => (s.curParty.lane l).clause.isNone

/-- The lowest detail of R33 that applies to the word as a whole at the issuing party. -/
def State.wordDetail (s : State) (i : Instr) (u : Uses) : Option Nat :=
  let P := s.curParty
  let V := s.curTeam.hdr.vregs
  if s.reservedIn i then some 3
  else if !(u.vs ++ u.vd).all (groupOk V) || !(u.ss ++ u.sd).all pairOk then some 4
  else if s.tempOutside u then some 5
  else if !streamOk i P.seq then some 7
  else if privileged i && !P.priv then some 8
  else if srForbidden i P.seq P.priv then some 9
  else none

/-! ### Causes in single lanes -/

/-- The error response that a lane takes at this word, if any (R461). -/
def Lane.dueError (L : Lane) (i : Instr) (u : Uses) : Option PeerFault :=
  L.errors.find? fun e =>
    !e.held && if e.write then takesWriteFault i
    else e.next || ordering i || e.regs.any fun r => u.sources.contains r || u.dests.contains r

/-- The word reads state of the lane that is in uncorrectable error: a register, a flag, or its cached return stack (R351). -/
def Lane.ownBad (L : Lane) (i : Instr) (u : Uses) : Bool :=
  (u.sources.any fun r => L.bad.contains r) || (L.stackBad && (match i with | .ret _ => true | _ => false))

/-- Why a lane that is to issue a word traps at it first: a temporary outside a clause (R33, detail 5), an error of an
earlier peer request (R461), a register in uncorrectable error (R351), or an undersized read under the checking
scoreboard (R211). DESIGN CHOICE: of several undersized reads of one word, info names the producer of the first in the order of the
word's sources (log 80). -/
def State.laneCause (s : State) (i : Instr) (u : Uses) (l : Nat) : Option Cause :=
  let L := s.curParty.lane l
  if L.clause.isNone && (u.vs ++ u.vd).any isTemp then some { kind := 1, detail := 5 }
  else match L.dueError i u with
  | some e => some { kind := 5, detail := e.detail, info := e.info.toNat, acc := e.acc }
  | none =>
    if L.ownBad i u then some { kind := 5, detail := 4 }
    else if s.curCtx.control.getLsbD 3 then
      match u.sources.findSome? fun r => (L.pendOf r).bind fun e => if e.early then some e else none with
      | some e => some { kind := 10, detail := 0, info := e.producer.toNat }
      | none => none
    else none

/-- Exported registers that the word names and whose values a peer still owes (R130). -/
def Lane.owedExports (L : Lane) (u : Uses) : List RegRef :=
  (L.pend.filter fun e => e.exported && e.tag != 0 && !e.written && (u.sources.contains e.reg || u.dests.contains e.reg)).map (·.reg)

/-- Exported registers for which issuing lanes wait before the word (R130). -/
def State.owedExports (s : State) (u : Uses) : List RegRef := dedup (s.cur.lanes.flatMap fun l => (s.curParty.lane l).owedExports u)

/-- The lane has taken its due error, and the exported registers that the word names are written (R130, R461). -/
def Lane.prepare (L : Lane) (i : Instr) (u : Uses) : Lane :=
  { L with
    errors := match L.dueError i u with | some e => L.errors.erase e | none => L.errors
    pend := L.pend.filter fun e => !(e.exported && (e.tag == 0 || e.written) && (u.sources.contains e.reg || u.dests.contains e.reg)) }

/-! ### The gate -/

/-- The stall bits of a lane's own word: of the `reconv` at which it waited, when the last word to come released it (R53, R94). -/
def Lane.stall (x : Lane) (i : Instr) : BitVec 2 := match x.wait with | .reconv _ st => st | _ => stallOf i

/-- Lanes of the issuing party that went past the word settle, and those that began it have issued it: the rest of the strand counts it,
and so does its skid (R17, R201, R338). A long word is issued with its first unit and passed with its last. -/
def State.settle (s : State) (i : Instr) (u : Uses) (before : State) : State :=
  let P := s.curParty
  let P0 := before.curParty
  let begun := if (P0.lane before.firstLane).unit = 0 then s.cur.lanes.filter fun l => (P.lane l).wait == .none else []
  let went := s.cur.lanes.filter fun l => (P.lane l).wait == .none && (P.lane l).units == 0
  if begun.isEmpty && went.isEmpty then s
  else
    let Q := P.mapLanes begun fun _ x => { x with skipped := 0 }
    let Q := Q.mapLanes went fun l x => Lane.settle s.now u ((P0.lane l).stall i) P0 (P0.lane l) x
    let s := s.setCurParty (if went.isEmpty then Q else { Q with peerBuf := [], refused := [] })
    if begun.isEmpty then s else s.countIssue s.cur.team s.cur.party begun

/-- Traps of single lanes in ascending lane order (R332); a uniform word traps as a whole. -/
def State.takeCauses (s : State) (uniform : Bool) (cs : List (Nat × Cause)) : State :=
  cs.foldl (fun s c => s.takeTrap [c.1] (if uniform then 0xFF else s.laneField c.1) c.2) s

/-- A word that would trap within the skid of an earlier cycle does not issue: its lanes stop before it (R338). A word
whose trace record has no room in debug stall mode waits (R440). -/
def State.close (s before : State) : State :=
  let d := s.traceDie (dieOf before.curParty.core)
  let lost := d.lost != 0 && d != before.traceDie (dieOf before.curParty.core)
  let traced := if before.dbg.trcStall && lost then before.hold .trace else s
  match before.curTeam.halt with
  | .skid _ since =>
    if s.cur.trapped && since != s.now then
      { before with cur := { before.cur with trapped := true } }.hold .stopped
    else traced
  | .debugSkid since =>
    if s.cur.trapped && since != s.now then { before with cur := { before.cur with trapped := true } }.hold .stopped else traced
  | _ => traced

/-- `eret`, whose lanes go back to their saved state instead of past it. -/
def returns (i : Instr) : Bool := match i with | .eret _ => true | _ => false

/-- Special-function results pending at a handler's entry are written before its first special-function word, and 40 cycles after
the entry at the latest (R341). -/
def State.drainFor (s : State) (u : Uses) : State :=
  if s.curParty.drains then s.setCurParty (s.curParty.drained (u.sf && s.curParty.save.isSome) s.now) else s

/-- The state in which a word is looked at: the free value counts on, and nothing has trapped yet. -/
def State.begin (s : State) : State := { s with cur := { s.cur with trapped := false }, free := s.free + 1 }

/-- The word acts for the listed lanes alone. -/
def State.only (s : State) (ls : List Nat) : State := { s with cur := { s.cur with lanes := ls } }

/-- Lanes that match a breakpoint at the word, with the trap of R431. -/
def State.hits (s : State) : List (Nat × Cause) :=
  s.cur.lanes.filterMap fun l => (s.breakAt l).map fun n => (l, ({ kind := 9, detail := 1, info := 2 ^ 31 + n } : Cause))

/-- Those lanes pass the breakpoint when they come back to it (R432). -/
def State.passHits (s : State) (hits : List (Nat × Cause)) : State :=
  if hits.isEmpty then s
  else s.setCurParty (s.curParty.mapLanes (hits.map (·.1)) fun _ x => { x with pass := true })

/-- Lanes that trap before the word, with their causes. -/
def State.causes (s : State) (i : Instr) (u : Uses) : List (Nat × Cause) :=
  s.cur.lanes.filterMap fun l => (s.laneCause i u l).map fun c => (l, c)

/-- The error count rises for a register in uncorrectable error that the word reads (R351, R458). -/
def State.countBad (s : State) (i : Instr) (u : Uses) : State :=
  if s.cur.lanes.any fun l => (s.curParty.lane l).ownBad i u then s.countUncorrected else s

/-- `eret` has issued in the lanes that ran the handler: their scoreboard and stall count go on from it (R17, R53, R187). -/
def State.settleReturn (s : State) (i : Instr) (before : State) : State :=
  let P0 := before.curParty
  let Q := s.curParty.mapLanes before.cur.lanes fun l x =>
    { x with ready := s.now + weight (stallOf i), pend := agePend {} (stallOf i) P0 (P0.lane l) x.pend, skipped := 0
             lastPc := (P0.lane l).pc }
  (s.setCurParty Q).countIssue s.cur.team s.cur.party before.cur.lanes

/-- The word's own effect on the lanes that issue it: a release of system scope drains and waits first (R419). -/
def State.act (s : State) (i : Instr) (u : Uses) (body : State → State) : State :=
  let b := if systemRelease i then s.releaseSystem else s
  if systemRelease i && (b.curParty.lane b.firstLane).wait == .release then b
  else if returns i then (if b.curParty.save.isSome then (body b).settleReturn i b else body b)
  else (body b).settle i u b

/-- The word behind the checks of R33, R130, R211, R351 and R461: it waits for an export that it names; lanes that trap before it are
left out, the word acts on the rest, and then the traps are taken. -/
def State.guarded (s : State) (i : Instr) (u : Uses) (body : State → State) : State :=
  match s.wordDetail i u with
  | some d => s.illegal (uniformWord i) d
  | none =>
    if !(s.owedExports u).isEmpty then s.hold (.exported (s.owedExports u))
    else
    let cs := s.causes i u
    let go := if uniformWord i && !cs.isEmpty then [] else s.cur.lanes.filter fun l => (s.laneCause i u l).isNone
    let p := (s.countBad i u).mapLanes fun _ x => x.prepare i u
    let r := if go.isEmpty then p else (p.only go).act i u body
    match uniformWord i, cs with
    | true, c :: _ => (r.only s.cur.lanes).trapUniform c.2
    | _, cs => r.takeCauses false cs

/-- Runs a word for the issuing lanes that stand at no breakpoint; the others trap after it (R431). -/
def State.run (s : State) (i : Instr) (body : State → State) : State :=
  let b := s.begin.drainFor (s.uses i)
  let rest := b.cur.lanes.filter fun l => (b.breakAt l).isNone
  let p := b.passHits b.hits
  let r := if rest.isEmpty then p else (p.only rest).guarded i (b.uses i) body
  (r.takeCauses (uniformWord i) b.hits).close b

/-- The meaning of a word: its effect `body` behind the checks of `State.run`; a fault when no live team issues. -/
def gate (i : Instr) (s : State) (body : State → State) : Host.Outcome State Fault Refusal :=
  if s.issuing then .next (s.run i body) else .fault .noIssuingParty

/-- The module runs: bring-up has reached step 5 (R454), and it is not frozen (R443). -/
def State.running (s : State) : Bool := s.host.rststat == 5 && !s.host.frozen

/-- The meaning of a machine event: it completes, and acts while the module runs. -/
def event (s : State) (effect : State → State) : Host.Outcome State Fault Refusal :=
  .next (if s.running then effect { s with free := s.free + 1 } else s)

/-- The meaning of an event of the management ports, the debug port or the reset pin, which a freeze does not keep out (R443,
R454). -/
def eventAlways (s : State) (effect : State → State) : Host.Outcome State Fault Refusal :=
  .next (effect { s with free := s.free + 1 })

end Sys2Proof.Machine
end

