-- ==== Sys2Proof/Machine/Access.lean ====
section
/-! DEFINITION. Memory accesses of the issuing party: loads, stores and read-modify-writes of up to 16 bytes at a virtual
address (R96, R98, R265, R326), the range scoreboard (R255), parking and its fault records (R100, R320, R334), access
violations (R331, R332), and requests to peers (R406, R417). -/

namespace Sys2Proof.Machine

open Sys2Proof

/-- What one access of a lane or party came to. -/
inductive Got where
  /-- performed; the value read, 0 for a store -/
  | val (v : Nat)
  /-- it parks, takes an access violation, or waits for a frame or version -/
  | miss (m : Miss)
  /-- its bytes are homed at a module of the pod, at target address addr -/
  | peer (module addr : Nat)
  /-- it waits for entries of the range scoreboard over n bytes at a window offset -/
  | range (off n : Nat)
  deriving DecidableEq, Repr

/-- Bytes of local memory that a team may reach. -/
def Team.alloc (t : Team) : Nat := t.hdr.localBytes

/-- A range-scoreboard entry of the team overlaps n bytes at a window offset, in 64-byte granules (R254, R255). -/
def State.rangeBusy (s : State) (t off n : Nat) : Bool :=
  s.cores.any fun (e : Nat × Core) => e.2.range.any fun r => r.team == t && decide (off < r.hi) && decide (r.lo < off + n)

/-- Local memory of a team with n bytes written. -/
def State.writeLocal (s : State) (t off n v : Nat) : State :=
  s.setTeam t { s.team t with mem := Mem.write (s.team t).mem off n v }

/-- A read of n bytes for a team (R98). DESIGN CHOICE: the two halves of `ld.q` are read at once, though R274 lets them be seen apart
(log 81). -/
def State.loadFor (s : State) (t : Nat) (acc : Acc) (va n : Nat) : State × Got :=
  let T := s.team t
  match s.locate T.slot T.alloc acc va n with
  | .error m => (s.keepLeaf T.slot va, .miss m)
  | .ok (.peer m a) => (s, .peer m a)
  | .ok (.here off) => if s.rangeBusy t off n then (s, .range off n) else (s, .val (Mem.read T.mem off n))
  | .ok l => match s.readLoc T.mem l n with
    | .error m => (s.keepLeaf T.slot va, .miss m)
    | .ok v => (s.keepLeaf T.slot va, .val v)

/-- A store of the n low bytes of v for a team, versioned pages at its step (R98, R291). DESIGN CHOICE: the two halves of `st.q` are
written at once, though R274 lets them be seen apart (log 81). -/
def State.storeFor (s : State) (t va n v : Nat) : State × Got :=
  let T := s.team t
  match s.locate T.slot T.alloc .write va n with
  | .error m => (s.keepLeaf T.slot va, .miss m)
  | .ok (.peer m a) => (s, .peer m a)
  | .ok (.here off) => if s.rangeBusy t off n then (s, .range off n) else (s.writeLocal t off n v, .val 0)
  | .ok l => match s.writeTarget T.asid T.step.toNat l with
    | .error m => (s.keepLeaf T.slot va, .miss m)
    | .ok (s', p) => ((s'.keepLeaf T.slot va).storePlace p n v, .val 0)

/-- A number with its m low bits those of v. -/
def lowBits (m old v : Nat) : Nat := old / 2 ^ m * 2 ^ m + v % 2 ^ m

/-- A store of the m low bits of v, fewer than 8, into the byte at an address; its other bits stay as they are there (R156). -/
def State.storeBits (s : State) (t va m v : Nat) : State × Got :=
  let T := s.team t
  let into := fun (old : Nat) => lowBits m old v
  match s.locate T.slot T.alloc .write va 1 with
  | .error m => (s.keepLeaf T.slot va, .miss m)
  | .ok (.peer m a) => (s, .peer m a)
  | .ok (.here off) => if s.rangeBusy t off 1 then (s, .range off 1) else (s.writeLocal t off 1 (into (Mem.read T.mem off 1)), .val 0)
  | .ok l => match s.writeTarget T.asid T.step.toNat l with
    | .error m => (s.keepLeaf T.slot va, .miss m)
    | .ok (s', p) => ((s'.keepLeaf T.slot va).storePlace p 1 (into (s'.readPlace p 1)), .val 0)

/-- An atomic read-modify-write of n bytes for a team: the old value (R106, R275). -/
def State.modifyFor (s : State) (t va n : Nat) (f : Nat → Nat) : State × Got :=
  let T := s.team t
  match s.locate T.slot T.alloc .atomic va n with
  | .error m => (s.keepLeaf T.slot va, .miss m)
  | .ok (.peer m a) => (s, .peer m a)
  | .ok (.here off) =>
    if s.rangeBusy t off n then (s, .range off n)
    else
      let old := Mem.read T.mem off n
      (s.writeLocal t off n (f old), .val old)
  | .ok l => match s.writeTarget T.asid T.step.toNat l with
    | .error m => (s.keepLeaf T.slot va, .miss m)
    | .ok (s', p) =>
      match s'.fetchPlace p n with
      | .error m => (s.keepLeaf T.slot va, .miss m)
      | .ok old => ((s'.keepLeaf T.slot va).storePlace p n (f old), .val old)

/-- Logs an access violation of the issuing party (R331, R333). -/
def State.logFor (s : State) (t k lane addr detail : Nat) (acc : Acc) : State :=
  let P := s.party t k
  let s := if detail = 4 then s.countUncorrected else s
  if loggedDetail detail && detail != 5 then
    s.logViolation addr (violationWord (s.team t).asid detail acc.code s.module P.core (partyIndex k) lane false) (dieOf P.core)
  else s

/-! ### Lane words -/

/-- What a lane's part of a word came to. -/
inductive Out where
  /-- performed, with the value that the lane writes -/
  | done (v : Nat)
  /-- parks on an address (R100), for a frame or version when `version` -/
  | park (addr : Nat) (version : Bool)
  | trap (c : Cause)
  | range (off n : Nat)
  /-- one lane of a peer request -/
  | peer (module : Nat) (va : Nat) (p : PeerLane)
  deriving DecidableEq, Repr

/-- The outcome of an access at address va with operands for the peer. -/
def Got.out (g : Got) (lane va n x y : Nat) : Out :=
  match g with
  | .val v => .done v
  | .range off n => .range off n
  | .peer m a => .peer m va { lane := lane, addr := w64 a, size := n, x := x, y := y }
  | .miss .absent => .park va false
  | .miss .frame => .park va true
  | .miss .version => .park va true
  | .miss (.bad d) => .trap { kind := 5, detail := d, info := va }

/-- The order in which lanes of a word are served, each once: as the turn names it, then ascending (R99, R106, R113). -/
def State.serveOrder (s : State) : List Nat :=
  let ls := s.cur.lanes
  let first := dedup (s.cur.serve.filter fun l => ls.contains l)
  first ++ ls.filter fun l => !first.contains l

/-- A word's lanes served one after the other; outcomes in ascending lane order. -/
def State.serveLanes (s : State) (f : State → Nat → State × Out) : State × List (Nat × Out) :=
  let r := s.serveOrder.foldl (fun (r : State × List (Nat × Out)) l =>
    let q := f r.1 l
    (q.1, (l, q.2) :: r.2)) (s, [])
  (r.1, s.cur.lanes.map fun l => (l, ((r.2.find? fun e => e.1 == l).map (·.2)).getD (.done 0)))

/-- The lanes of a word that parked, as a mask (R334). -/
def laneMask (ls : List Nat) : W64 := w64 ((ls.map fun l => 2 ^ l).sum)

/-- Writes one fault record per 64 KiB granule, in ascending order of the lowest lane parked on each (R100, R320). -/
def State.parkRecords (s : State) (ps : List (Nat × Nat)) (pc : W64) (acc : Acc) : State :=
  let T := s.curTeam
  let P := s.curParty
  (dedup (ps.map fun e => e.2 / 2 ^ 16)).foldl (fun s g =>
    let here := ps.filter fun e => e.2 / 2 ^ 16 == g
    let low := here.head?.getD (0, 0)
    s.pushFaultRecord (faultRecord (laneMask (here.map (·.1))) pc low.1 (partyIndex s.cur.party) P.core 0 acc.code
      (if P.seq then 1 else 0) T.asid (w64 low.2))) s

/-- What the requests of a word to its peers carry beside their lanes (R406, R416, R417). -/
structure PeerWord where
  word : Instr
  op : PeerOp
  code : Nat
  ty : Nat
  reads : Bool
  /-- destination registers of each lane -/
  dests : List RegRef
  acquire : Bool

/-- The requests of a word: one for each distinct peer and 128-byte target line, ascending by lowest lane (R406). -/
def State.wordRequests (s : State) (w : PeerWord) (pc : W64) (tag : Nat) (lanes : List Nat) (ps : List (Nat × Nat × Nat × PeerLane)) :
    List (Nat × Outstanding) :=
  let P := s.curParty
  let keys := dedup (ps.map fun e => (e.2.1, e.2.2.2.addr.toNat / 128))
  keys.zipIdx.map fun (k, i) =>
    let here := ps.filter fun e => e.2.1 == k.1 && e.2.2.2.addr.toNat / 128 == k.2
    (k.1, { req := { src := s.module, dst := k.1, core := P.core, asid := s.curTeam.asid, seq := 0, op := w.op, code := w.code
                     ty := w.ty, strand := partyIndex s.cur.party, lanes := here.map (·.2.2.2) }
            team := s.cur.team, party := s.cur.party, pc := pc, word := some w.word, tag := tag
            dests := here.map fun _ => w.dests, lanes := lanes, reads := w.reads, index := i, fetch := false
            carried := here.map fun e => (s.cur.team, s.cur.party, e.1, w64 e.2.2.1) })

/-- Sends the peer requests of a word; its completed lanes stand at it until the last has left (R406). `ps` gives lane,
module, address and request lane; `lanes` are the word's completed lanes, already at their next word. -/
def State.sendWord (s : State) (w : PeerWord) (pc : W64) (lanes : List Nat) (ps : List (Nat × Nat × Nat × PeerLane)) : State :=
  let c := s.curParty.core
  let tag := s.free + 1
  let os := s.wordRequests w pc tag lanes ps
  let touched := dedup (ps.map fun e => (e.2.1, e.2.2.2.addr.toNat / 128))
  let s := s.drain c fun l => l.asid == s.curTeam.asid && touched.any fun t => t.1 == l.module && t.2 * 128 == l.line
  let full := stallOf w.word == 3
  let holds := full || w.acquire
  let entries := fun (l : Nat) =>
    let asks := ps.any fun e => e.1 == l
    if asks || holds then w.dests.map fun r =>
      ({ reg := r, old := 0, producer := pc, latency := none, elapsed := 0, full := full, holds := holds, written := !asks
         exported := false, sf := false, clause := false, tag := tag } : Pend)
    else []
  let s := s.setCurParty (s.curParty.mapLanes lanes fun l x =>
    { x with pend := x.pend.filter (fun e => !((entries l).any fun n => n.reg == e.reg)) ++ entries l })
  let s := os.foldl (fun s o => s.enqueue c o.1 [o.2]) s
  let r := s.pump c (s.core c).waitingCount
  let s := (r.2.filter fun o => o.tag != tag).foldl State.wordLeft r.1
  if (s.core c).stands tag then s.setCurParty (s.curParty.mapLanes lanes fun _ x => { x with pc := pc, wait := .slots tag })
  else s

/-- A lane word with memory accesses: each lane's access is served (f), completed lanes write what they read (wr) and go
on, and the others park, trap or send requests (R100, R101, R332, R406). Lanes of a run wait together while the access of any of them
meets the range scoreboard (R204, R255). The staleness count of a lane that parks at `ldv` or `ldv.tag`, for whatever it lacks, runs from
its first park at the word on (R100, R368). -/
def State.laneWord (s : State) (acc : Acc) (w : PeerWord) (f : State → Nat → State × Out) (wr : Nat → Nat → Lane → Lane) :
    State :=
  let pc := (s.curParty.lane s.firstLane).pc
  let r := s.serveLanes f
  let outs := r.2
  match outs.findSome? fun e => match e.2 with | .range off n => some (off, n) | _ => none with
  | some (off, n) => s.hold (.range off n)
  | none =>
  let s := r.1.setCurParty (r.1.curParty.mapLanes r.1.cur.lanes fun l x =>
    let o : Option Out := (outs.find? fun (e : Nat × Out) => e.1 == l).map (·.2)
    match o with
    | some (.done v) => (wr l v x).next
    | some (.peer _ _ _) => x.next
    | some (.park a v) =>
      let x := x.hold (.parked (w64 a) v)
      if w.op = .ldv then ({ x with staleCount := x.staleCount.or (some 0) }).countStale (r.1.curTeam.halt == Halt.running) s.now else x
    | some (.trap _) => { x with staleCount := none, staleSince := none }
    | _ => x)
  let s := s.parkRecords (outs.filterMap fun e => match e.2 with | .park a false => some (e.1, a) | _ => none) pc acc
  let peers := outs.filterMap fun e => match e.2 with | .peer m va p => some (e.1, m, va, p) | _ => none
  let went := outs.filterMap fun e => match e.2 with | .done _ => some e.1 | .peer _ _ _ => some e.1 | _ => none
  let s := if peers.isEmpty then s else s.sendWord w pc went peers
  let traps := outs.filterMap fun e => match e.2 with
    | .trap c => some (e.1, if c.kind = 5 then { c with acc := acc.code } else c)
    | _ => none
  let s := traps.foldl (fun s e => if e.2.kind == 5 then s.logFor s.cur.team s.cur.party e.1 e.2.info e.2.detail acc else s) s
  s.takeCauses false traps

/-! ### Uniform words -/

/-- Parks every issuing lane, or the sequencer context, at a U word on an address (R125, R133). -/
def State.parkUniform (s : State) (va : Nat) (acc : Acc) (version : Bool) : State :=
  let pc := (s.curParty.lane s.firstLane).pc
  let T := s.curTeam
  let P := s.curParty
  let s := s.hold (.parked (w64 va) version)
  if version then s
  else s.pushFaultRecord (faultRecord (if P.seq then 1 else laneMask s.cur.lanes) pc (if P.seq then 0 else s.firstLane)
    (partyIndex s.cur.party) P.core 0 acc.code (if P.seq then 1 else 0) T.asid (w64 va))

/-- An access violation of a uniform word at an address (R101, R332). -/
def State.violateUniform (s : State) (detail va : Nat) (acc : Acc) : State :=
  (s.logFor s.cur.team s.cur.party (if s.curParty.seq then 0 else s.firstLane) va detail acc).trapUniform
    { kind := 5, detail := detail, info := va, acc := acc.code }

/-- A uniform word's bytes in a peer window are asked for: its lanes wait, and run the word again when they have come
(R143, R159, R406); `report` when an error answer is the word's to report (R173). -/
def State.fetchPeer (s : State) (va n m a : Nat) (report : Bool := false) : State :=
  let P := s.curParty
  let ls := s.cur.lanes
  let o : Outstanding :=
    { req := { src := s.module, dst := m, core := P.core, asid := s.curTeam.asid, seq := 0, op := .load, code := 0, ty := 0
               strand := partyIndex s.cur.party, lanes := [{ lane := s.firstLane, addr := w64 a, size := n, x := 0, y := 0 }] }
      team := s.cur.team, party := s.cur.party, pc := (P.lane s.firstLane).pc, word := none, tag := s.free + 1, dests := []
      lanes := ls, carried := ls.map fun l => (s.cur.team, s.cur.party, l, w64 va), reads := true, index := 0, fetch := true
      report := report }
  let s := s.drain P.core (·.covers m s.curTeam.asid a)
  (((s.hold (.slots o.tag)).enqueue P.core m [o]).pumpAll P.core)

/-- What a uniform word does when an access of n bytes is not performed here. -/
def State.missUniform (s : State) (g : Got) (va n : Nat) (acc : Acc) : State :=
  match g with
  | .val _ => s
  | .range off n => s.hold (.range off n)
  | .peer m a => s.fetchPeer va n m a
  | .miss .absent => s.parkUniform va acc false
  | .miss .frame => s.parkUniform va acc true
  | .miss .version => s.parkUniform va acc true
  | .miss (.bad d) => s.violateUniform d va acc

/-- Bytes of a peer window that a party has fetched, if all n are there. -/
def Party.fetched (p : Party) (va : Nat) : Nat → Option Nat
  | 0 => some 0
  | n + 1 => match FMap.get none p.peerBuf va, p.fetched (va + 1) n with
    | some b, some r => some (b.toNat + 256 * r)
    | _, _ => none

/-- A read of a uniform word: as a lane's, with bytes of a peer window taken from what was fetched. -/
def State.loadUniform (s : State) (va n : Nat) : State × Got :=
  match s.loadFor s.cur.team .read va n with
  | (s, .peer m a) => match s.curParty.fetched va n with
    | some v => (s, .val v)
    | none => (s, .peer m a)
  | r => r

/-- Reads a record of n 8-byte words from an 8-byte-aligned address, as `sld` reads (R159). -/
def State.readRecord (s : State) (va : Nat) : Nat → State × Except (Nat × Got) Nat
  | 0 => (s, .ok 0)
  | n + 1 =>
    match s.loadUniform (va % 2 ^ 64) 8 with
    | (s, .val v) => match s.readRecord (va + 8) n with
      | (s, .ok rest) => (s, .ok (v + 2 ^ 64 * rest))
      | (s, .error e) => (s, .error e)
    | (s, g) => (s, .error (va % 2 ^ 64, g))

/-- Runs a uniform word on a record of n 8-byte words; on a miss the word parks or traps (R159). -/
def State.withRecord (s : State) (va n : Nat) (k : State → Nat → State) : State :=
  match s.readRecord va n with
  | (s, .ok v) => k s v
  | (s, .error (a, g)) => s.missUniform g a 8 .read

end Sys2Proof.Machine
end

