-- ==== Sys2Proof/Machine/Float.lean ====
section
/-! DEFINITION. Floating arithmetic (R60 to R71, R73, R84, R227 to R239): formats, exact values, one rounding, and the
operations of the lane words. Results are bit patterns as numbers, with the flags NV, DZ, OF, UF, NX of R62 as bits 4 to 0. -/

namespace Sys2Proof.Machine

open Sys2Proof

/-- A floating format: width, fraction bits, exponent of its smallest subnormal, largest finite magnitude code, infinity
code if any, first NaN code, and the NaN code that results use if any (R63, R227, R228). -/
structure Fmt where
  w : Nat
  F : Nat
  qmin : Int
  maxCode : Nat
  inf : Option Nat
  nanFrom : Nat
  nan : Option Nat
  deriving DecidableEq, Repr

/-- .f32, FP32. -/
def F32 : Fmt := { w := 32, F := 23, qmin := -149, maxCode := 0x7F7FFFFF, inf := some 0x7F800000, nanFrom := 0x7F800001, nan := some 0x7FC00000 }
/-- .f64. -/
def F64 : Fmt := { w := 64, F := 52, qmin := -1074, maxCode := 0x7FEFFFFFFFFFFFFF, inf := some 0x7FF0000000000000, nanFrom := 0x7FF0000000000001, nan := some 0x7FF8000000000000 }
/-- .f16, FP16. -/
def F16 : Fmt := { w := 16, F := 10, qmin := -24, maxCode := 0x7BFF, inf := some 0x7C00, nanFrom := 0x7C01, nan := some 0x7E00 }
/-- .bf16, BF16. -/
def BF16 : Fmt := { w := 16, F := 7, qmin := -133, maxCode := 0x7F7F, inf := some 0x7F80, nanFrom := 0x7F81, nan := some 0x7FC0 }
/-- TF32 without its low 13 bits (R229). -/
def TF19 : Fmt := { w := 19, F := 10, qmin := -136, maxCode := 0x3FBFF, inf := some 0x3FC00, nanFrom := 0x3FC01, nan := some 0x3FE00 }
/-- E5M2. -/
def E5M2 : Fmt := { w := 8, F := 2, qmin := -16, maxCode := 0x7B, inf := some 0x7C, nanFrom := 0x7D, nan := some 0x7E }
/-- E4M3. -/
def E4M3 : Fmt := { w := 8, F := 3, qmin := -9, maxCode := 0x7E, inf := none, nanFrom := 0x7F, nan := some 0x7F }
/-- E3M4. -/
def E3M4 : Fmt := { w := 8, F := 4, qmin := -6, maxCode := 0x7E, inf := none, nanFrom := 0x7F, nan := some 0x7F }
/-- E3M2. -/
def E3M2 : Fmt := { w := 6, F := 2, qmin := -4, maxCode := 0x1F, inf := none, nanFrom := 0x20, nan := none }
/-- E2M3. -/
def E2M3 : Fmt := { w := 6, F := 3, qmin := -3, maxCode := 0x1F, inf := none, nanFrom := 0x20, nan := none }
/-- E2M1. -/
def E2M1 : Fmt := { w := 4, F := 1, qmin := -1, maxCode := 0x7, inf := none, nanFrom := 0x8, nan := none }

/-- The lane float type of a code of R67. -/
def laneFmt (c : Nat) : Fmt := if c = 0 then F32 else if c = 1 then F64 else if c = 2 then F16 else BF16

/-- A value: a NaN, an infinity, or (−1)^neg × m × 2^e. -/
inductive FVal where
  | nan (signalling : Bool)
  | inf (neg : Bool)
  | num (neg : Bool) (m : Nat) (e : Int)
  deriving DecidableEq, Repr

/-- The value of a bit pattern (R60, R227). -/
def Fmt.read (f : Fmt) (v : Nat) : FVal :=
  let neg := v / 2 ^ (f.w - 1) % 2 == 1
  let mag := v % 2 ^ (f.w - 1)
  if mag ≥ f.nanFrom then .nan (mag / 2 ^ (f.F - 1) % 2 == 0)
  else if f.inf = some mag then .inf neg
  else if mag / 2 ^ f.F = 0 then .num neg mag f.qmin
  else .num neg (2 ^ f.F + mag % 2 ^ f.F) (f.qmin + (mag / 2 ^ f.F - 1 : Nat))

/-- A bit pattern with its flags. -/
abbrev FRes := Nat × BitVec 5

/-- The flags of R62. -/
def fNV : BitVec 5 := 16
/-- Division by zero. -/
def fDZ : BitVec 5 := 8
/-- Overflow. -/
def fOF : BitVec 5 := 4
/-- Underflow. -/
def fUF : BitVec 5 := 2
/-- Inexact. -/
def fNX : BitVec 5 := 1

/-- The canonical NaN (R63). -/
def Fmt.nanBits (f : Fmt) : Nat := f.nan.getD 0
/-- A magnitude code with a sign. -/
def Fmt.sign (f : Fmt) (neg : Bool) (code : Nat) : Nat := code + (if neg then 2 ^ (f.w - 1) else 0)
/-- Infinity of a sign, the largest finite value where the format has none. -/
def Fmt.infBits (f : Fmt) (neg : Bool) : Nat := f.sign neg (f.inf.getD f.maxCode)

/-- A non-negative real: n × 2^e, or strictly between that and (n + 1) × 2^e when `more`. -/
structure Mag where
  n : Nat
  e : Int
  more : Bool := false
  deriving DecidableEq, Repr

/-- The magnitude rounded to a multiple of 2^q under a rounding code of R61, as a count, and whether it is inexact. -/
def Mag.cut (x : Mag) (mode : Nat) (neg : Bool) (q : Int) : Nat × Bool :=
  let sh := q - x.e
  if sh ≤ 0 then (x.n * 2 ^ (-sh).toNat, x.more)
  else
    let m := 2 ^ sh.toNat
    let k := x.n / m
    let r := x.n % m
    let inexact := r != 0 || x.more
    let up :=
      if mode = 0 then decide (2 * r > m) || (2 * r == m && (x.more || k % 2 == 1))
      else if mode = 2 then !neg && inexact
      else if mode = 3 then neg && inexact
      else if mode = 4 then decide (2 * r ≥ m)
      else false
    (if up then k + 1 else k, inexact)

/-- Whether an overflow of a sign goes to infinity under a rounding code (R61, IEEE 754). -/
def toInf (mode : Nat) (neg : Bool) : Bool := mode == 0 || mode == 4 || (mode == 2 && !neg) || (mode == 3 && neg)

/-- A nonzero magnitude rounded once into a format: magnitude code and flags; tininess after rounding (R60 to R62). -/
def Fmt.round (f : Fmt) (mode : Nat) (neg : Bool) (x : Mag) : FRes :=
  if x.n = 0 then (0, 0)
  else
    let E : Int := (Nat.log2 x.n : Int) + x.e
    let q := max (E - f.F) f.qmin
    let c := x.cut mode neg q
    let code := (q - f.qmin).toNat * 2 ^ f.F + c.1
    if code > f.maxCode then (if toInf mode neg then f.inf.getD f.maxCode else f.maxCode, fOF ||| fNX)
    else
      let tiny := decide (E < f.qmin + f.F) &&
        !((x.cut mode neg (E - f.F)).1 == 2 ^ (f.F + 1) && E + 1 == f.qmin + f.F)
      (code, if c.2 then (if tiny then fUF ||| fNX else fNX) else 0)

/-- A signed magnitude rounded into a format, with its sign (R60). -/
def Fmt.pack (f : Fmt) (mode : Nat) (neg : Bool) (x : Mag) : FRes :=
  let r := f.round mode neg x
  (f.sign neg r.1, r.2)

/-- An exact integer count of 2^e rounded into a format; a zero has the given sign. -/
def Fmt.packInt (f : Fmt) (mode : Nat) (z : Int) (e : Int) (zeroNeg : Bool) : FRes :=
  if z = 0 then (f.sign zeroNeg 0, 0) else f.pack mode (decide (z < 0)) { n := z.natAbs, e := e }

/-- Whether a value is a signalling NaN. -/
def FVal.isSig : FVal → Bool
  | .nan s => s
  | _ => false
/-- Whether a value is a NaN. -/
def FVal.isNan : FVal → Bool
  | .nan _ => true
  | _ => false
/-- NV for a signalling NaN among the operands (R63). -/
def sigFlag (xs : List FVal) : BitVec 5 := if xs.any FVal.isSig then fNV else 0

/-- m × 2^e as a count of 2^q, for q ≤ e. -/
def scaled (neg : Bool) (m : Nat) (e q : Int) : Int :=
  let k : Int := (m * 2 ^ (e - q).toNat : Nat)
  if neg then -k else k

/-- x + y with one rounding; an exact zero sum of unlike signs is −0 only when rounding toward −∞ (R60, R64). -/
def Fmt.addVals (f : Fmt) (mode : Nat) (x y : FVal) : FRes :=
  match x, y with
  | .nan _, _ => (f.nanBits, sigFlag [x, y])
  | _, .nan _ => (f.nanBits, sigFlag [x, y])
  | .inf a, .inf b => if a = b then (f.infBits a, 0) else (f.nanBits, fNV)
  | .inf a, _ => (f.infBits a, 0)
  | _, .inf b => (f.infBits b, 0)
  | .num a m e, .num b n g =>
    let q := min e g
    f.packInt mode (scaled a m e q + scaled b n g q) q (if a = b then a else mode == 3)

/-- The exact product of two values that are no NaN; none for ∞ × 0. -/
def FVal.mul (x y : FVal) : Option FVal :=
  match x, y with
  | .num a m e, .num b n g => some (.num (a != b) (m * n) (e + g))
  | .inf a, .num b n _ => if n = 0 then none else some (.inf (a != b))
  | .num a m _, .inf b => if m = 0 then none else some (.inf (a != b))
  | .inf a, .inf b => some (.inf (a != b))
  | _, _ => none

/-- A value with its sign changed. -/
def FVal.neg : FVal → FVal
  | .nan s => .nan s
  | .inf a => .inf !a
  | .num a m e => .num (!a) m e

/-- x × y (R64). -/
def Fmt.mulVals (f : Fmt) (mode : Nat) (x y : FVal) : FRes :=
  if x.isNan || y.isNan then (f.nanBits, sigFlag [x, y])
  else match x.mul y with
    | none => (f.nanBits, fNV)
    | some (.num a m e) => if m = 0 then (f.sign a 0, 0) else f.pack mode a { n := m, e := e }
    | some (.inf a) => (f.infBits a, 0)
    | some (.nan _) => (f.nanBits, fNV)

/-- x × y + z with one rounding; ∞ × 0 raises NV even when z is a NaN (R64). -/
def Fmt.fmaVals (f : Fmt) (mode : Nat) (x y z : FVal) : FRes :=
  if x.isNan || y.isNan then (f.nanBits, sigFlag [x, y, z])
  else match x.mul y with
    | none => (f.nanBits, fNV)
    | some p => f.addVals mode p z

/-- Strict order of values that are no NaN, −0 equal to +0. -/
def FVal.lt (x y : FVal) : Bool :=
  match x, y with
  | .num a m e, .num b n g => decide (scaled a m e (min e g) < scaled b n g (min e g))
  | .inf a, .inf b => a && !b
  | .inf a, .num _ _ _ => a
  | .num _ _ _, .inf b => !b
  | _, _ => false

/-- Sign of a value. -/
def FVal.isNeg : FVal → Bool
  | .nan _ => false
  | .inf a => a
  | .num a _ _ => a

/-- minimumNumber, or maximumNumber when `big`, of two bit patterns (R64). -/
def Fmt.minMax (f : Fmt) (big : Bool) (a b : Nat) : FRes :=
  let x := f.read a
  let y := f.read b
  let fl := sigFlag [x, y]
  if x.isNan then (if y.isNan then f.nanBits else b, fl)
  else if y.isNan then (a, fl)
  else
    let less := x.lt y || (!y.lt x && x.isNeg && !y.isNeg)
    (if less != big then a else b, fl)

/-- The relation of `fcmp` (R65) and its flags. -/
def Fmt.rel (f : Fmt) (rel a b : Nat) : Bool × BitVec 5 :=
  let x := f.read a
  let y := f.read b
  let un := x.isNan || y.isNan
  let lt := x.lt y
  let gt := y.lt x
  let r :=
    if rel = 0 then !un && !lt && !gt
    else if rel = 1 then un || lt || gt
    else if rel = 2 then !un && lt
    else if rel = 3 then !un && !gt
    else if rel = 4 then !un && gt
    else if rel = 5 then !un && !lt
    else if rel = 6 then un else !un
  (r, if 2 ≤ rel ∧ rel ≤ 5 then (if un then fNV else 0) else sigFlag [x, y])

/-- The class bit of R71. -/
def Fmt.classBit (f : Fmt) (v : Nat) : Nat :=
  match f.read v with
  | .nan s => if s then 8 else 9
  | .inf n => if n then 0 else 7
  | .num n m _ =>
    let normal := decide (2 ^ f.F ≤ v % 2 ^ (f.w - 1))
    if m = 0 then (if n then 3 else 4)
    else if normal then (if n then 1 else 6) else (if n then 2 else 5)

/-- Conversion between formats, saturating or not (R68). -/
def convert (src dst : Fmt) (mode : Nat) (sat : Bool) (v : Nat) : FRes :=
  match src.read v with
  | .nan s => (dst.nanBits, if s then fNV else 0)
  | .inf n => if sat then (dst.sign n dst.maxCode, fNX) else (dst.infBits n, 0)
  | .num n m e =>
    if m = 0 then (dst.sign n 0, 0)
    else
      let r := dst.round mode n { n := m, e := e }
      if sat && r.2.getLsbD 2 then (dst.sign n dst.maxCode, fNX) else (dst.sign n r.1, r.2)

/-- Float to an integer of the range lo to hi (R69). -/
def toInteger (src : Fmt) (mode : Nat) (lo hi : Int) (v : Nat) : Int × BitVec 5 :=
  match src.read v with
  | .nan _ => (0, fNV)
  | .inf n => (if n then lo else hi, fNV)
  | .num n m e =>
    let c := Mag.cut { n := m, e := e } mode n 0
    let z : Int := if n then -(c.1 : Int) else c.1
    if z < lo then (lo, fNV) else if z > hi then (hi, fNV) else (z, if c.2 then fNX else 0)

/-- Integer to float (R70); zero gives +0. -/
def ofInteger (dst : Fmt) (mode : Nat) (z : Int) : FRes := dst.packInt mode z 0 false

/-- A value as an integer count of 2^a, to nearest even, with inexactness; ±∞ gives ±2^63, a NaN 0 (R84). -/
def roundToAnchor (x : FVal) (a : Int) : Int × Bool :=
  match x with
  | .nan _ => (0, false)
  | .inf n => (if n then -(2 ^ 63) else 2 ^ 63, false)
  | .num n m e =>
    let c := Mag.cut { n := m, e := e } 0 n a
    (if n then -(c.1 : Int) else c.1, c.2)

/-- Clamp of R84 to ±(2^(w−1) − 1). -/
def clampAF (w : Nat) (z : Int) : Int := max (-(2 ^ (w - 1) - 1)) (min (2 ^ (w - 1) - 1) z)

/-! ### Special functions (R72 to R74) -/

/-- Floor of a square root, by bits from 2^k down. -/
def isqrtFrom (n : Nat) : Nat → Nat → Nat
  | 0, r => if (r + 1) * (r + 1) ≤ n then r + 1 else r
  | k + 1, r => isqrtFrom n k (if (r + 2 ^ (k + 1)) * (r + 2 ^ (k + 1)) ≤ n then r + 2 ^ (k + 1) else r)

/-- Floor of the square root of n. -/
def isqrt (n : Nat) : Nat := isqrtFrom n (Nat.log2 n / 2 + 1) 0

/-- 1 ÷ (m × 2^e) to more than 64 bits. -/
def Mag.recip (m : Nat) (e : Int) : Mag :=
  let k := Nat.log2 m + 130
  { n := 2 ^ k / m, e := -(k : Int) - e, more := 2 ^ k % m != 0 }

/-- The square root of m × 2^e to more than 64 bits. -/
def Mag.root (m : Nat) (e : Int) : Mag :=
  let odd := e % 2
  let k : Nat := 130
  let n := m * 2 ^ odd.toNat * 2 ^ (2 * k)
  let r := isqrt n
  { n := r, e := (e - odd) / 2 - k, more := r * r != n }

/-- The reciprocal square root of m × 2^e to more than 200 bits: the root of 2^(2k) ÷ (m × 2^odd). -/
def Mag.rroot (m : Nat) (e : Int) : Mag :=
  let odd := e % 2
  let d := m * 2 ^ odd.toNat
  let k := Nat.log2 d + 200
  let n := 2 ^ (2 * k) / d
  let r := isqrt n
  { n := r, e := -(e - odd) / 2 - k, more := r * r * d != 2 ^ (2 * k) }

/-- Flags of a result that differs from the exact value: inexact, and tiny when its magnitude is subnormal or zero. -/
def Fmt.inexactFlags (f : Fmt) (v : Nat) : BitVec 5 :=
  if v % 2 ^ (f.w - 1) < 2 ^ f.F then fUF ||| fNX else fNX

/-! The functions of R73 that have no exact result are enclosed in fixed point, and one of the values that its bound allows is
taken, which one being free (log 6). -/

/-- Places behind the point. -/
def fp : Nat := 320
/-- ln 2, rounded down. -/
def ln2 : Nat := 0xb17217f7d1cf79abc9e3b39803f2f6af40f343267298b62d8a0d175b8baafa2be7b876206debac98
/-- π/2, rounded down. -/
def halfPi : Nat := 0x1921fb54442d18469898cc51701b839a252049c1114cf98e804177d4c76273644a29410f31c6809bb

/-- Bounds of a function of m × 2^e that lies below it by less than a third of its cube, where the number is below 2^−100. -/
def justBelow (m : Nat) (e : Int) : Nat × Nat × Int := (m * 2 ^ 170 - 1, m * 2 ^ 170, e - 170)

/-- A number m × 2^e is below 2^−100. -/
def isTiny (m : Nat) (e : Int) : Bool := decide ((Nat.log2 m : Int) + e < -100)

/-- A free choice among the values within k ulp of the exact result, which lies strictly between lo × 2^e and hi × 2^e and has the sign
`neg` (R73): those within k ulp of both bounds, which are so close that no other value is. `fn` numbers the function and v is its input.
The spec does not define an ulp: it is taken as the spacing of the format's values in the binade of
the exact result, so that it does not change where the result crosses a power of two (log 6). -/
def Fmt.within (f : Fmt) (k fn v : Nat) (neg : Bool) (lo hi : Nat) (e : Int) : FRes :=
  let q := if lo = 0 then f.qmin else max ((Nat.log2 lo : Int) + e - f.F) f.qmin
  let unit := min e q
  let ulps : Int := ((k * 2 ^ (q - unit).toNat : Nat) : Int)
  let least : Int := ((hi * 2 ^ (e - unit).toNat : Nat) : Int) - ulps
  let most : Int := ((lo * 2 ^ (e - unit).toNat : Nat) : Int) + ulps
  let a : Int := if 0 ≤ least then ((f.round 2 false { n := least.toNat, e := unit }).1 : Int)
    else -((f.round 1 false { n := (-least).toNat, e := unit }).1 : Int)
  let b : Int := min ((f.round 1 false { n := most.toNat, e := unit }).1 : Int) f.maxCode
  let z : Int := a + (((Config.sfu fn (w64 v)).toNat % (b - a + 1).toNat : Nat) : Int)
  let r := f.sign (neg != decide (z < 0)) z.natAbs
  (r, f.inexactFlags r)

/-- m × 2^e in fixed point, rounded down. -/
def fixed (m : Nat) (e : Int) : Nat := if e + fp ≥ 0 then m * 2 ^ (e + fp).toNat else m / 2 ^ (-(e + fp)).toNat

/-- The series of the exponential from term j on. -/
def expSeries (y : Nat) : Nat → Nat → Nat → Nat
  | 0, _, _ => 0
  | n + 1, j, t => t + expSeries y n (j + 1) (t * y / 2 ^ fp / (j + 1))

/-- e^y for y below 1, at most 512 units below the exact value. -/
def expFixed (y : Nat) : Nat := expSeries y 75 0 (2 ^ fp)

/-- The bits of log₂ of y from 1 up to 2, by squaring; at most 4 units of the last below the exact value. -/
def logSeries : Nat → Nat → Nat → Nat
  | 0, _, acc => acc
  | n + 1, y, acc =>
    let s := y * y / 2 ^ fp
    if s ≥ 2 * 2 ^ fp then logSeries n (s / 2) (2 * acc + 1) else logSeries n s (2 * acc)

/-- The series of sine (j = 1, t = y) or cosine (j = 0, t = 1) in the square of y, to 128 units. -/
def trigSeries (y2 : Nat) : Nat → Nat → Nat → Int
  | 0, _, _ => 0
  | n + 1, j, t => (t : Int) - trigSeries y2 n (j + 2) (t * y2 / 2 ^ fp / ((j + 1) * (j + 2)))

/-- Bounds of e^−y in fixed point. -/
def expNeg (y : Nat) : Nat × Nat :=
  if y ≥ 128 * 2 ^ fp then (0, 2 ^ (fp - 180))
  else
    let s := expFixed (ln2 - y % ln2)
    let n := y / ln2 + 1
    ((s - 8) / 2 ^ n, (s + 1024) / 2 ^ n + 1)

/-- `rcp` in a rounding mode (R73, R74). -/
def sfRcp (f : Fmt) (mode v : Nat) : FRes :=
  match f.read v with
  | .nan s => (f.nanBits, if s then fNV else 0)
  | .inf n => (f.sign n 0, 0)
  | .num n m e => if m = 0 then (f.infBits n, fDZ) else f.pack mode n (Mag.recip m e)

/-- `sqrt` in a rounding mode (R73, R74). -/
def sfSqrt (f : Fmt) (mode v : Nat) : FRes :=
  match f.read v with
  | .nan s => (f.nanBits, if s then fNV else 0)
  | .inf n => if n then (f.nanBits, fNV) else (f.infBits false, 0)
  | .num n m e =>
    if m = 0 then (f.sign n 0, 0) else if n then (f.nanBits, fNV) else f.pack mode false (Mag.root m e)

/-- `rsqrt`: one of the values within 1 ulp, which one being free; an exact one raises no NX (R73, R74). -/
def sfRsqrt (f : Fmt) (v : Nat) : FRes :=
  match f.read v with
  | .nan s => (f.nanBits, if s then fNV else 0)
  | .inf n => if n then (f.nanBits, fNV) else (0, 0)
  | .num n m e =>
    if m = 0 then (f.infBits n, fDZ)
    else if n then (f.nanBits, fNV)
    else
      let x := Mag.rroot m e
      let near := f.round 1 false x
      let r := (f.within 1 6 v false x.n (if x.more then x.n + 1 else x.n) x.e).1
      (r, if near.2 = 0 ∧ r = near.1 then 0 else fNX)

/-- A value as an integer when it is one. -/
def FVal.toInt? : FVal → Option Int
  | .num n m e =>
    if e ≥ 0 then some (if n then -(m * 2 ^ e.toNat : Nat) else (m * 2 ^ e.toNat : Nat))
    else if m % 2 ^ (-e).toNat = 0 then some (if n then -(m / 2 ^ (-e).toNat : Nat) else (m / 2 ^ (-e).toNat : Nat))
    else none
  | _ => none

/-- `exp2` (R73, R74): 2ⁿ for an integer in range, overflow from the first power beyond the format, else within 1 ulp. -/
def sfExp2 (f : Fmt) (v : Nat) : FRes :=
  match f.read v with
  | .nan s => (f.nanBits, if s then fNV else 0)
  | .inf n => if n then (0, 0) else (f.infBits false, 0)
  | .num n m e =>
    let top : Int := f.qmin + ((f.maxCode / 2 ^ f.F + f.F : Nat) : Int)
    if !(FVal.num n m e).lt (.num (decide (top < 0)) top.natAbs 0) then (f.infBits false, fOF ||| fNX)
    else match (FVal.num n m e).toInt? with
      | some k => if k ≥ f.qmin then f.pack 0 false { n := 1, e := k } else f.within 1 0 v false 0 1 (f.qmin - 2)
      | none =>
        let x : Int := if n then -(fixed m e : Int) - 1 else fixed m e
        let k := x / (2 ^ fp : Nat)
        if k < f.qmin - 2 then f.within 1 0 v false 0 1 (f.qmin - 2)
        else
          let s := expFixed ((x % (2 ^ fp : Nat)).toNat * ln2 / 2 ^ fp)
          f.within 1 0 v false s (Nat.min (s + 1024) (2 * 2 ^ fp)) (k - fp)

/-- `log2` (R73, R74): exact for powers of two, else within 1 ulp. -/
def sfLog2 (f : Fmt) (v : Nat) : FRes :=
  match f.read v with
  | .nan s => (f.nanBits, if s then fNV else 0)
  | .inf n => if n then (f.nanBits, fNV) else (f.infBits false, 0)
  | .num n m e =>
    if m = 0 then (f.infBits true, fDZ)
    else if n then (f.nanBits, fNV)
    else if m = 2 ^ Nat.log2 m then f.packInt 0 (Nat.log2 m + e) 0 false
    else
      let d := Nat.log2 m
      let x : Int := ((d : Int) + e) * 2 ^ 180 + logSeries 180 (m * 2 ^ fp / 2 ^ d) 0
      f.within 1 1 v (decide (x < 0)) (if x < 0 then (-x).toNat - 4 else x.toNat) (if x < 0 then (-x).toNat else x.toNat + 4) (-180)

/-- `sin` and `cos` (R73, R74): within 2 ulp. The sine of a small number lies just below it. -/
def sfTrig (cos : Bool) (f : Fmt) (v : Nat) : FRes :=
  match f.read v with
  | .nan s => (f.nanBits, if s then fNV else 0)
  | .inf _ => (f.nanBits, fNV)
  | .num n m e =>
    if m = 0 then (if cos then (f.pack 0 false { n := 1, e := 0 }).1 else f.sign n 0, 0)
    else if !cos && isTiny m e then f.within 2 2 v n (justBelow m e).1 (justBelow m e).2.1 (justBelow m e).2.2
    else
      let x := fixed m e
      let k := x / halfPi
      let r := x % halfPi
      let q := (k + b2n cos) % 4
      let z := if q % 2 = 0 then trigSeries (r * r / 2 ^ fp) 44 1 r else trigSeries (r * r / 2 ^ fp) 44 0 (2 ^ fp)
      f.within 2 (if cos then 3 else 2) v ((!cos && n) != decide (2 ≤ q)) (z - 128 - k).toNat (z + 128 + k).toNat (-(fp : Int))

/-- `tanh` (R73, R74): within 2 ulp of (1 − e^−2x) ÷ (1 + e^−2x), which lies below 1, and just below a small x. -/
def sfTanh (f : Fmt) (v : Nat) : FRes :=
  match f.read v with
  | .nan s => (f.nanBits, if s then fNV else 0)
  | .inf n => (f.pack 0 n { n := 1, e := 0 })
  | .num n m e =>
    if m = 0 then (f.sign n 0, 0)
    else if isTiny m e then f.within 2 4 v n (justBelow m e).1 (justBelow m e).2.1 (justBelow m e).2.2
    else
      let p := expNeg (fixed m (e + 1))
      let lo := p.1
      let hi := Nat.min p.2 (2 ^ fp)
      f.within 2 4 v n ((2 ^ fp - hi) * 2 ^ fp / (2 ^ fp + hi)) (Nat.min (2 ^ fp) ((2 ^ fp - lo) * 2 ^ fp / (2 ^ fp + lo) + 1)) (-(fp : Int))

/-- `lgst` (R73, R74): within 2 ulp of 1 ÷ (1 + e^−x), which lies below 1. -/
def sfLgst (f : Fmt) (v : Nat) : FRes :=
  match f.read v with
  | .nan s => (f.nanBits, if s then fNV else 0)
  | .inf n => if n then (0, 0) else f.pack 0 false { n := 1, e := 0 }
  | .num n m e =>
    if m = 0 then f.pack 0 false { n := 1, e := -1 }
    else
      let p := expNeg (fixed m e)
      let lo := p.1
      let hi := p.2
      if n then f.within 2 5 v false (lo * 2 ^ fp / (2 ^ fp + hi)) (hi * 2 ^ fp / (2 ^ fp + lo) + 1) (-(fp : Int))
      else f.within 2 5 v false (2 ^ fp * 2 ^ fp / (2 ^ fp + hi)) (Nat.min (2 ^ fp) (2 ^ fp * 2 ^ fp / (2 ^ fp + lo) + 1)) (-(fp : Int))

end Sys2Proof.Machine
end

