-- ==== Sys2Proof/Machine/Flags.lean ====
section
/-! DEFINITION. Flags: relations and combinations of comparisons (R56, R65), uniform tests (R22, R123), sr.fflags (R62),
and the shapes that lane words have in common. -/

namespace Sys2Proof.Machine

open Sys2Proof

/-- What a meaning answers. -/
abbrev Result := Host.Outcome State Fault Refusal

/-- Relation codes 0 to 5 of R56 on integers. -/
def relation (rel : Nat) (x y : Int) : Bool :=
  if rel = 0 then decide (x = y) else if rel = 1 then decide (x ≠ y) else if rel = 2 then decide (x < y)
  else if rel = 3 then decide (x ≤ y) else if rel = 4 then decide (x > y) else decide (x ≥ y)

/-- Combination codes 0 to 2 of R56 of a flag with a relation. -/
def combineFlag (comb : Nat) (old r : Bool) : Bool := if comb = 0 then r else if comb = 1 then old && r else old || r

/-- Tests 1 any, 2 all, 3 none of R22 over the issuing lanes' flags. -/
def uniformTest (test : Nat) (fs : List Bool) : Bool :=
  if test = 1 then fs.any id else if test = 2 then fs.all id else fs.all (!·)

/-- Each issuing lane becomes what f makes of it and goes on. -/
def State.eachLane (s : State) (f : Nat → Lane → Lane) : State := s.mapLanes fun l x => (f l x).next

/-- Lane register n as lane l reads it. -/
def State.look (s : State) (l : Nat) (x : Lane) (n : BitVec 7) : W32 := x.rd s.free l n.toNat
/-- The pair from lane register n as lane l reads it. -/
def State.look64 (s : State) (l : Nat) (x : Lane) (n : BitVec 7) : W64 := x.rd64 s.free l n.toNat

/-- Each issuing lane writes a register. -/
def State.lane32 (s : State) (d : BitVec 7) (f : Nat → Lane → W32) : State := s.eachLane fun l x => x.setReg d.toNat (f l x)
/-- Each issuing lane writes a pair. -/
def State.lane64 (s : State) (d : BitVec 7) (f : Nat → Lane → W64) : State := s.eachLane fun l x => x.setReg64 d.toNat (f l x)
/-- Each issuing lane writes a flag. -/
def State.laneFlag (s : State) (n : Nat) (f : Nat → Lane → Bool) : State := s.eachLane fun l x => x.setFlag n (f l x)

/-- ORs flags into a lane's sr.fflags (R62). -/
def Lane.raise (x : Lane) (f : BitVec 5) : Lane := { x with fflags := x.fflags ||| f }

/-- The code of sr.round of the issuing strand (R61). -/
def State.mode (s : State) : Nat := s.curParty.round.toNat

end Sys2Proof.Machine
end

