-- ==== Sys2Proof/Machine/LaneFloat.lean ====
section
/-! DEFINITION. Floating lane words, majors 0x10 to 0x1F (R60 to R74). -/

namespace Sys2Proof.Machine

open Sys2Proof

/-- The operand of a floating word of a type of R30: 64 bits of a pair, or a register. -/
def State.floatOperand (s : State) (t : BitVec 2) (l : Nat) (x : Lane) (n : BitVec 7) : Nat :=
  if t = 1 then (s.look64 l x n).toNat else (s.look l x n).toNat

/-- An operation of one element applied to each element of a type of R30: .f32, .f64, .f16x2, .bf16x2. -/
def perElement (t : BitVec 2) (op : Fmt → Nat → Nat → Nat → FRes) (a b c : Nat) : FRes :=
  if t = 0 then op F32 a b c
  else if t = 1 then op F64 a b c
  else
    let f := if t = 2 then F16 else BF16
    let lo := op f (a % 2 ^ 16) (b % 2 ^ 16) (c % 2 ^ 16)
    let hi := op f (a / 2 ^ 16) (b / 2 ^ 16) (c / 2 ^ 16)
    (lo.1 + 2 ^ 16 * hi.1, lo.2 ||| hi.2)

/-- A floating result written to vd and its flags ORed into the lane's sr.fflags (R62). -/
def Lane.putFloat (x : Lane) (t : BitVec 2) (d : BitVec 7) (r : FRes) : Lane :=
  (if t = 1 then x.setReg64 d.toNat (w64 r.1) else x.setReg d.toNat (w32 r.1)).raise r.2

/-- The lane words of R64: vd from va, vb and vd. -/
def State.laneFloat (s : State) (t : BitVec 2) (d a b : BitVec 7) (op : Fmt → Nat → Nat → Nat → FRes) : State :=
  s.eachLane fun l x => x.putFloat t d
    (perElement t op (s.floatOperand t l x a) (s.floatOperand t l x b) (s.floatOperand t l x d))

/-- Floating addition of bit patterns (R64). -/
def opAdd (mode : Nat) (f : Fmt) (a b _c : Nat) : FRes := f.addVals mode (f.read a) (f.read b)
/-- Floating subtraction of bit patterns (R64). -/
def opSub (mode : Nat) (f : Fmt) (a b _c : Nat) : FRes := f.addVals mode (f.read a) (f.read b).neg
/-- Floating multiplication of bit patterns (R64). -/
def opMul (mode : Nat) (f : Fmt) (a b _c : Nat) : FRes := f.mulVals mode (f.read a) (f.read b)
/-- Fused multiply-add of bit patterns (R64). -/
def opFma (mode : Nat) (f : Fmt) (a b c : Nat) : FRes := f.fmaVals mode (f.read a) (f.read b) (f.read c)
/-- minimumNumber or maximumNumber of bit patterns (R64). -/
def opMinMax (big : Bool) (f : Fmt) (a b _c : Nat) : FRes := f.minMax big a b

/-- FADD (R64). -/
def execFadd (d a b : BitVec 7) (t st : BitVec 2) (s : State) : Result :=
  gate (.fadd d a b t st) s fun s => s.laneFloat t d a b (opAdd s.mode)

/-- FSUB (R64). -/
def execFsub (d a b : BitVec 7) (t st : BitVec 2) (s : State) : Result :=
  gate (.fsub d a b t st) s fun s => s.laneFloat t d a b (opSub s.mode)

/-- FMUL (R64). -/
def execFmul (d a b : BitVec 7) (t st : BitVec 2) (s : State) : Result :=
  gate (.fmul d a b t st) s fun s => s.laneFloat t d a b (opMul s.mode)

/-- FFMA (R64). -/
def execFfma (d a b : BitVec 7) (t st : BitVec 2) (s : State) : Result :=
  gate (.ffma d a b t st) s fun s => s.laneFloat t d a b (opFma s.mode)

/-- FMIN (R64). -/
def execFmin (d a b : BitVec 7) (t st : BitVec 2) (s : State) : Result :=
  gate (.fmin d a b t st) s fun s => s.laneFloat t d a b (opMinMax false)

/-- FMAX (R64). -/
def execFmax (d a b : BitVec 7) (t st : BitVec 2) (s : State) : Result :=
  gate (.fmax d a b t st) s fun s => s.laneFloat t d a b (opMinMax true)

/-- The relation of `fcmp` on the elements of a type: for a packed type it holds when it holds in both halves (R65). -/
def floatRelation (t : BitVec 2) (rel a b : Nat) : Bool × BitVec 5 :=
  if t = 0 then F32.rel rel a b
  else if t = 1 then F64.rel rel a b
  else
    let f := if t = 2 then F16 else BF16
    let lo := f.rel rel (a % 2 ^ 16) (b % 2 ^ 16)
    let hi := f.rel rel (a / 2 ^ 16) (b / 2 ^ 16)
    (lo.1 && hi.1, lo.2 ||| hi.2)

/-- FCMP (R65). -/
def execFcmp (d a b : BitVec 7) (t st : BitVec 2) (s : State) : Result :=
  gate (.fcmp d a b t st) s fun s => s.eachLane fun l x =>
    let n := d.toNat % 4
    let r := floatRelation t (d.toNat / 4 % 8) (s.floatOperand t l x a) (s.floatOperand t l x b)
    (x.setFlag n (combineFlag (d.toNat / 32) (x.rdFlag s.free l n) r.1)).raise r.2

/-- FSGN (R66). -/
def execFsgn (d a b : BitVec 7) (m st : BitVec 2) (s : State) : Result :=
  gate (.fsgn d a b m st) s fun s => s.lane32 d fun l x =>
    let p := s.look l x a
    let q := s.look l x b
    let sign := if m = 0 then q.msb else if m = 1 then !q.msb else p.msb != q.msb
    BitVec.ofBool sign ++ p.extractLsb' 0 31

/-- The rounding code of a conversion: 7 takes sr.round (R61, R67). -/
def State.roundCode (s : State) (c : BitVec 7) : Nat := if c.toNat / 16 = 7 then s.mode else c.toNat / 16

/-- The source bits of a conversion from a float: a pair, a register, or a half of it (R67). -/
def State.cvtSource (s : State) (l : Nat) (x : Lane) (a : BitVec 7) (code : Nat) (h : BitVec 1) : Nat :=
  if code = 1 then (s.look64 l x a).toNat
  else if code = 0 then (s.look l x a).toNat
  else if h = 1 then (s.look l x a).toNat / 2 ^ 16 else (s.look l x a).toNat % 2 ^ 16

/-- Writes a converted float; `.hi` keeps the lower half of vd (R67). -/
def State.cvtWrite (s : State) (l : Nat) (x : Lane) (d : BitVec 7) (code : Nat) (h : BitVec 1) (v : Nat) : Lane :=
  if code = 1 then x.setReg64 d.toNat (w64 v)
  else if code = 0 ∨ h = 0 then x.setReg d.toNat (w32 v)
  else x.setReg d.toNat (BitVec.ofNat 16 v ++ (s.look l x d).setWidth 16)

/-- CVT_F (R68). -/
def execCvtF (d a c : BitVec 7) (h t : BitVec 1) (st : BitVec 2) (s : State) : Result :=
  gate (.cvtF d a c h t st) s fun s => s.eachLane fun l x =>
    let src := c.toNat % 4
    let dst := c.toNat / 4 % 4
    let r := convert (laneFmt src) (laneFmt dst) (s.roundCode c) (t == 1) (s.cvtSource l x a src h)
    (s.cvtWrite l x d dst h r.1).raise r.2

/-- Lowest and highest value of an integer type code of R67. -/
def intRange (code : Nat) : Int × Int :=
  if code = 0 then (-(2 ^ 31), 2 ^ 31 - 1) else if code = 1 then (0, 2 ^ 32 - 1)
  else if code = 2 then (-(2 ^ 63), 2 ^ 63 - 1) else (0, 2 ^ 64 - 1)

/-- CVT_FI (R69). -/
def execCvtFi (d a c : BitVec 7) (h : BitVec 1) (st : BitVec 2) (s : State) : Result :=
  gate (.cvtFi d a c h st) s fun s => s.eachLane fun l x =>
    let src := c.toNat % 4
    let dst := c.toNat / 4 % 4
    let r := toInteger (laneFmt src) (s.roundCode c) (intRange dst).1 (intRange dst).2 (s.cvtSource l x a src h)
    (if dst < 2 then x.setReg d.toNat (BitVec.ofInt 32 r.1) else x.setReg64 d.toNat (BitVec.ofInt 64 r.1)).raise r.2

/-- An integer operand of a type code of R67. -/
def State.intSource (s : State) (l : Nat) (x : Lane) (a : BitVec 7) (code : Nat) : Int :=
  if code = 0 then (s.look l x a).toInt else if code = 1 then (s.look l x a).toNat
  else if code = 2 then (s.look64 l x a).toInt else (s.look64 l x a).toNat

/-- CVT_IF (R70). -/
def execCvtIf (d a c : BitVec 7) (h : BitVec 1) (st : BitVec 2) (s : State) : Result :=
  gate (.cvtIf d a c h st) s fun s => s.eachLane fun l x =>
    let dst := c.toNat / 4 % 4
    let r := ofInteger (laneFmt dst) (s.roundCode c) (s.intSource l x a (c.toNat % 4))
    (s.cvtWrite l x d dst h r.1).raise r.2

/-- FCLASS (R71). -/
def execFclass (d a : BitVec 7) (t st : BitVec 2) (s : State) : Result :=
  gate (.fclass d a t st) s fun s => s.lane32 d fun l x =>
    w32 (2 ^ (laneFmt t.toNat).classBit (s.floatOperand t l x a % 2 ^ (laneFmt t.toNat).w))

/-- A special function of va, .f32 or .f64, written to vd (R72). -/
def State.special (s : State) (t : BitVec 1) (d a : BitVec 7) (op : Fmt → Nat → FRes) : State :=
  s.eachLane fun l x =>
    if t = 1 then let r := op F64 (s.look64 l x a).toNat; (x.setReg64 d.toNat (w64 r.1)).raise r.2
    else let r := op F32 (s.look l x a).toNat; (x.setReg d.toNat (w32 r.1)).raise r.2

/-- RCP (R73, R74). -/
def execRcp (d a : BitVec 7) (t : BitVec 1) (st : BitVec 2) (s : State) : Result :=
  gate (.rcp d a t st) s fun s => s.special t d a fun f v => sfRcp f s.mode v

/-- RSQRT (R73, R74). -/
def execRsqrt (d a : BitVec 7) (t : BitVec 1) (st : BitVec 2) (s : State) : Result :=
  gate (.rsqrt d a t st) s fun s => s.special t d a sfRsqrt

/-- SQRT (R73, R74). -/
def execSqrt (d a : BitVec 7) (t : BitVec 1) (st : BitVec 2) (s : State) : Result :=
  gate (.sqrt d a t st) s fun s => s.special t d a fun f v => sfSqrt f s.mode v

/-- EXP2 (R73, R74). -/
def execExp2 (d a : BitVec 7) (t : BitVec 1) (st : BitVec 2) (s : State) : Result :=
  gate (.exp2 d a t st) s fun s => s.special t d a sfExp2

/-- LOG2 (R73, R74). -/
def execLog2 (d a : BitVec 7) (t : BitVec 1) (st : BitVec 2) (s : State) : Result :=
  gate (.log2 d a t st) s fun s => s.special t d a sfLog2

/-- SIN (R73, R74). -/
def execSin (d a : BitVec 7) (st : BitVec 2) (s : State) : Result :=
  gate (.sin d a st) s fun s => s.special 0 d a (sfTrig false)

/-- COS (R73, R74). -/
def execCos (d a : BitVec 7) (st : BitVec 2) (s : State) : Result :=
  gate (.cos d a st) s fun s => s.special 0 d a (sfTrig true)

/-- TANH (R73, R74). -/
def execTanh (d a : BitVec 7) (st : BitVec 2) (s : State) : Result :=
  gate (.tanh d a st) s fun s => s.special 0 d a sfTanh

/-- LGST (R73, R74). -/
def execLgst (d a : BitVec 7) (st : BitVec 2) (s : State) : Result :=
  gate (.lgst d a st) s fun s => s.special 0 d a sfLgst

end Sys2Proof.Machine
end

