-- ==== Sys2Proof/Machine/Cross.lean ====
section
/-! DEFINITION. Where the lanes of a strand wait for each other (R75 to R77, R94, R160), and the cross-lane words, majors
0x20 to 0x27 (R78 to R86). -/

namespace Sys2Proof.Machine

open Sys2Proof

/-! ### Gathering -/

/-- Waits that only the other lanes of the strand end (R76). -/
def Wait.gathers : Wait → Bool
  | .crossLane | .rendezvous | .clauseHeader | .reconv .. => true
  | _ => false

/-- The key of a lane that waits at a `reconv` (R94). -/
def Wait.key : Wait → Option Nat
  | .reconv k _ => some k
  | _ => Option.none

/-- Every non-exited lane of the party waits for the others (R76). -/
def Party.gathered (p : Party) : Bool := p.active.all fun l => (p.lane l).wait.gathers

/-- All of them wait at one cross-lane word, rendezvous word or clause header (R75, R77, R160). -/
def Party.together (p : Party) : Bool :=
  p.active.all fun l => (p.lane l).wait.key == none && (p.lane l).pc == (p.lane (p.active.head?.getD 0)).pc

/-- All of them wait at `reconv` words of one key (R94). -/
def Party.reconverged (p : Party) : Bool :=
  p.active.all fun l =>
    match (p.lane l).wait.key with
    | none => false
    | some k => (p.lane (p.active.head?.getD 0)).wait.key == some k

/-- The cross-lane mismatch trap, at the waiting word of the lowest waiting lane (R76). -/
def State.mismatch (s : State) : State :=
  let low := s.curParty.active.head?.getD 0
  s.takeTrap [low] low { kind := 12 }

/-- The issuing lanes wait at their word for the rest of the strand. When the last lane has come, the word acts once for
all of them; waits that can never end take the mismatch trap (R75, R76, R94, R160). -/
def State.gather (s : State) (w : Wait) (body : State → State) : State :=
  let s := s.hold w
  let P := s.curParty
  if !P.gathered then s
  else if P.together || P.reconverged then body { s with cur := { s.cur with lanes := P.active } }
  else s.mismatch

/-- A cross-lane word (R75). -/
def State.crossLane (s : State) (body : State → State) : State := s.gather .crossLane body

/-- A rendezvous word of R160; a sequencer context waits for nobody. -/
def State.rendezvous (s : State) (body : State → State) : State :=
  if s.curParty.seq then body s else s.gather .rendezvous body

/-! ### Cross-lane words -/

/-- What each participant holds, by lane number ascending. -/
def State.each {α : Type} (s : State) (f : Nat → Lane → α) : List (Nat × α) :=
  s.cur.lanes.map fun l => (l, f l (s.curParty.lane l))

/-- Lane l's entry among the participants. -/
def entryOf {α : Type} (xs : List (Nat × α)) (l : Nat) : Option α := (xs.find? fun e => e.1 == l).map (·.2)

/-- The source lane of `shfl`: 0 idx, 1 up, 2 down, 3 xor (R78). -/
def shflSource (m i b : Nat) : Int :=
  if m = 0 then b else if m = 1 then (i : Int) - b else if m = 2 then i + b else (i ^^^ b : Nat)

/-- SHFL (R78). -/
def execShfl (d a b : BitVec 7) (m st : BitVec 2) (s : State) : Result :=
  gate (.shfl d a b m st) s fun s => s.crossLane fun s =>
    let vals := s.each fun l x => s.look l x a
    s.lane32 d fun l x =>
      let src := shflSource m.toNat l (s.look l x b).toNat
      if 0 ≤ src ∧ src < s.curTeam.hdr.width then (entryOf vals src.toNat).getD (s.look l x a) else s.look l x a

/-- VOTE_ANY (R79). -/
def execVoteAny (d c st : BitVec 2) (s : State) : Result :=
  gate (.voteAny d c st) s fun s => s.crossLane fun s =>
    let r := (s.flagList c.toNat).any id
    s.laneFlag d.toNat fun _ _ => r

/-- VOTE_ALL (R79). -/
def execVoteAll (d c st : BitVec 2) (s : State) : Result :=
  gate (.voteAll d c st) s fun s => s.crossLane fun s =>
    let r := (s.flagList c.toNat).all id
    s.laneFlag d.toNat fun _ _ => r

/-- A mask of lanes, written to one register, or to a pair at W = 64 (R79). -/
def State.putMask (s : State) (d : BitVec 7) (x : Lane) (mask : Nat) : Lane :=
  x.setGroup d.toNat (maskRegs s.curTeam.hdr.width) mask

/-- VOTE_BALLOT (R79). -/
def execVoteBallot (d : BitVec 7) (c st : BitVec 2) (s : State) : Result :=
  gate (.voteBallot d c st) s fun s => s.crossLane fun s =>
    let mask := ((s.each fun l x => x.rdFlag s.free l c.toNat).map fun e => if e.2 then 2 ^ e.1 else 0).sum
    s.eachLane fun _ x => s.putMask d x mask

/-- The prefix of `scan` for lane i: wrapping sum, exclusive sum, or .s32 maximum or minimum (R80). -/
def scanResult (m i : Nat) (xs : List (Nat × W32)) : W32 :=
  let below := (xs.filter fun e => if m = 1 then decide (e.1 < i) else decide (e.1 ≤ i)).map (·.2)
  if m < 2 then below.foldl (· + ·) 0
  else if m = 2 then below.foldl (fun a x => if a.toInt < x.toInt then x else a) 0x80000000#32
  else below.foldl (fun a x => if x.toInt < a.toInt then x else a) 0x7FFFFFFF#32

/-- SCAN (R80). -/
def execScan (d a : BitVec 7) (m st : BitVec 2) (s : State) : Result :=
  gate (.scan d a m st) s fun s => s.crossLane fun s =>
    let vals := s.each fun l x => s.look l x a
    s.lane32 d fun l _ => scanResult m.toNat l vals

/-- MATCH (R81). -/
def execMatchLanes (d a : BitVec 7) (m : BitVec 1) (st : BitVec 2) (s : State) : Result :=
  gate (.matchLanes d a m st) s fun s => s.crossLane fun s =>
    let key := fun (l : Nat) (x : Lane) => if m = 1 then s.look64 l x a else (s.look l x a).setWidth 64
    let vals := s.each key
    s.eachLane fun l x => s.putMask d x ((vals.map fun e => if e.2 = key l x then 2 ^ e.1 else 0).sum)

/-- ELECT (R82). -/
def execElect (d st : BitVec 2) (s : State) : Result :=
  gate (.elect d st) s fun s => s.crossLane fun s =>
    let low := s.firstLane
    s.laneFlag d.toNat fun l _ => l == low

/-- The pairwise tree of R83 over a power of two of values: the upper half folds onto the lower at each of n levels. -/
def foldTree (op : Nat → Nat → FRes) : Nat → List FRes → FRes
  | 0, xs => xs.headD (0, 0)
  | n + 1, xs =>
    foldTree op n (((xs.take (2 ^ n)).zip (xs.drop (2 ^ n))).map fun p =>
      let r := op p.1.1 p.2.1
      (r.1, p.1.2 ||| p.2.2 ||| r.2))

/-- REDS (R83). -/
def execReds (d a : BitVec 7) (m st : BitVec 2) (s : State) : Result :=
  gate (.reds d a m st) s fun s => s.crossLane fun s =>
    let f := if m = 1 then F64 else F32
    let vals := s.each fun l x => if m = 1 then (s.look64 l x a).toNat else (s.look l x a).toNat
    let identity := if m.toNat < 2 then f.sign true 0 else f.nanBits
    let op := fun x y => if m.toNat < 2 then f.addVals s.mode (f.read x) (f.read y) else f.minMax (m == 2) x y
    let W := s.curTeam.hdr.width
    let r := foldTree op (Nat.log2 W) ((List.range W).map fun i => ((entryOf vals i).getD identity, 0))
    s.eachLane fun _ x => x.putFloat (if m = 1 then 1 else 0) d r

/-- One input of `reds.af`: its count of 2^a, NX, infinite, and NaN (R84). -/
def afInput (m : Nat) (a : Int) (v : Nat) : Int × Bool × Bool × Bool :=
  if m = 2 then (signed 64 v, false, false, v % 2 ^ 64 == 2 ^ 63)
  else
    let x := (if m = 0 then F32 else F64).read v
    let r := roundToAnchor x a
    (r.1, r.2, (match x with | .inf _ => true | _ => false), x.isNan)

/-- REDS_AF (R84). The anchor is that of the lowest participant. -/
def execRedsAf (d a b : BitVec 7) (m st : BitVec 2) (s : State) : Result :=
  gate (.redsAf d a b m st) s fun s => s.crossLane fun s =>
    let anchor := signed 8 ((s.look s.firstLane (s.curParty.lane s.firstLane) b).toNat)
    let xs := (s.each fun l x =>
      afInput m.toNat anchor (if m = 0 then (s.look l x a).toNat else (s.look64 l x a).toNat)).map (·.2)
    let sum := (xs.map (·.1)).sum
    let res := clampAF 64 sum
    let nan := xs.any fun e => e.2.2.2
    let fl : BitVec 5 := (if xs.any fun e => e.2.1 then fNX else 0) ||| (if (!nan && res != sum) || xs.any fun e => e.2.2.1 then fOF else 0)
      ||| (if nan then fNV else 0)
    s.eachLane fun _ x => (x.setReg64 d.toNat (if nan then 0x8000000000000000#64 else BitVec.ofInt 64 res)).raise fl

/-- REDS_INT (R85). -/
def execRedsInt (d a : BitVec 7) (o t st : BitVec 2) (s : State) : Result :=
  gate (.redsInt d a o t st) s fun s => s.crossLane fun s =>
    let xs := (s.each fun l x => s.intSource l x a t.toNat).map (·.2)
    let r : Int :=
      if o = 0 then xs.sum
      else xs.tail.foldl (fun p q => if o = 1 then Min.min p q else Max.max p q) (xs.headD 0)
    s.eachLane fun _ x =>
      if t.toNat < 2 then x.setReg d.toNat (BitVec.ofInt 32 r) else x.setReg64 d.toNat (BitVec.ofInt 64 r)

end Sys2Proof.Machine
end

