-- ==== Sys2Proof/Machine/Fetch.lean ====
section
/-! DEFINITION. Reading code (R91, R93, R166, R167, R298): instruction words through the caches, and the tables of `brx`
and `sjmp` with instruction-fetch rights. -/

namespace Sys2Proof.Machine

open Sys2Proof

/-- n bytes at an address with the instruction-fetch rights of a team (R91, R93). -/
def State.readCode (s : State) (t va n : Nat) : Except FetchFail Nat :=
  let T := s.team t
  match s.locate T.slot T.alloc .fetch va n with
  | .error .absent => .error .missing
  | .error (.bad d) => .error (.violation d)
  | .error _ => .error .missing
  | .ok (.peer _ _) => .error (.violation 5)
  | .ok l => match s.readLoc T.mem l n with
    | .error (.bad d) => .error (.violation d)
    | .error _ => .error .missing
    | .ok v => .ok v

/-- The 16 words of a 64-byte fetch block (R298). -/
def blockWords (v : Nat) : List W32 := (List.range 16).map fun i => w32 (v / 2 ^ (32 * i))

/-- The word at an address in its fetch block. -/
def wordOf (block : List W32) (va : Nat) : W32 := (block[va / 4 % 16]?).getD 0

/-- Copies of the fetch block of an address that a fetch of a party may take: those that it has fetched, and those in an
instruction cache (R166, R167, R298). -/
def State.blockCopies (s : State) (t k va : Nat) : List (List W32) :=
  (((s.party t k).prefetch.filter fun e => e.1 == va / 64).map (·.2))
    ++ (s.icache.filter fun e => e.1 == (s.team t).asid.toNat && e.2.1 == va / 64).map fun e => e.2.2

/-- The word that a fetch of a party takes: memory's, or that of another copy of its block when the free choice takes it (R298). -/
def State.fetchWord (s : State) (t k va : Nat) : Except FetchFail Nat :=
  match s.readCode t va 4 with
  | .error f => .error f
  | .ok v => match (s.blockCopies t k va).find? fun b => (wordOf b va).toNat != v with
    | none => .ok v
    | some b => if Config.usesCached s.free then .ok (wordOf b va).toNat else .ok v

/-- A block that is in no instruction cache enters it as memory holds it (R298). -/
def State.cacheBlock (s : State) (asid b : Nat) (x : List W32) : State :=
  if s.icache.any fun e => e.1 == asid && e.2.1 == b then s else { s with icache := (asid, b, x) :: s.icache }

/-- After a fetch of word v: the party has fetched the word's block and the one behind it, each through the instruction cache. A block
that the party had fetched before does not go back to the cache after an `icinv` (R166, R167, R298). -/
def State.keepWord (s : State) (t k va v : Nat) : State :=
  let T := s.team t
  let b := va / 64
  let read := fun (b : Nat) => match s.readCode t (64 * b) 64 with | .ok x => [blockWords x] | .error _ => []
  let fetched := fun (s' : State) (b : Nat) (old : List (List W32)) =>
    if old.isEmpty then (read b).foldl (fun s x => s.cacheBlock T.asid.toNat b x) s' else s'
  let here := (s.blockCopies t k va).filter fun x => (wordOf x va).toNat == v
  let behind := s.blockCopies t k (va + 64)
  let ahead := ((here ++ read b).take 1).map (fun x => (b, x)) ++ (dedup (behind ++ read (b + 1))).map fun x => (b + 1, x)
  let s' := fetched (fetched s b here) (b + 1) behind
  (s'.setParty t k { s.party t k with prefetch := ahead }).keepLeaf T.slot va

/-- The outcome of `brx` or `sjmp` for an index: the `lpad`'s address, a control-flow detail of R92, or a failed read with
its address. -/
inductive Jump where
  | to (pc : W64)
  | bad (detail : Nat)
  | fail (f : FetchFail) (addr : Nat)
  deriving DecidableEq, Repr

/-- The jump table's resolution of an index (R91, R128). -/
def State.jumpTable (s : State) (i : Nat) : Jump :=
  let T := s.curTeam
  if i ≥ T.hdr.jtlimit.toNat then .bad 1
  else
    let base := T.hdrAddr + T.hdr.jtbase
    let a := (base + w64 (8 * i)).toNat
    match s.readCode s.cur.team a 8 with
    | .error f => .fail f a
    | .ok e =>
      if bits e 63 48 ≠ 0 ∨ e % 4 ≠ 0 then .bad 2
      else
        let target := base + (BitVec.ofNat 32 e).signExtend 64
        match s.readCode s.cur.team target.toNat 4 with
        | .error f => .fail f target.toNat
        | .ok w =>
          if bit w 31 || bits w 30 25 != 0x2A || bits w 24 18 != 0 then .bad 3
          else if bits w 17 2 ≠ bits e 47 32 then .bad 4
          else .to target

/-- The addresses that the resolution of an index reads (R91, R93). -/
def State.jumpReads (s : State) (i : Nat) : List Nat :=
  let T := s.curTeam
  if i ≥ T.hdr.jtlimit.toNat then []
  else
    let base := T.hdrAddr + T.hdr.jtbase
    let a := (base + w64 (8 * i)).toNat
    a :: match s.readCode s.cur.team a 8 with
    | .error _ => []
    | .ok e => if bits e 63 48 ≠ 0 ∨ e % 4 ≠ 0 then [] else [(base + (BitVec.ofNat 32 e).signExtend 64).toNat]

/-- What the walks of those reads leave cached (R328). -/
def State.keepJump (s : State) (i : Nat) : State := (s.jumpReads i).foldl (fun (s : State) a => s.keepLeaf s.curTeam.slot a) s

end Sys2Proof.Machine
end

