-- ==== Sys2Proof/Machine/Control.lean ====
section
/-! DEFINITION. Lane control words, majors 0x28 to 0x2D (R88 to R95), the return stack and its backing (R257, R258), and the
clause words (R35 to R39, R129, R130). -/

namespace Sys2Proof.Machine

open Sys2Proof

/-- Whether a lane takes a branch of an LB condition (R21). -/
def State.taken (s : State) (c : BitVec 3) (l : Nat) : Bool :=
  let x := s.curParty.lane l
  if c = 0 then true
  else if c.toNat ≤ 4 then x.rdFlag s.free l (c.toNat - 1)
  else !x.rdFlag s.free l (c.toNat - 5)

/-- The target of a word offset (R19). -/
def target {n : Nat} (pc : W64) (o : BitVec n) : W64 := pc + 4#64 * sx64 o

/-- BRA (R88). -/
def execBra (c : BitVec 3) (o : BitVec 20) (st : BitVec 2) (s : State) : Result :=
  gate (.bra c o st) s fun s =>
    let go := s.cur.lanes.filter fun l => s.taken c l
    let s := s.traceBranch go fun l => target (s.curParty.lane l).pc o
    s.eachLane fun l x => if go.contains l then { x with pc := target x.pc o - 4 } else x

/-- What a lane does at a failed read of code: it parks, or faults at the word (R93). -/
def fetchOut (f : FetchFail) (addr : Nat) : Out :=
  match f with
  | .missing => .park addr false
  | .violation d => .trap { kind := 5, detail := d, info := addr }

/-- Runs the lanes of a control word whose accesses are of a kind: `.done pc` sends a lane to that address. -/
def State.laneJump (s : State) (acc : Acc) (w : Instr) (f : State → Nat → State × Out) : State :=
  s.laneWord acc { word := w, op := .load, code := 0, ty := 0, reads := true, dests := [], acquire := false } f
    fun _ v x => { x with pc := w64 v - 4 }

/-- BRX (R91). -/
def execBrx (a : BitVec 7) (st : BitVec 2) (s : State) : Result :=
  gate (.brx a st) s fun s =>
    let dest := fun (l : Nat) => s.jumpTable (s.look l (s.curParty.lane l) a).toNat
    let s := s.traceBranch (s.cur.lanes.filter fun l => match dest l with | .to _ => true | _ => false) fun l =>
      match dest l with | .to p => p | _ => 0
    let index := fun (l : Nat) => s.look l (s.curParty.lane l) a
    s.laneJump .fetch (.brx a st) fun s l =>
      (s.keepJump (index l).toNat, match dest l with
        | .to p => .done p.toNat
        | .bad d => .trap { kind := 2, detail := d }
        | .fail f addr => fetchOut f addr)

/-- LPAD (R90). -/
def execLpad (k : BitVec 16) (st : BitVec 2) (s : State) : Result :=
  gate (.lpad k st) s fun s => s.advance

/-! ### Return stack -/

/-- Entries of a lane's return stack: D of R89. -/
def Party.depthLimit (p : Party) (W : Nat) : Nat := p.stacklim.toNat / (8 * W)

/-- The backing address of entry e, counted from the bottom, of lane l (R257). -/
def State.backing (s : State) (l e : Nat) : Nat := s.backingAt s.curTeam s.cur.party l e

/-- Where entry e of lane l is backed; a spill (write) or fill (read) that cannot be made raises the fault of R258, logged as a
write or a read (R333). The backing lies in near memory: a leaf of far memory cannot be used (R257). -/
def State.backingPlace (s : State) (acc : Acc) (l e : Nat) : Except Cause Place :=
  let a := s.backing l e
  match s.locate s.curTeam.slot 0 acc a 8 with
  | .ok (.phys (.near p)) => .ok (.near p)
  | _ => .error { kind := 5, detail := 9, info := a }

/-- What the walk of a backing address leaves cached (R328). -/
def State.keepBacking (s : State) (l e : Nat) : State := s.keepLeaf s.curTeam.slot (s.backing l e)

/-- A spill of an entry of a lane (R257). -/
def State.spill (s : State) (l e : Nat) (v : W64) : Except (State × Cause) State :=
  match s.backingPlace .write l e with
  | .error c => .error (s.keepBacking l e, c)
  | .ok p => .ok ((s.keepBacking l e).writePlace p 8 v.toNat)

/-- A fill of an entry of a lane; one in uncorrectable error fails too (R257, R258, R351). -/
def State.fill (s : State) (l e : Nat) : Except (State × Cause) (State × W64) :=
  match s.backingPlace .read l e with
  | .error c => .error (s.keepBacking l e, c)
  | .ok p => if s.isBad p 8 then .error ((s.keepBacking l e).countUncorrected, { kind := 5, detail := 9, info := s.backing l e })
    else .ok (s.keepBacking l e, w64 (s.readPlace p 8))

/-- Writes the issuing party's lane l. -/
def State.setCurLane (s : State) (l : Nat) (x : Lane) : State := s.setLane s.cur.team s.cur.party l x

/-- One lane's `call`: the stack limit first, then a spill of the oldest cached entry when four are cached (R89, R257). -/
def State.callLane (s : State) (l : Nat) : Except (State × Cause) State :=
  let x := s.curParty.lane l
  let pushed := fun (s : State) (kept : List W64) => s.setCurLane l { x with stack := (x.pc + 4) :: kept, depth := x.depth + 1 }
  if x.depth ≥ s.curParty.depthLimit s.curTeam.hdr.width then .error (s, { kind := 3 })
  else if x.stack.length < 4 then .ok (pushed s x.stack)
  else match s.spill l (x.depth - x.stack.length) (x.stack.getLastD 0) with
    | .error e => .error e
    | .ok s => .ok (pushed s (x.stack.take 3))

/-- CALL (R89). -/
def execCall (o : BitVec 20) (st : BitVec 2) (s : State) : Result :=
  gate (.call o st) s fun s =>
    let dest := fun (l : Nat) => target (s.curParty.lane l).pc o
    let s := s.traceBranch (s.cur.lanes.filter fun l => (s.callLane l).toBool) dest
    s.laneJump .write (.call o st) fun s l => match s.callLane l with
      | .ok s => (s, .done (dest l).toNat)
      | .error e => (e.1, .trap e.2)

/-- One lane's `ret`: the lane after the pop, and the entry to go to; a top entry that is not cached is filled first, and the next
one when none would stay cached (R89, R257, log 15). -/
def State.retLane (s : State) (l : Nat) : Except (State × Cause) (State × W64) :=
  let x := s.curParty.lane l
  if x.depth = 0 then .error (s, { kind := 2, detail := 5 })
  else
    let top := match x.stack with
      | [] => (s.fill l (x.depth - 1)).map fun (r : State × W64) => (r.1, r.2, ([] : List W64))
      | a :: rest => .ok (s, a, rest)
    match top with
    | .error e => .error e
    | .ok (s, a, rest) =>
      match (if rest.isEmpty && decide (1 < x.depth) then (s.fill l (x.depth - 2)).map fun (r : State × W64) => (r.1, [r.2]) else .ok (s, rest)) with
      | .error e => .error e
      | .ok (s, rest) => .ok (s.setCurLane l { x with stack := rest, depth := x.depth - 1 }, a)

/-- RET (R89). -/
def execRet (st : BitVec 2) (s : State) : Result :=
  gate (.ret st) s fun s =>
    let dest := fun (l : Nat) => match s.retLane l with | .ok p => p.2 | .error _ => 0
    let s := s.traceBranch (s.cur.lanes.filter fun l => (s.retLane l).toBool) dest
    s.laneJump .read (.ret st) fun s l => match s.retLane l with
      | .ok p => (p.1, .done p.2.toNat)
      | .error e => (e.1, .trap e.2)

/-- RECONV (R94): the lane waits; the last lane to wait releases all. -/
def execReconv (k : BitVec 16) (st : BitVec 2) (s : State) : Result :=
  gate (.reconv k st) s fun s => s.gather (.reconv k.toNat st) State.advance

/-- A lane that has exited: its program counter and return stack are discarded (R95). -/
def Lane.exit (x : Lane) : Lane :=
  { x with exited := true, pc := 0, depth := 0, stack := [], unit := 0, units := 0, wait := .none, marked := false, clause := none, t := [] }

/-- EXIT (R95). The waits that its leaving may end are looked at again by the lanes that wait. -/
def execExit (st : BitVec 2) (s : State) : Result :=
  gate (.exit st) s fun s =>
    let s := s.trace s.cur.team s.cur.party s.cur.lanes 5 3 (fun l => (s.curParty.lane l).pc) fun _ => 0
    s.mapLanes fun _ x => x.exit

/-! ### Clauses -/

/-- The four slots of a trailer (R36). -/
def slots (w x y z : BitVec 4) : List Nat := [w.toNat, x.toNat, y.toNat, z.toNat]

/-- Registers that a trailer exports (R36). -/
def exported (b : BitVec 7) (es : List Nat) : List Nat := (es.filter (· != 0)).map fun k => b.toNat + k - 1

/-- The slots of a trailer follow R36 for an allotment V. -/
def trailerOk (V : Nat) (b : BitVec 7) (es : List Nat) : Bool :=
  let rs := exported b es
  (rs.all fun r => decide (r < V) && decide (r < 120)) && decide (rs.Nodup)

/-- A word may stand in a clause body: an L word of majors 0x00 to 0x27 that passes every other check of R33 (R37). -/
def bodyOk (V W : Nat) (i : Instr) : Bool :=
  (familyOf i == .body || familyOf i == .cross) && wellFormed i
    && (let u := usesOf W (fun _ => 0) i; (u.vs ++ u.vd).all (groupOk V))

/-- The words of a clause of n body words at a header: its decoded body and trailer, or why a fetch fails. -/
def State.clauseWords (s : State) (pc : W64) : Nat → Except (FetchFail × Nat) (List (Option Instr))
  | 0 => .ok []
  | n + 1 =>
    let a := (pc + 4).toNat
    match s.fetchWord s.cur.team s.cur.party a with
    | .error f => .error (f, a)
    | .ok v => match s.clauseWords (pc + 4) n with
      | .error e => .error e
      | .ok ws => .ok ((match decode (w32 v) with | .ok i => some i | .error _ => none) :: ws)

/-- A clause that passes R37: its body. -/
def clauseBody (V W : Nat) (n : Nat) (ws : List (Option Instr)) : Option (List Instr) :=
  let body := (ws.take n).filterMap id
  let good := body.length == n && body.all (bodyOk V W)
  match ws[n]? with
  | some (some (.clend b w x y z _)) => if good && trailerOk V b (slots w x y z) then some body else none
  | _ => none

/-- Pending exports that a body names and that keep the lane at the header (R130). -/
def Lane.bodyExports (x : Lane) (W : Nat) (body : List Instr) : List RegRef :=
  (x.pend.filter fun e => e.exported && !e.written && body.any fun i =>
    let u := usesOf W (fun _ => 0) i
    u.sources.contains e.reg || u.dests.contains e.reg).map (·.reg)

/-- CLAUSE (R37): the whole clause is checked, its stream after its structure (R33), then its body runs without rescheduling. A clause with
a cross-lane word is entered by the whole strand together (R77). -/
def execClause (n : BitVec 5) (st : BitVec 2) (s : State) : Result :=
  gate (.clause n st) s fun s =>
    let T := s.curTeam
    let pc := (s.curParty.lane s.firstLane).pc
    let seq := s.curParty.seq
    if n.toNat = 0 ∨ n.toNat > 24 then s.illegal true 6
    else match s.clauseWords pc (n.toNat + 1) with
    | .error (.missing, a) => (s.keepLeaf T.slot a).parkUniform a .fetch false
    | .error (.violation d, a) => (s.keepLeaf T.slot a).violateUniform d a .fetch
    | .ok ws => match clauseBody T.hdr.vregs T.hdr.width n.toNat ws with
      | none => s.illegal true 6
      | some body =>
        if seq then s.illegal true 7
        else
          let owed := dedup (s.cur.lanes.flatMap fun l => (s.curParty.lane l).bodyExports T.hdr.width body)
          let start := fun (s : State) =>
            let s := s.trace s.cur.team s.cur.party s.cur.lanes 4 2 (fun _ => pc) fun _ => w64 n.toNat
            s.eachLane fun _ x => { x with clause := some (pc + 4 * w64 (n.toNat + 1)), t := [] }
          if !owed.isEmpty then s.hold (.exported owed)
          else if body.any fun i => familyOf i == .cross then s.gather .clauseHeader start else start s

/-- A scoreboard entry at a trailer: exported registers stay pending, unless the trailer waits for them, as it does for one that a
peer still owes; every other one that the clause wrote is complete (R38, R129, R130). -/
def Pend.atTrailer (rs : List Nat) (full : Bool) (e : Pend) : Option Pend :=
  let out := match e.reg with | .v r => rs.contains r | _ => false
  if e.tag ≠ 0 then some (
    if !out then e else if full && !e.written then { e with full := true, holds := true } else { e with exported := true })
  else if out then (if full then none else some { e with exported := true, clause := false })
  else if e.clause then none else some e

/-- Exports that peers still owe to lanes of a run keep each of its lanes at a trailer of stall count 0b11 (R129, R204). -/
def Party.owedAt (p : Party) (ls rs : List Nat) : List Pend :=
  (ls.flatMap fun l => (p.lane l).pend.filter fun e => e.tag != 0 && !e.written
    && (match e.reg with | .v r => rs.contains r | _ => false)).map fun e => { e with full := true, holds := true, written := true }

/-- CLEND (R36): the clause closes; its temporaries are discarded. -/
def execClend (b : BitVec 7) (w x y z : BitVec 4) (st : BitVec 2) (s : State) : Result :=
  gate (.clend b w x y z st) s fun s =>
    if s.cur.lanes.any fun l => (s.curParty.lane l).clause != some (s.curParty.lane l).pc then s.illegal true 6
    else
      let rs := exported b (slots w x y z)
      let owed := if st = 3 then s.curParty.owedAt s.cur.lanes rs else []
      s.eachLane fun _ L =>
        { L with clause := none, t := []
                 pend := L.pend.filterMap (Pend.atTrailer rs (st == 3)) ++ owed.filter fun e =>
                   !(L.pend.any fun q => q.tag == e.tag && q.reg == e.reg) }

end Sys2Proof.Machine
end

