-- ==== Sys2Proof/Machine/LaneMem.lean ====
section
/-! DEFINITION. Lane memory words, majors 0x30 to 0x3B (R96 to R113). -/

namespace Sys2Proof.Machine

open Sys2Proof

/-- A lane's address: s(56 + base) + SignExtend(va) mod 2^64 (R96). -/
def State.laneAddr (s : State) (b : BitVec 3) (a : BitVec 7) (l : Nat) : Nat :=
  (s.rdS (56 + b.toNat) + (s.look l (s.curParty.lane l) a).signExtend 64).toNat

/-- The registers of a group. -/
def regsFrom (d k : Nat) : List RegRef := (List.range k).map fun i => .v (d + i)

/-- A group of k registers of lane l. -/
def State.groupOf (s : State) (l n k : Nat) : Nat := (s.curParty.lane l).rdGroup s.free l n k

/-- An access of n bytes at A, unless A is misaligned: then the misaligned-access trap (R96). -/
def aligned (s : State) (A n : Nat) (f : State × Out) : State × Out :=
  if A % n ≠ 0 then (s, .trap { kind := 4, info := A }) else f

/-! ### Loads and stores (R98) -/

/-- A load of n bytes into k registers (R98). -/
def State.laneLoad (s : State) (w : Instr) (d a : BitVec 7) (b o : BitVec 3) (n k : Nat) : State :=
  s.laneWord .read { word := w, op := .load, code := 0, ty := 0, reads := true, dests := regsFrom d.toNat k, acquire := o == 1 }
    (fun s l =>
      let A := s.laneAddr b a l
      aligned s A n (let r := s.loadFor s.cur.team .read A n; (r.1, r.2.out l A n 0 0)))
    fun _ v x => x.setGroup d.toNat k v

/-- LD_B (R98). -/
def execLdB (d a : BitVec 7) (b c o : BitVec 3) (st : BitVec 2) (s : State) : Result :=
  gate (.ldB d a b c o st) s fun s => s.laneLoad (.ldB d a b c o st) d a b o 1 1

/-- LD_H (R98). -/
def execLdH (d a : BitVec 7) (b c o : BitVec 3) (st : BitVec 2) (s : State) : Result :=
  gate (.ldH d a b c o st) s fun s => s.laneLoad (.ldH d a b c o st) d a b o 2 1

/-- LD_W (R98). -/
def execLdW (d a : BitVec 7) (b c o : BitVec 3) (st : BitVec 2) (s : State) : Result :=
  gate (.ldW d a b c o st) s fun s => s.laneLoad (.ldW d a b c o st) d a b o 4 1

/-- LD_D (R98). -/
def execLdD (d a : BitVec 7) (b c o : BitVec 3) (st : BitVec 2) (s : State) : Result :=
  gate (.ldD d a b c o st) s fun s => s.laneLoad (.ldD d a b c o st) d a b o 8 2

/-- LD_Q (R98). -/
def execLdQ (d a : BitVec 7) (b c o : BitVec 3) (st : BitVec 2) (s : State) : Result :=
  gate (.ldQ d a b c o st) s fun s => s.laneLoad (.ldQ d a b c o st) d a b o 16 4

/-- A store of the n low bytes of k registers (R98); a plain or streaming one to a peer enters the write-combining buffer,
a release goes out as a request (R287, R417). -/
def State.laneStore (s : State) (w : Instr) (d a : BitVec 7) (b o : BitVec 3) (n k : Nat) : State :=
  s.laneWord .write { word := w, op := .store, code := 0, ty := 0, reads := false, dests := [], acquire := false }
    (fun s l =>
      let A := s.laneAddr b a l
      let v := s.groupOf l d.toNat k % 2 ^ (8 * n)
      aligned s A n (match s.storeFor s.cur.team A n v with
        | (s, .peer m p) =>
          if o = 2 then (s, Got.out (.peer m p) l A n v 0)
          else (s.combine s.curParty.core s.cur.team s.cur.party [l] m s.curTeam.asid p n v (w64 A), .done 0)
        | (s, g) => (s, g.out l A n v 0)))
    fun _ _ x => x

/-- ST_B (R98). -/
def execStB (d a : BitVec 7) (b c o : BitVec 3) (st : BitVec 2) (s : State) : Result :=
  gate (.stB d a b c o st) s fun s => s.laneStore (.stB d a b c o st) d a b o 1 1

/-- ST_H (R98). -/
def execStH (d a : BitVec 7) (b c o : BitVec 3) (st : BitVec 2) (s : State) : Result :=
  gate (.stH d a b c o st) s fun s => s.laneStore (.stH d a b c o st) d a b o 2 1

/-- ST_W (R98). -/
def execStW (d a : BitVec 7) (b c o : BitVec 3) (st : BitVec 2) (s : State) : Result :=
  gate (.stW d a b c o st) s fun s => s.laneStore (.stW d a b c o st) d a b o 4 1

/-- ST_D (R98). -/
def execStD (d a : BitVec 7) (b c o : BitVec 3) (st : BitVec 2) (s : State) : Result :=
  gate (.stD d a b c o st) s fun s => s.laneStore (.stD d a b c o st) d a b o 8 2

/-- ST_Q (R98). -/
def execStQ (d a : BitVec 7) (b c o : BitVec 3) (st : BitVec 2) (s : State) : Result :=
  gate (.stQ d a b c o st) s fun s => s.laneStore (.stQ d a b c o st) d a b o 16 4

/-! ### Versioned loads (R103, R104, R366, R367) -/

/-- Bytes of frame f of a ring at an offset, for a lane at address A. -/
def State.frameOut (s : State) (npa f off A n : Nat) : Out :=
  match s.framePlace npa f off with
  | .error (.bad d) => .trap { kind := 5, detail := d, info := A }
  | .error _ => .park A true
  | .ok p => match s.fetchPlace p n with
    | .ok v => .done v
    | .error _ => .trap { kind := 5, detail := 4, info := A }

/-- The tag record of a page and tag for a context (R367). -/
def State.tagRecord (s : State) (asid : BitVec 16) (tag : W8) (ring : Nat) : Option TagRecord :=
  s.tags.find? fun r => r.asid == asid && r.tag == tag && r.ring == ring

/-- Adds n to the pins of the published frame of a step (R367, R383). -/
def State.addPins (s : State) (npa step : Nat) (n : Int) : State :=
  match (s.published npa).find? fun f => f.step == step with
  | none => s
  | some f => s.putFrame npa { f with code := Nat.max 2 ((f.code : Int) + n).toNat }

/-- Records the version of a page against a tag, with its pin (R104, R367). -/
def State.recordTag (s : State) (tag : W8) (npa step : Nat) : State :=
  (s.addPins npa step 1) |> fun s =>
    { s with tags := s.tags ++ [{ asid := s.curTeam.asid, tag := tag, ring := npa, step := w32 step }] }

/-- One lane's versioned load from a versioned page under a control word (R104). -/
def State.versioned (s : State) (tagged : Bool) (ctl npa off A n : Nat) : State × Out :=
  match s.ringFault npa with
  | some d => (s, .trap { kind := 5, detail := d, info := A })
  | none =>
    let pub := s.published npa
    if !tagged then
      let t := s.curTeam.step.toNat
      match newestOf (pub.filter fun f => decide (t - bits ctl 47 16 ≤ f.step) && decide (f.step ≤ t)) with
      | none => (s, .park A true)
      | some f => (s, s.frameOut npa f.index off A n)
    else
      let tag : W8 := BitVec.ofNat 8 (bits ctl 15 8)
      match (s.tagRecord s.curTeam.asid tag npa).bind fun r => pub.find? fun f => f.step == r.step.toNat with
      | some f => (s, s.frameOut npa f.index off A n)
      | none => match newestOf pub with
        | none => (s, .park A true)
        | some f =>
          if s.tags.length ≥ 16384 then (s, .trap { kind := 5, detail := 6, info := A })
          else match s.frameOut npa f.index off A n with
            | .done v => (s.recordTag tag npa f.step, .done v)
            | o => (s, o)

/-- `ldv` and `ldv.tag`: on a page that is not versioned, a load (R104). -/
def State.laneVersioned (s : State) (w : Instr) (tagged : Bool) (d a : BitVec 7) (b : BitVec 3) (o : BitVec 1) : State :=
  let ctl := s.control b
  let n := 2 ^ (ctl % 8)
  let k := ldvRegs ctl
  s.laneWord .read { word := w, op := .ldv, code := 0, ty := 0, reads := true, dests := regsFrom d.toNat k, acquire := o == 1 }
    (fun s l =>
      let A := s.laneAddr b a l
      aligned s A n (match s.locate s.curTeam.slot s.curTeam.alloc .read A n with
        | .ok (.ring npa off) => (s.keepLeaf s.curTeam.slot A).versioned tagged ctl npa off A n
        | _ => let r := s.loadFor s.cur.team .read A n; (r.1, r.2.out l A n 0 0)))
    fun _ v x => x.setGroup d.toNat k v

/-- LDV (R104). -/
def execLdv (d a : BitVec 7) (b c : BitVec 3) (o : BitVec 1) (st : BitVec 2) (s : State) : Result :=
  gate (.ldv d a b c o st) s fun s => s.laneVersioned (.ldv d a b c o st) false d a b o

/-- LDV_TAG (R104). -/
def execLdvTag (d a : BitVec 7) (b c : BitVec 3) (o : BitVec 1) (st : BitVec 2) (s : State) : Result :=
  gate (.ldvTag d a b c o st) s fun s => s.laneVersioned (.ldvTag d a b c o st) true d a b o

/-! ### Atomics and reductions (R105 to R110) -/

/-- The new value of an `atom` on n bytes: operation code, type code, old value, x (or expected) and y (new, for cas) (R106). -/
def atomNew (op ty n old x y : Nat) : Nat :=
  let w := 8 * n
  let view := fun (v : Nat) => if ty = 0 ∨ ty = 2 then signed w v else ((v % 2 ^ w : Nat) : Int)
  if op = 0 then (old + x) % 2 ^ w
  else if op = 1 then pattern w (Min.min (view old) (view x))
  else if op = 2 then pattern w (Max.max (view old) (view x))
  else if op = 3 then old &&& x
  else if op = 4 then old ||| x
  else if op = 5 then old ^^^ x
  else if op = 6 then x % 2 ^ w
  else if old = x % 2 ^ w then y % 2 ^ w else old

/-- The new value of a `red` on n bytes with contribution x: integers, AF, or binary32 in arrival order (R108, R110). -/
def redNew (op ty n old x : Nat) : Nat :=
  if op = 6 then (old + x) % 2 ^ (8 * n)
  else if op = 7 then (F32.addVals 0 (F32.read old) (F32.read x)).1
  else atomNew op ty n old x 0

/-- Bytes of an `atom` type (R106). -/
def atomBytes (ty : Nat) : Nat := if ty < 2 then 4 else if ty < 4 then 8 else 16

/-- ATOM (R106). -/
def execAtom (d a : BitVec 7) (b c o : BitVec 3) (st : BitVec 2) (s : State) : Result :=
  gate (.atom d a b c o st) s fun s =>
    let ctl := s.control b
    let op := ctl % 16
    let ty := bits ctl 6 4
    let n := atomBytes ty
    let k := atomRegs ctl
    s.laneWord .atomic { word := .atom d a b c o st, op := .atom, code := op, ty := ty, reads := true
                         dests := regsFrom d.toNat k, acquire := o == 1 || o == 3 }
      (fun s l =>
        let A := s.laneAddr b a l
        let x := s.groupOf l d.toNat k
        let y := if op = 7 then s.groupOf l (d.toNat + k) k else 0
        aligned s A n (let r := s.modifyFor s.cur.team A n fun old => atomNew op ty n old x y; (r.1, r.2.out l A n x y)))
      fun _ v x => x.setGroup d.toNat k v

/-- Bytes of a `red` control word (R107, R108). -/
def redBytes (ctl : Nat) : Nat :=
  if ctl % 16 = 7 then 4 else if ctl % 16 = 6 then (if bit ctl 4 then 8 else 4) else if bits ctl 6 4 < 2 then 4 else 8

/-- The contribution of a lane's source to `red`, and its flags (R108). -/
def redValue (ctl src : Nat) : Nat × BitVec 5 :=
  if ctl % 16 ≠ 6 then (src, 0)
  else
    let w := 8 * redBytes ctl
    if bit ctl 7 then (src % 2 ^ w, 0)
    else
      let x := F32.read (src % 2 ^ 32)
      if x.isNan then (0, fNV)
      else
        let r := roundToAnchor x (signed 8 (bits ctl 15 8))
        let e := clampAF w r.1
        (pattern w e, (if r.2 then fNX else 0) ||| (if e ≠ r.1 then fOF else 0))

/-- RED (R108): the flags are raised in the lane before its reduction leaves. -/
def execRed (d a : BitVec 7) (b c o : BitVec 3) (st : BitVec 2) (s : State) : Result :=
  gate (.red d a b c o st) s fun s =>
    let ctl := s.control b
    let op := ctl % 16
    let ty := bits ctl 6 4
    let n := redBytes ctl
    s.laneWord .atomic { word := .red d a b c o st, op := .red, code := op, ty := ty, reads := false, dests := [], acquire := false }
      (fun s l =>
        let A := s.laneAddr b a l
        let e := redValue ctl (s.groupOf l d.toNat (redRegs ctl))
        aligned s A n (
          let r := s.modifyFor s.cur.team A n fun old => redNew op ty n old e.1
          let s := r.1
          let out := r.2.out l A n e.1 0
          match out with
          | .done _ | .peer _ _ _ => (s.setLane s.cur.team s.cur.party l ((s.curParty.lane l).raise e.2), out)
          | _ => (s, out)))
      fun _ _ x => x

/-! ### Work queues (R111 to R113) -/

/-- One lane's step on a work queue: its value with bit 32 telling success (R112); it waits for a copy that covers the descriptor
before it looks at it (R255). -/
def State.queueStep (s : State) (push : Bool) (off src : Nat) : State × Out :=
  let T := s.curTeam
  if off % 16 ≠ 0 then (s, .trap { kind := 4, info := off })
  else if off + 16 > T.alloc then (s, .trap { kind := 5, detail := 3, info := off })
  else if s.rangeBusy s.cur.team off 16 then (s, .range off 16)
  else
    let D := Mem.read T.mem off 16
    let head := bits D 31 0
    let tail := bits D 63 32
    let ring := bits D 95 64
    let k := bits D 103 96
    let used := (tail + 2 ^ 32 - head) % 2 ^ 32
    if bits D 127 104 ≠ 0 ∨ k > 16 ∨ ring % 4 ≠ 0 ∨ used > 2 ^ k then (s, .trap { kind := 5, detail := 14, info := off })
    else if ring + 4 * 2 ^ k > T.alloc then (s, .trap { kind := 5, detail := 3, info := off })
    else
      let t := s.cur.team
      let slot := ring + 4 * ((if push then tail else head) % 2 ^ k)
      if s.rangeBusy t slot 4 then (s, .range slot 4)
      else if push then
        if used = 2 ^ k then (s, .done 0)
        else ((s.writeLocal t slot 4 src).writeLocal t (off + 4) 4 (tail + 1), .done (2 ^ 32))
      else if used = 0 then (s, .done 0)
      else (s.writeLocal t off 4 (head + 1), .done (2 ^ 32 + Mem.read T.mem slot 4))

/-- QOP_POP (R112). -/
def execQopPop (d a : BitVec 7) (n st : BitVec 2) (s : State) : Result :=
  gate (.qopPop d a n st) s fun s =>
    s.laneWord .atomic { word := .qopPop d a n st, op := .atom, code := 0, ty := 0, reads := true, dests := [], acquire := true }
      (fun s l => s.queueStep false (s.look l (s.curParty.lane l) a).toNat 0)
      fun _ v x => if v < 2 ^ 32 then x.setFlag n.toNat false else (x.setReg d.toNat (w32 v)).setFlag n.toNat true

/-- QOP_PUSH (R112). -/
def execQopPush (d a : BitVec 7) (n st : BitVec 2) (s : State) : Result :=
  gate (.qopPush d a n st) s fun s =>
    s.laneWord .atomic { word := .qopPush d a n st, op := .atom, code := 0, ty := 0, reads := false, dests := [], acquire := true }
      (fun s l => s.queueStep true (s.look l (s.curParty.lane l) a).toNat (s.look l (s.curParty.lane l) d).toNat)
      fun _ v x => x.setFlag n.toNat (decide (2 ^ 32 ≤ v))

end Sys2Proof.Machine
end

