-- ==== Sys2Proof/Machine/LaneBlock.lean ====
section
/-! DEFINITION. `rand` (R114) and `tcon` (R115 to R117). -/

namespace Sys2Proof.Machine

open Sys2Proof

/-- One round of Philox4×32 on a counter and a key (R114). -/
def philoxRound (c : W32 × W32 × W32 × W32) (k0 k1 : W32) : W32 × W32 × W32 × W32 :=
  let p0 : W64 := 0xD2511F53#64 * c.1.setWidth 64
  let p1 : W64 := 0xCD9E8D57#64 * c.2.2.1.setWidth 64
  (p1.extractLsb' 32 32 ^^^ c.2.1 ^^^ k0, p1.setWidth 32, p0.extractLsb' 32 32 ^^^ c.2.2.2 ^^^ k1, p0.setWidth 32)

/-- n rounds, the key stepping between them (R114). -/
def philox : Nat → W32 × W32 × W32 × W32 → W32 → W32 → W32 × W32 × W32 × W32
  | 0, c, _, _ => c
  | n + 1, c, k0, k1 => philox n (philoxRound c k0 k1) (k0 + 0x9E3779B9#32) (k1 + 0xBB67AE85#32)

/-- RAND (R114). -/
def execRand (d a b : BitVec 7) (i : BitVec 1) (st : BitVec 2) (s : State) : Result :=
  gate (.rand d a b i st) s fun s => s.eachLane fun l x =>
    let r := fun (n : Nat) => x.rd s.free l n
    let a0 := a.toNat
    let o := philox 10 (r a0, r (a0 + 1), r (a0 + 2), r (a0 + 3)) (r b.toNat) (r (b.toNat + 1))
    let y := (((x.setReg d.toNat o.1).setReg (d.toNat + 1) o.2.1).setReg (d.toNat + 2) o.2.2.1).setReg (d.toNat + 3) o.2.2.2
    if i = 1 then y.setGroup a0 4 (x.rdGroup s.free l a0 4 + 1) else y

/-- Element register n of lane l, zero for a lane that takes no part (R115). -/
def State.element (s : State) (t : BitVec 3) (l n : Nat) : Nat :=
  if s.cur.lanes.contains l then
    let x := s.curParty.lane l
    if t = 1 then (x.rd64 s.free l n).toNat else (x.rd s.free l n).toNat
  else 0

/-- Output V of pass p for lane l: eight fused multiply-adds in ascending m, with their flags (R116). -/
def State.contract (s : State) (a : BitVec 7) (u : BitVec 4) (t : BitVec 3) (m : BitVec 2) (p l : Nat) : FRes :=
  let f := if t = 1 then F64 else F32
  let A := fun (i j : Nat) => s.element t (8 * i + j) a.toNat
  let U := fun (i j k : Nat) => s.element t (8 * j + k) (8 * u.toNat + (t.toNat + 1) * i)
  let j := l / 8
  let k := l % 8
  (List.range 8).foldl (fun acc q =>
    let x := if m = 0 then A p q else if m = 1 then A j q else A k q
    let y := if m = 0 then U q j k else if m = 1 then U p q k else U p j q
    let r := f.fmaVals s.mode (f.read x) (f.read y) (f.read acc.1)
    (r.1, acc.2 ||| r.2)) (0, 0)

/-- One pass: plane p of every participant (R116). -/
def State.contractPass (s : State) (d a : BitVec 7) (u : BitVec 4) (t : BitVec 3) (m : BitVec 2) (p : Nat) : State :=
  s.mapLanes fun l x =>
    let r := s.contract a u t m p l
    let n := d.toNat + (t.toNat + 1) * p
    (if t = 1 then x.setReg64 n (w64 r.1) else x.setReg n (w32 r.1)).raise r.2

/-! ### Long words (R117, R157) -/

/-- What is left of a long word once its checks are made: its number of units, and one unit, which completes (`.ok`) or
stops the word (`.error`); or the state in which the word has stopped before its first unit. -/
abbrev Plan := Except State (Nat × (State → Nat → Except State State))

/-- The issuing lanes stand at an incomplete long word of some units, the first p of them performed (R117, R132, R157). -/
def State.standAt (s : State) (p total : Nat) : State := s.mapLanes fun _ x => { x with unit := p, units := total }

/-- Runs units from the progress index on, at most `fuel` of them; the word moves on after the last (R157). -/
def State.units (s : State) (total : Nat) (unit : State → Nat → Except State State) : Nat → State
  | 0 => s
  | fuel + 1 =>
    let p := (s.curParty.lane s.firstLane).unit
    if p ≥ total then s.advance
    else match unit s p with
      | .error s => s.standAt p total
      | .ok s =>
        if p + 1 ≥ total then s.advance
        else State.units ((s.standAt (p + 1) total).mapLanes fun _ x => { x with wait := .none }) total unit fuel

/-- Runs a plan: to its end, or for the units that the turn allows. -/
def Plan.run (p : Plan) (s : State) : State :=
  match p with
  | .error s => s
  | .ok (total, unit) => s.units total unit (s.cur.units.getD (total + 1))

/-- The plan of `tcon`: eight passes. -/
def tconPlan (d a : BitVec 7) (u : BitVec 4) (t : BitVec 3) (m : BitVec 2) : Plan :=
  .ok (8, fun s p => .ok (s.contractPass d a u t m p))

/-- TCON (R115 to R117). -/
def execTcon (d a : BitVec 7) (u : BitVec 4) (t : BitVec 3) (m st : BitVec 2) (s : State) : Result :=
  gate (.tcon d a u t m st) s fun s => s.crossLane fun s => (tconPlan d a u t m).run s

end Sys2Proof.Machine
end

