-- ==== Sys2Proof/Machine/Uniform.lean ====
section
/-! DEFINITION. Uniform scalar words, U majors 0x00 to 0x0F (R118 to R128). -/

namespace Sys2Proof.Machine

open Sys2Proof

/-- A uniform result written to a register; the issuing lanes go on (R118). -/
def State.putS (s : State) (d : BitVec 6) (x : W64) : State := (s.setS d.toNat x).advance

/-- Uniform register n as read. -/
def State.getS (s : State) (n : BitVec 6) : W64 := s.rdS n.toNat

/-- SADD (R121). -/
def execSadd (d a b : BitVec 6) (st : BitVec 2) (s : State) : Result :=
  gate (.sadd d a b st) s fun s => s.putS d (s.getS a + s.getS b)

/-- SSUB (R121). -/
def execSsub (d a b : BitVec 6) (st : BitVec 2) (s : State) : Result :=
  gate (.ssub d a b st) s fun s => s.putS d (s.getS a - s.getS b)

/-- SMUL (R121). -/
def execSmul (d a b : BitVec 6) (m st : BitVec 2) (s : State) : Result :=
  gate (.smul d a b m st) s fun s => s.putS d
    (if m = 1 then BitVec.ofInt 64 ((s.getS a).toInt * (s.getS b).toInt / 2 ^ 64)
     else if m = 2 then BitVec.ofNat 64 ((s.getS a).toNat * (s.getS b).toNat / 2 ^ 64)
     else s.getS a * s.getS b)

/-- SAND (R121). -/
def execSand (d a b : BitVec 6) (st : BitVec 2) (s : State) : Result :=
  gate (.sand d a b st) s fun s => s.putS d (s.getS a &&& s.getS b)

/-- SOR (R121). -/
def execSor (d a b : BitVec 6) (st : BitVec 2) (s : State) : Result :=
  gate (.sor d a b st) s fun s => s.putS d (s.getS a ||| s.getS b)

/-- SXOR (R121). -/
def execSxor (d a b : BitVec 6) (st : BitVec 2) (s : State) : Result :=
  gate (.sxor d a b st) s fun s => s.putS d (s.getS a ^^^ s.getS b)

/-- SANDN (R121): sa AND NOT sb. -/
def execSandn (d a b : BitVec 6) (st : BitVec 2) (s : State) : Result :=
  gate (.sandn d a b st) s fun s => s.putS d (s.getS a &&& ~~~(s.getS b))

/-- SSHL (R121). -/
def execSshl (d a b : BitVec 6) (st : BitVec 2) (s : State) : Result :=
  gate (.sshl d a b st) s fun s => s.putS d (s.getS a <<< ((s.getS b).toNat % 64))

/-- SSHR (R121). -/
def execSshr (d a b : BitVec 6) (st : BitVec 2) (s : State) : Result :=
  gate (.sshr d a b st) s fun s => s.putS d (s.getS a >>> ((s.getS b).toNat % 64))

/-- SSAR (R121). -/
def execSsar (d a b : BitVec 6) (st : BitVec 2) (s : State) : Result :=
  gate (.ssar d a b st) s fun s => s.putS d ((s.getS a).sshiftRight ((s.getS b).toNat % 64))

/-- SMIN (R121). -/
def execSmin (d a b : BitVec 6) (st : BitVec 2) (s : State) : Result :=
  gate (.smin d a b st) s fun s => s.putS d (if (s.getS a).toInt ≤ (s.getS b).toInt then s.getS a else s.getS b)

/-- SMAX (R121). -/
def execSmax (d a b : BitVec 6) (st : BitVec 2) (s : State) : Result :=
  gate (.smax d a b st) s fun s => s.putS d (if (s.getS a).toInt ≤ (s.getS b).toInt then s.getS b else s.getS a)

/-- SCMP (R122): combined into the flag of every issuing lane. -/
def execScmp (c : BitVec 5) (a b : BitVec 6) (t m st : BitVec 2) (s : State) : Result :=
  gate (.scmp c a b t m st) s fun s =>
    let n := c.toNat % 4
    let view := fun (x : W64) => if t = 0 then x.toInt else (x.toNat : Int)
    let r := relation (c.toNat / 4) (view (s.getS a)) (view (s.getS b))
    s.laneFlag n fun l x => combineFlag m.toNat (x.rdFlag s.free l n) r

/-- SSEL (R123). -/
def execSsel (d a b : BitVec 6) (t n st : BitVec 2) (s : State) : Result :=
  gate (.ssel d a b t n st) s fun s =>
    s.putS d (if uniformTest (t.toNat + 1) (s.flagList n.toNat) then s.getS a else s.getS b)

/-- SADDI (R124). -/
def execSaddi (d a : BitVec 6) (i : BitVec 11) (st : BitVec 2) (s : State) : Result :=
  gate (.saddi d a i st) s fun s => s.putS d (s.getS a + sx64 i)

/-- SLI (R124). -/
def execSli (d : BitVec 6) (i : BitVec 11) (st : BitVec 2) (s : State) : Result :=
  gate (.sli d i st) s fun s => s.putS d (sx64 i)

/-- SLIK (R124). -/
def execSlik (d k : BitVec 6) (i : BitVec 11) (st : BitVec 2) (s : State) : Result :=
  gate (.slik d k i st) s fun s => s.putS d (s.getS d ||| (i.setWidth 64 <<< k.toNat))

/-- The address of `sld` and `sst` (R125). -/
def State.scalarAddr (s : State) (a : BitVec 6) (i : BitVec 11) : Nat := (s.getS a + 8#64 * sx64 i).toNat

/-- The issuing lanes as lanes of a peer request of 8 bytes (R406). -/
def State.uniformLanes (s : State) (m va p x : Nat) : List (Nat × Nat × Nat × PeerLane) :=
  s.cur.lanes.map fun l => (l, m, va, { lane := l, addr := w64 p, size := 8, x := x, y := 0 })

/-- SLD (R125). -/
def execSld (d a : BitVec 6) (i : BitVec 11) (st : BitVec 2) (s : State) : Result :=
  gate (.sld d a i st) s fun s =>
    let A := s.scalarAddr a i
    let pc := (s.curParty.lane s.firstLane).pc
    if A % 8 ≠ 0 then s.trapUniform { kind := 4, info := A }
    else match s.loadFor s.cur.team .read A 8 with
      | (s, .val v) => s.putS d (w64 v)
      | (s, .peer m p) =>
        s.advance.sendWord { word := .sld d a i st, op := .load, code := 0, ty := 0, reads := true
                             dests := [.s d.toNat], acquire := false } pc s.cur.lanes (s.uniformLanes m A p 0)
      | (s, g) => s.missUniform g A 8 .read

/-- SST (R125). A store to a peer enters the write-combining buffer (R287). -/
def execSst (d a : BitVec 6) (i : BitVec 11) (st : BitVec 2) (s : State) : Result :=
  gate (.sst d a i st) s fun s =>
    let A := s.scalarAddr a i
    let v := (s.getS d).toNat
    if A % 8 ≠ 0 then s.trapUniform { kind := 4, info := A }
    else match s.storeFor s.cur.team A 8 v with
      | (s, .val _) => s.advance
      | (s, .peer m p) =>
        (s.combine s.curParty.core s.cur.team s.cur.party s.cur.lanes m s.curTeam.asid p 8 v (w64 A)).advance
      | (s, g) => s.missUniform g A 8 .write

/-- SBR (R126). -/
def execSbr (c : BitVec 4) (o : BitVec 19) (st : BitVec 2) (s : State) : Result :=
  gate (.sbr c o st) s fun s =>
    let pc := (s.curParty.lane s.firstLane).pc
    if c.toNat < 4 ∨ uniformTest (c.toNat / 4) (s.flagList (c.toNat % 4)) then
      (s.traceBranch s.cur.lanes fun _ => target pc o).jump (target pc o)
    else s.advance

/-- SLOOP (R127). -/
def execSloop (d : BitVec 6) (i : BitVec 11) (st : BitVec 2) (s : State) : Result :=
  gate (.sloop d i st) s fun s =>
    let pc := (s.curParty.lane s.firstLane).pc
    let n := s.getS d
    if n.toNat ≤ 1 then s.putS d 0
    else ((s.setS d.toNat (n - 1)).traceBranch s.cur.lanes fun _ => target pc i).jump (target pc i)

/-- SJMP (R128). -/
def execSjmp (a : BitVec 6) (st : BitVec 2) (s : State) : Result :=
  gate (.sjmp a st) s fun s =>
    let index := (s.getS a).toNat
    let jump := s.jumpTable index
    let s := s.keepJump index
    match jump with
    | .to p => (s.traceBranch s.cur.lanes fun _ => p + 4).jump (p + 4)
    | .bad d => s.trapUniform { kind := 2, detail := d }
    | .fail .missing addr => s.parkUniform addr .fetch false
    | .fail (.violation d) addr => s.violateUniform d addr .fetch

end Sys2Proof.Machine
end

