-- ==== Sys2Proof/Machine/Tiles.lean ====
section
/-! DEFINITION. Matrix operand formats and products (R136, R227 to R233), accumulator tiles (R146, R149 to R151, R235), and
the down-converter (R148, R238 to R240). -/

namespace Sys2Proof.Machine

open Sys2Proof

/-! ### Formats (R136) -/

/-- Bits of a format code. -/
def fmtBits (c : Nat) : Nat :=
  if c ≤ 1 then 32 else if c ≤ 4 then 16 else if c ≤ 10 then 8 else if c ≤ 13 then 6 else if c ≤ 17 then 4
  else if c = 18 then 2 else 1

/-- Row depth K of a format code. -/
def fmtDepth (c : Nat) : Nat :=
  if c ≤ 1 then 64 else if c ≤ 4 then 128 else if c ≤ 13 then 256 else 512

/-- A logarithmic format (R231). -/
def fmtLog (c : Nat) : Bool := c == 10 || c == 13 || c == 17

/-- Two formats may meet in one product (R137). -/
def fmtMeet (a b : Nat) : Bool := fmtDepth a == fmtDepth b && fmtLog a == fmtLog b

/-- The floating format of a code; TF32 without its 13 ignored bits (R227, R229). -/
def fmtFloat (c : Nat) : Option Fmt :=
  if c = 0 then some F32 else if c = 1 then some TF19 else if c = 2 then some BF16 else if c = 3 then some F16
  else if c = 5 then some E5M2 else if c = 6 then some E4M3 else if c = 7 then some E3M4 else if c = 11 then some E3M2
  else if c = 12 then some E2M3 else if c = 14 then some E2M1 else none

/-- An operand element: a value, or a logarithmic element with its logarithm in eighths (R231). -/
inductive Elem where
  | real (v : FVal)
  | log (neg : Bool) (l : Int)
  deriving DecidableEq, Repr

/-- An integer as a value. -/
def FVal.ofInt (z : Int) : FVal := .num (decide (z < 0)) z.natAbs 0

/-- A logarithmic element: M of w bits, logarithm step × (M − bias); M = 0 is zero or a NaN (R231). -/
def logElem (w step bias v : Nat) : Elem :=
  let m := v % 2 ^ w
  let neg := bit v w
  if m = 0 then .real (if neg then .nan false else .num false 0 0) else .log neg (step * ((m : Int) - bias))

/-- The element that a code names (R227, R230, R231). -/
def decodeElem (c v : Nat) : Elem :=
  match fmtFloat c with
  | some f => .real (f.read (if c = 1 then v / 2 ^ 13 else v))
  | none =>
    if c = 4 then .real (.ofInt (signed 16 v)) else if c = 8 then .real (.ofInt (signed 8 v))
    else if c = 9 ∨ c = 16 then .real (.ofInt v)
    else if c = 15 then .real (.ofInt (signed 4 v)) else if c = 18 then .real (.ofInt (signed 2 v))
    else if c = 19 then .real (.ofInt (if v = 0 then 1 else -1))
    else if c = 10 then logElem 7 1 64 v else if c = 13 then logElem 5 2 16 v else logElem 3 4 4 v

/-- Counts of 2⁻¹⁶ nearest to 2^(f/8) (R232). -/
def logTable (f : Nat) : Nat :=
  if f = 0 then 0x10000 else if f = 1 then 0x1172C else if f = 2 then 0x13070 else if f = 3 then 0x14BFE
  else if f = 4 then 0x16A0A else if f = 5 then 0x18ACE else if f = 6 then 0x1AE8A else 0x1D582

/-- The exact product of two values; a NaN factor or ∞ × 0 gives a NaN (R145). -/
def FVal.times (x y : FVal) : FVal := if x.isNan || y.isNan then .nan false else (x.mul y).getD (.nan false)

/-- The exact product of two elements (R145, R232). -/
def Elem.times (x y : Elem) : FVal :=
  match x, y with
  | .log a l, .log b m => .num (a != b) (logTable ((l + m) % 8).toNat) ((l + m) / 8 - 16)
  | .real v, .real w => v.times w
  | .real v, .log b _ => v.times (.num b 1 0)
  | .log a _, .real w => w.times (.num a 1 0)

/-- ExactProduct of two elements and their block scales, 1 when unscaled (R145, R233). -/
def exactProduct (x y : Elem) (sa sw : Option FVal) : FVal :=
  let one := FVal.num false 1 0
  ((x.times y).times (sa.getD one)).times (sw.getD one)

/-! ### Tiles -/

/-- NaNPattern, −2^95 (R146). -/
def nanPattern : BitVec 96 := BitVec.ofNat 96 (2 ^ 95)

/-- Entry [i][n] of a tile. -/
def Tile.entry (t : Tile) (i n : Nat) : BitVec 96 := FMap.get 0 t.e (64 * i + n)
/-- The anchor as an exponent (R150). -/
def Tile.exponent (t : Tile) : Int := t.anchor.toInt

/-- EnterRow on one entry (R146, R236). -/
def Tile.enter (t : Tile) (i n : Nat) (ps : List FVal) : Tile :=
  let put := fun (t : Tile) (x : BitVec 96) => { t with e := FMap.set 0 t.e (64 * i + n) x }
  let pos := ps.contains (.inf false)
  let neg := ps.contains (.inf true)
  if ps.any FVal.isNan || (pos && neg) then { put t nanPattern with nan := true }
  else if t.entry i n = nanPattern then t
  else if pos || neg then { put t (BitVec.ofInt 96 (if neg then -(2 ^ 95 - 1) else 2 ^ 95 - 1)) with sat := true }
  else
    let rs := ps.map fun p => roundToAnchor p t.exponent
    let sum := (t.entry i n).toInt + (rs.map (·.1)).sum
    let c := clampAF 96 sum
    let t := put t (BitVec.ofInt 96 c)
    { t with inexact := t.inexact || rs.any (·.2), sat := t.sat || c != sum }

/-- Row i of a tile at zero (R152). -/
def Tile.zeroRow (t : Tile) (i : Nat) : Tile := { t with e := FMap.clear t.e (64 * i) 64 }

/-- A tile zeroed under an anchor, its flags cleared (R149, R150). -/
def freshTile (anchor : W8) : Tile := { allocated := true, anchor := anchor }

/-- Key of tile h on the core of the issuing party (R149, R199). -/
def State.tileKey (s : State) (h : Nat) : Nat := 64 * (s.curParty.core - s.curTeam.core) + h
/-- Tile h on the core of the issuing party. -/
def State.tile (s : State) (h : Nat) : Tile := FMap.get {} s.curTeam.tiles (s.tileKey h)
/-- Writes tile h. -/
def State.setTile (s : State) (h : Nat) (t : Tile) : State :=
  s.setCurTeam { s.curTeam with tiles := FMap.set {} s.curTeam.tiles (s.tileKey h) t }
/-- Each of n tiles from h becomes t. -/
def State.setTiles (s : State) (h n : Nat) (t : Tile) : State :=
  (List.range n).foldl (fun s i => s.setTile (h + i) t) s
/-- The issuing lanes' long word uses some tiles (R149). -/
def State.useTiles (s : State) (rs : List (Nat × Nat)) : State := s.mapLanes fun _ x => { x with tiles := rs }
/-- Tiles h to h + n − 1 are handles of 0 to 63 and allocated (R140, cause 14). -/
def State.tilesOk (s : State) (h n : Nat) : Bool :=
  decide (h + n ≤ 64) && (List.range n).all fun i => (s.tile (h + i)).allocated
/-- A tile among n from h is in uncorrectable error (R351). -/
def State.tilesBad (s : State) (h n : Nat) : Bool := (List.range n).any fun i => (s.tile (h + i)).bad
/-- Tiles allocated on the core of the issuing party. -/
def State.tilesHeld (s : State) : Nat := ((List.range 64).filter fun h => (s.tile h).allocated).length

/-! ### The down-converter -/

/-- A conversion record (R139). -/
structure ConvRecord where
  scale : FVal
  rnd : Nat
  fmt : Nat
  rows : Nat
  seed : W64
  deriving DecidableEq, Repr

/-- A magnitude exceeds the largest finite value of a format: rounded up, it overflows. -/
def Fmt.exceeds (f : Fmt) (x : Mag) : Bool := (f.round 2 false x).2 &&& fOF != 0

/-- Round of the down-converter (R148, R238, R239). DEDUCED: the v of R239 is the exact value that R238 forms, so that at code 0 every
value above the largest finite one gives infinity where the format has it (log 50). -/
def Fmt.drain (f : Fmt) (rnd : Nat) (neg : Bool) (x : Mag) : Nat :=
  if rnd = 0 ∧ f.exceeds x = true then f.infBits neg else (f.pack rnd neg x).1

/-- StochasticRound of a nonzero magnitude with a sign under a random word u (R148, R240). -/
def Fmt.stochastic (f : Fmt) (u : Nat) (neg : Bool) (n : Nat) (e : Int) : Nat :=
  let E : Int := (Nat.log2 n : Int) + e
  let q := max (E - f.F) f.qmin
  let sh := (q - e).toNat
  let k := n * 2 ^ (e - q).toNat / 2 ^ sh
  let r := n * 2 ^ (e - q).toNat % 2 ^ sh
  let code := (q - f.qmin).toNat * 2 ^ f.F + k
  if r = 0 ∧ code ≤ f.maxCode then f.sign neg code
  else if code ≥ f.maxCode then f.drain 0 neg { n := n, e := e }
  else
    let away := if neg then !decide (u < (2 ^ sh - r) * 2 ^ 32 / 2 ^ sh) else decide (u < r * 2 ^ 32 / 2 ^ sh)
    f.sign neg (if away then code + 1 else code)

/-- DownConvert of entry [i][n] of a tile with handle h (R148). -/
def downConvert (t : Tile) (i n h : Nat) (c : ConvRecord) : Nat :=
  match fmtFloat c.fmt with
  | none => 0
  | some f =>
    let widen := fun v => if c.fmt = 1 then v * 2 ^ 13 else v
    let x := t.entry i n
    if x = nanPattern then widen f.nanBits
    else match (FVal.num (decide (x.toInt < 0)) x.toInt.natAbs t.exponent).times c.scale with
      | .num neg m e =>
        if m = 0 then 0
        else if c.rnd = 5 then
          let u := (philox 10 (w32 n, w32 i, w32 h, 0) (c.seed.setWidth 32) (c.seed.extractLsb' 32 32)).1
          widen (f.stochastic u.toNat neg m e)
        else widen (f.drain c.rnd neg { n := m, e := e })
      | _ => 0

end Sys2Proof.Machine
end

