-- ==== Sys2Proof/Machine/Boxes.lean ====
section
/-! DEFINITION. Shape records (R153, R154) and box copies between an address and local memory: `tld`, `tst` (R155, R156). -/

namespace Sys2Proof.Machine

open Sys2Proof

/-! ### Spans of bytes by a uniform word -/

/-- n bytes read at an address by the issuing uniform word, as `sld` reads; or where and why a read stops, and how many bytes
of a peer's line it asks for. -/
def State.readSpan (s : State) (va n : Nat) : Nat → State × Except (Nat × Nat × Got) Nat
  | 0 => (s, .ok 0)
  | fuel + 1 =>
    if n = 0 then (s, .ok 0)
    else
      let a := va % 2 ^ 64
      let k := Nat.min n (8 - a % 8)
      match s.loadUniform a k with
      | (s, .val v) => match s.readSpan (va + k) (n - k) fuel with
        | (s, .ok rest) => (s, .ok (v + 2 ^ (8 * k) * rest))
        | (s, .error e) => (s, .error e)
      | (s, .peer m p) => (s, .error (a, Nat.min n (128 - p % 128), .peer m p))
      | (s, g) => (s, .error (a, k, g))

/-- n bytes of v stored at an address by the issuing uniform word, as `sst` stores. -/
def State.writeSpan (s : State) (va n v : Nat) : Nat → Except (Nat × Got) State
  | 0 => .ok s
  | fuel + 1 =>
    if n = 0 then .ok s
    else
      let a := va % 2 ^ 64
      let k := Nat.min n (8 - a % 8)
      let w := v % 2 ^ (8 * k)
      match s.storeFor s.cur.team a k w with
      | (s, .val _) => s.writeSpan (va + k) (n - k) (v / 2 ^ (8 * k)) fuel
      | (s, .peer m p) =>
        (s.combine s.curParty.core s.cur.team s.cur.party s.cur.lanes m s.curTeam.asid p k w (w64 a)).writeSpan
          (va + k) (n - k) (v / 2 ^ (8 * k)) fuel
      | (_, g) => .error (a, g)

/-- The n low bits of v, fewer than 8, go to the byte at an address in a peer's memory, behind what the core holds of its line. DESIGN
CHOICE: the request says how many bits it stores, and the target leaves the byte's others as they are (R156, log 86). -/
def State.sendBits (s : State) (va m p n v : Nat) : State :=
  let P := s.curParty
  let o : Outstanding :=
    { req := { src := s.module, dst := m, core := P.core, asid := s.curTeam.asid, seq := 0, op := .store, code := 0, ty := 0
               strand := partyIndex s.cur.party, lanes := [{ lane := s.firstLane, addr := w64 p, size := 1, x := v % 2 ^ n, y := n }] }
      team := 0, party := 0, pc := (P.lane s.firstLane).pc, word := none, tag := 0, dests := [], lanes := []
      carried := s.cur.lanes.map fun l => (s.cur.team, s.cur.party, l, w64 va), stamps := s.cur.lanes.map fun _ => s.free
      reads := false, index := 0, fetch := false }
  ((s.drain P.core (·.covers m s.curTeam.asid p)).enqueue P.core m [o]).pumpAll P.core

/-- m low bits of v stored at an address by the issuing uniform word: whole bytes, and then the bits of a last byte, whose other bits
stay as they are (R156). All of them are stored, or none: then the word stops where the first cannot be (R157). -/
def State.writeBits (s : State) (va m v : Nat) : Except State State :=
  let a := (va + m / 8) % 2 ^ 64
  let stop := fun (a : Nat) (g : Got) => Except.error ((s.keepLeaf s.curTeam.slot a).missUniform g a 1 .write)
  match s.writeSpan va (m / 8) v (m / 8) with
  | .error (b, g) => stop b g
  | .ok t =>
    if m % 8 = 0 then .ok t
    else match t.storeBits t.cur.team a (m % 8) (v / 2 ^ (8 * (m / 8))) with
      | (t, .val _) => .ok t
      | (t, .peer k p) => .ok (t.sendBits a k p (m % 8) (v / 2 ^ (8 * (m / 8))))
      | (_, g) => stop a g

/-! ### Shape records -/

/-- A shape record (R153). -/
structure Shape where
  reserved : Nat
  order : Bool
  rank : Nat
  fmt : Nat
  box1 : Nat
  box0 : Nat
  pitch1 : Nat
  pitch2 : Nat
  pitch3 : Nat
  ext0 : Nat
  ext1 : Nat
  ext2 : Nat
  ext3 : Nat
  base : Nat
  deriving DecidableEq, Repr

/-- The fields of a record (R153). -/
def shapeOf (x : BitVec 256) : Shape :=
  let v := x.toNat
  { reserved := bits v 255 252, order := bit v 251, rank := bits v 250 249 + 1, fmt := bits v 248 244
    box1 := bits v 243 236 + 1, box0 := bits v 235 224 + 1, pitch3 := bits v 223 192, pitch2 := bits v 191 160
    pitch1 := bits v 159 128, ext3 := bits v 127 112, ext2 := bits v 111 96, ext1 := bits v 95 80, ext0 := bits v 79 64
    base := bits v 63 0 }

/-- Bits of an element. -/
def Shape.bits (r : Shape) : Nat := fmtBits r.fmt
/-- Extents of dimensions 0 to 3. -/
def Shape.exts (r : Shape) : List Nat := [r.ext0, r.ext1, r.ext2, r.ext3]
/-- Pitches of dimensions 0 to 3. -/
def Shape.pitches (r : Shape) : List Nat := [0, r.pitch1, r.pitch2, r.pitch3]

/-- The lowest of causes 1 to 6 that a record meets (R140, R154). DESIGN CHOICE: a record of rank 1 with box1 other than 1 meets cause
5, ahead of the cause 6 that a second extent other than 1 gives: R154 requires box1 = 1 and names no cause (log 51). -/
def Shape.cause (r : Shape) : Option Nat :=
  let E := fun (d : Nat) => (r.exts[d]?).getD 0
  let P := fun (d : Nat) => (r.pitches[d]?).getD 0
  if r.fmt > 19 then some 1
  else if (List.range r.rank).any fun d => E d == 0 then some 2
  else if (decide (2 ≤ r.rank) && decide (8 * r.pitch1 < r.ext0 * r.bits))
      || (List.range r.rank).any fun d => decide (2 ≤ d) && decide (P d < E (d - 1) * P (d - 1)) then some 3
  else if r.base % 64 ≠ 0 ∨ r.pitch1 % 8 ≠ 0 ∨ r.pitch2 % 8 ≠ 0 ∨ r.pitch3 % 8 ≠ 0 then some 4
  else if r.box0 > r.ext0 ∨ r.box1 > r.ext1 ∨ (r.rank = 1 ∧ r.box1 ≠ 1) ∨ r.box0 * r.bits % 8 ≠ 0
      ∨ (r.order = true ∧ r.box1 * r.bits % 8 ≠ 0) then some 5
  else if r.reserved ≠ 0 ∨ (List.range 4).any (fun d => decide (r.rank ≤ d) && (E d != 1 || P d != 0)) = true then some 6
  else none

/-- Index d of box indices (R155). -/
def boxIndex (idx : W64) (d : Nat) : Nat := idx.toNat / 2 ^ (16 * d) % 2 ^ 16

/-- Address of box row r at element i0 (R155). -/
def Shape.rowAddr (r : Shape) (idx : W64) (row : Nat) : Nat :=
  (r.base + boxIndex idx 0 * r.bits / 8 + (boxIndex idx 1 + row) * r.pitch1 + boxIndex idx 2 * r.pitch2
    + boxIndex idx 3 * r.pitch3) % 2 ^ 64

/-- Elements of box row r that lie within the extents (R155). -/
def Shape.live (r : Shape) (idx : W64) (row : Nat) : Nat :=
  if boxIndex idx 1 + row < r.ext1 ∧ boxIndex idx 2 < r.ext2 ∧ boxIndex idx 3 < r.ext3 then
    Nat.min r.box0 (r.ext0 - boxIndex idx 0)
  else 0

/-- Local rows and the bytes of each (R155). -/
def Shape.localRows (r : Shape) : Nat × Nat :=
  if r.order then (r.box0, r.box1 * r.bits / 8) else (r.box1, r.box0 * r.bits / 8)

/-- Element i of b bits of a packed row (R137). -/
def packed (v b i : Nat) : Nat := v / 2 ^ (b * i) % 2 ^ b

/-- A packed row of elements (R137). -/
def packRow (b : Nat) (es : List Nat) : Nat := es.foldr (fun e acc => e % 2 ^ b + 2 ^ b * acc) 0

/-- A row with element i replaced (R137). -/
def packedSet (v b i e : Nat) : Nat := v - packed v b i * 2 ^ (b * i) + e % 2 ^ b * 2 ^ (b * i)

/-- Bits b·i to b·i + b − 1 of a local row at an offset. -/
def localElem (m : Mem) (off b i : Nat) : Nat :=
  let at_ := b * i / 8
  Mem.read m (off + at_) ((b * i % 8 + b + 7) / 8) / 2 ^ (b * i % 8) % 2 ^ b

/-- A local row at an offset with element i replaced. -/
def setLocalElem (m : Mem) (off b i e : Nat) : Mem :=
  let a := off + b * i / 8
  let n := (b * i % 8 + b + 7) / 8
  let v := Mem.read m a n
  let sh := b * i % 8
  Mem.write m a n (v - v / 2 ^ sh % 2 ^ b * 2 ^ sh + e % 2 ^ b * 2 ^ sh)

/-- Local memory after box row r (its elements packed, zero code outside the extents) has come to a place (R155). -/
def Shape.landRow (r : Shape) (m : Mem) (off stride row v : Nat) : Mem :=
  if r.order then
    (List.range r.box0).foldl (fun m c => setLocalElem m (off + c * stride) r.bits row (packed v r.bits c)) m
  else Mem.write m (off + row * stride) (r.box0 * r.bits / 8) v

/-- Elements 0 to k − 1 of box row r as the local place holds them, packed (R156). -/
def Shape.localRow (r : Shape) (m : Mem) (off stride row k : Nat) : Nat :=
  if r.order then packRow r.bits ((List.range k).map fun c => localElem m (off + c * stride) r.bits row)
  else Mem.read m (off + row * stride) (cdiv (k * r.bits) 8) % 2 ^ (k * r.bits)

/-! ### Operands in local memory (R138, R139) -/

/-- The lowest cause of a list, if any applies (R140). -/
def lowest (cs : List (Bool × Nat)) : Option Nat :=
  (cs.filterMap fun c => if c.1 then some c.2 else none).foldl
    (fun b c => match b with | none => some c | some x => some (Nat.min x c)) none

/-- The shape-or-matrix trap (R140). -/
def State.shapeTrap (s : State) (cause : Nat) : State := s.trapUniform { kind := 11, detail := cause }

/-- Rows of local memory: n rows of k bytes at an offset and stride. -/
structure Rows where
  off : Nat
  stride : Nat
  n : Nat
  k : Nat
  deriving DecidableEq, Repr

/-- The end of the last row. -/
def Rows.end_ (r : Rows) : Nat := r.off + (r.n - 1) * r.stride + r.k
/-- Row i of some rows alone. -/
def Rows.row (r : Rows) (i : Nat) : Rows := { r with off := r.off + i * r.stride, n := 1 }
/-- Misaligned, or a stride below the row bytes (cause 9). -/
def Rows.misplaced (r : Rows) : Bool := r.off % 8 != 0 || r.stride % 8 != 0 || decide (r.stride < r.k)
/-- The first of some rows that overlaps a range-scoreboard entry of the issuing team: its offset and bytes (R138, R255). -/
def State.busyRow (s : State) (r : Rows) : Option (Nat × Nat) :=
  ((List.range r.n).find? fun i => s.rangeBusy s.cur.team (r.off + i * r.stride) r.k).map fun i => (r.off + i * r.stride, r.k)
/-- A word goes on once no row of its operands overlaps an entry; until then it waits (R255). -/
def State.awaitRows (s : State) (rs : List Rows) (k : Except State State) : Except State State :=
  match rs.findSome? s.busyRow with
  | some e => .error (s.hold (.range e.1 e.2))
  | none => k
/-- Every byte lies in the allocation, or the access violation of R138. DESIGN CHOICE: the whole operand is checked before the first
unit, and the faulting address is the greater of its offset and the allocation's end (log 52). -/
def State.checkRows (s : State) (rs : List Rows) (acc : Acc) (p : Plan) : Plan :=
  match rs.find? fun r => decide (s.curTeam.alloc < r.end_) with
  | some r => .error (s.violateUniform 3 (s.curCtx.localBase + Nat.max r.off s.curTeam.alloc) acc)
  | none => p

/-- A place: offset and stride, and whether its reserved bits are zero (R139). -/
def placeRows (x : W64) (n k : Nat) : Rows := { off := x.toNat % 2 ^ 32, stride := bits x.toNat 47 32, n := n, k := k }

/-- The uniform word stops at a failed read of `readSpan`. -/
def State.stopRead (s : State) (e : Nat × Nat × Got) (acc : Acc) : State := s.missUniform e.2.2 e.1 e.2.1 acc

/-- The box row r of a shape as its bytes in memory give it, packed (R155). -/
def State.readRow (s : State) (r : Shape) (idx : W64) (row : Nat) : State × Except (Nat × Nat × Got) Nat :=
  let k := r.live idx row
  let n := cdiv (k * r.bits) 8
  match s.readSpan (r.rowAddr idx row) n n with
  | (s, .ok v) => (s, .ok (v % 2 ^ (k * r.bits)))
  | e => e

/-- TLD's plan (R155). -/
def State.tldPlan (s : State) (k : BitVec 3) (a b : BitVec 6) : Plan :=
  match FMap.get none s.curParty.shapes k.toNat with
  | none => .error (s.shapeTrap 7)
  | some rec_ =>
    let r := shapeOf rec_
    let idx := s.getS a
    let place := s.getS b
    let rows := placeRows place r.localRows.1 r.localRows.2
    match lowest [(decide (2 ^ 48 ≤ place.toNat), 8), (rows.misplaced, 9), (boxIndex idx 0 * r.bits % 8 != 0, 18)] with
    | some c => .error (s.shapeTrap c)
    | none => s.checkRows [rows] .write (.ok (r.box1, fun s row =>
        s.awaitRows [rows] (match s.readRow r idx row with
          | (s, .ok v) => .ok (s.setCurTeam { s.curTeam with mem := r.landRow s.curTeam.mem rows.off rows.stride row v })
          | (s, .error e) => .error (s.stopRead e .read))))

/-- TST's plan (R156): the elements of a row outside the extents keep their bits. -/
def State.tstPlan (s : State) (k : BitVec 3) (a b : BitVec 6) : Plan :=
  match FMap.get none s.curParty.shapes k.toNat with
  | none => .error (s.shapeTrap 7)
  | some rec_ =>
    let r := shapeOf rec_
    let idx := s.getS a
    let place := s.getS b
    let rows := placeRows place r.localRows.1 r.localRows.2
    match lowest [(decide (2 ^ 48 ≤ place.toNat), 8), (rows.misplaced, 9), (boxIndex idx 0 * r.bits % 8 != 0, 18)] with
    | some c => .error (s.shapeTrap c)
    | none => s.checkRows [rows] .read (.ok (r.box1, fun s row =>
        s.awaitRows [rows] (
          let k := r.live idx row
          let v := r.localRow s.curTeam.mem rows.off rows.stride row k
          s.writeBits (r.rowAddr idx row) (k * r.bits) v)))

/-- TSHAPE (R154). -/
def execTshape (k : BitVec 3) (a : BitVec 6) (st : BitVec 2) (s : State) : Result :=
  gate (.tshape k a st) s fun s =>
    let A := (s.getS a).toNat
    if A % 32 ≠ 0 then s.trapUniform { kind := 4, info := A }
    else s.withRecord A 4 fun s v =>
      let x := BitVec.ofNat 256 v
      match (shapeOf x).cause with
      | some c => s.shapeTrap c
      | none => (s.setCurParty { s.curParty with shapes := FMap.set none s.curParty.shapes k.toNat (some x) }).advance

/-- TLD (R155). -/
def execTld (k : BitVec 3) (a b : BitVec 6) (st : BitVec 2) (s : State) : Result :=
  gate (.tld k a b st) s fun s => (s.tldPlan k a b).run s

/-- TST (R156). -/
def execTst (k : BitVec 3) (a b : BitVec 6) (st : BitVec 2) (s : State) : Result :=
  gate (.tst k a b st) s fun s => (s.tstPlan k a b).run s

end Sys2Proof.Machine
end

