-- ==== Sys2Proof/Machine/Matrix.lean ====
section
/-! DEFINITION. Matrix and tile words, U majors 0x14 to 0x1C (R137 to R152). -/

namespace Sys2Proof.Machine

open Sys2Proof

/-! ### Records -/

/-- A descriptor (R139). -/
structure Desc where
  word0 : Nat
  word1 : Nat
  deriving DecidableEq, Repr

/-- Its order bit. -/
def Desc.column (d : Desc) : Bool := bit d.word0 54
/-- Its scaled bit. -/
def Desc.scaled (d : Desc) : Bool := bit d.word0 53
/-- Its format code. -/
def Desc.fmt (d : Desc) : Nat := bits d.word0 52 48
/-- n rows of k bytes as it places them. -/
def Desc.rows (d : Desc) (n k : Nat) : Rows := { off := bits d.word0 31 0, stride := bits d.word0 47 32, n := n, k := k }
/-- n rows of scales of k bytes as it places them. -/
def Desc.scaleRows (d : Desc) (n k : Nat) : Rows := { off := bits d.word1 31 0, stride := bits d.word1 47 32, n := n, k := k }
/-- A nonzero reserved field or a reserved code (cause 8). -/
def Desc.bad (d : Desc) : Bool :=
  decide (2 ^ 55 ≤ d.word0) || decide (2 ^ 48 ≤ d.word1) || decide (19 < d.fmt) || (!d.scaled && d.word1 != 0)

/-- The descriptor at a register pair. -/
def State.desc (s : State) (a : BitVec 6) : Desc := { word0 := (s.getS a).toNat, word1 := (s.rdS (a.toNat + 1)).toNat }

/-- The conversion record at a register pair, with the causes it meets (R139, R140). -/
def State.convRecord (s : State) (a : BitVec 6) (allowed : List Nat) : ConvRecord × List (Bool × Nat) :=
  let w := (s.getS a).toNat
  let c : ConvRecord := { scale := F32.read (bits w 63 32), rnd := bits w 18 16, fmt := bits w 15 11, rows := bits w 10 0
                          seed := s.rdS (a.toNat + 1) }
  (c, [(bits w 31 19 != 0 || c.rnd == 4 || c.rnd == 6 || c.rnd == 7 || decide (19 < c.fmt), 8),
       (c.rows == 0 || decide (1024 < c.rows), 10), (!allowed.contains c.fmt, 12),
       (match c.scale with | .num _ _ _ => false | _ => true, 13)])

/-- Tiles that M rows take. -/
def tilesOf (m : Nat) : Nat := cdiv m 16

/-- The access-violation fault of a word that reads its team's own state in error (R351). -/
def State.ownFault (s : State) : State := s.countUncorrected.trapUniform { kind := 5, detail := 4 }

/-! ### Weight banks -/

/-- Bank B of the issuing context. -/
def State.bank (s : State) (one : Bool) : Bank := if one then s.curParty.w1 else s.curParty.w0
/-- Writes bank B. -/
def State.setBank (s : State) (one : Bool) (b : Bank) : State :=
  s.setCurParty (if one then { s.curParty with w1 := b } else { s.curParty with w0 := b })

/-- Row k of weight codes entered in a bank. -/
def Bank.setRow (b : Bank) (k : Nat) (code : Nat → Nat) : Bank :=
  { b with w := (List.range 64).foldl (fun m n => FMap.set 0 m (64 * k + n) (w32 (code n))) b.w }

/-- Row k of the weights, from local rows or from the fetch buffer (R143). -/
def State.weightCode (s : State) (d : Desc) (fmt : Nat) (src : Option Shape) (k n : Nat) : Nat :=
  let b := fmtBits fmt
  match src with
  | none =>
    let row := fun (r i : Nat) => localElem s.curTeam.mem ((d.rows 0 0).off + r * (d.rows 0 0).stride) b i
    if d.column then row n k else row k n
  | some r =>
    let buf := s.curParty.fetchBuf
    let bytes := r.box0 * b / 8
    let row := fun (i j : Nat) => packed (ofBytes ((buf.drop (i * bytes)).take bytes)) b j
    if r.order then row n k else row k n

/-- Scale bytes of the 64 columns (R143, R233). -/
def State.weightScales (s : State) (d : Desc) (fmt : Nat) : FMap W8 :=
  let per := fmtDepth fmt / 32
  (List.range 64).foldl (fun m n => (List.range per).foldl (fun m j =>
    FMap.set 0 m (16 * n + j) (FMap.get 0 s.curTeam.mem ((d.scaleRows 0 0).off + n * (d.scaleRows 0 0).stride + j))) m) []

/-- The fetcher reads source rows into its buffer until the box is whole (R248). -/
def State.fetchBox (s : State) (r : Shape) (idx : W64) : Nat → Except State State
  | 0 => .ok s
  | fuel + 1 =>
    let bytes := r.box0 * r.bits / 8
    let row := s.curParty.fetchBuf.length / bytes
    if row ≥ r.box1 then .ok s
    else match s.readRow r idx row with
      | (s, .ok v) => (s.setCurParty { s.curParty with fetchBuf := s.curParty.fetchBuf ++ bytesOf v bytes }).fetchBox r idx fuel
      | (s, .error e) =>
        let s := match e.2.2 with
          | .miss (.bad _) => s.setCurParty { s.curParty with fetchBuf := [] }
          | _ => s
        .error (s.stopRead e .read)

/-- WLOAD's plan (R143, R248): one unit is one weight row. -/
def State.wloadPlan (s : State) (d6 a b : BitVec 6) (src w : BitVec 1) : Plan :=
  let d := s.desc a
  let one := w == 1
  let load := fun (fmt : Nat) (shape : Option Shape) (s : State) (p : Nat) =>
    let B := s.bank one
    let B := if p = 0 then { B with loaded := true, bad := false, fmt := BitVec.ofNat 5 fmt, scaled := d.scaled
                                    scales := if d.scaled then s.weightScales d fmt else [] } else B
    let s' := s.setBank one (B.setRow p (s.weightCode d fmt shape p))
    if p + 1 = fmtDepth fmt then s'.setCurParty { s'.curParty with fetchBuf := [] } else s'
  if src = 0 then
    let K := fmtDepth d.fmt
    let rows := if d.column then d.rows 64 (K * fmtBits d.fmt / 8) else d.rows K (64 * fmtBits d.fmt / 8)
    let sc := d.scaleRows 64 (K / 32)
    match lowest [(d.bad, 8), (decide (d.fmt ≤ 19) && rows.misplaced, 9), (decide (d.fmt ≤ 19) && d.scaled && sc.misplaced, 9)] with
    | some c => .error (s.shapeTrap c)
    | none => s.checkRows (rows :: if d.scaled then [sc] else []) .read (.ok (K, fun s p =>
        s.awaitRows (rows :: if d.scaled then [sc] else []) (.ok (load d.fmt none s p))))
  else
    let idx := s.getS b
    let dirty := d.word0 != (if d.scaled then 2 ^ 53 else 0) || decide (2 ^ 48 ≤ d.word1) || (!d.scaled && d.word1 != 0)
    match FMap.get none s.curParty.shapes (d6.toNat % 8) with
    | none => .error (s.shapeTrap 7)
    | some rec_ =>
      let r := shapeOf rec_
      let K := fmtDepth r.fmt
      let sc := d.scaleRows 64 (K / 32)
      match lowest [(decide (r.localRows ≠ (K, 64 * r.bits / 8)), 5), (dirty, 8), (d.scaled && sc.misplaced, 9),
          (boxIndex idx 0 * r.bits % 8 != 0, 18)] with
      | some c => .error (s.shapeTrap c)
      | none => s.checkRows (if d.scaled then [sc] else []) .read (.ok (K, fun s p =>
          match s.fetchBox r idx r.box1 with
          | .error s => .error s
          | .ok s => s.awaitRows (if d.scaled then [sc] else []) (.ok (load r.fmt (some r) s p))))

/-- WLOAD (R143): a word that begins finds the fetch buffer empty (R248). -/
def execWload (d a b : BitVec 6) (c w : BitVec 1) (st : BitVec 2) (s : State) : Result :=
  gate (.wload d a b c w st) s fun s =>
    let s := if (s.curParty.lane s.firstLane).units = 0 then s.setCurParty { s.curParty with fetchBuf := [] } else s
    (s.wloadPlan d a b c w).run s

/-- WSWAP (R144). -/
def execWswap (st : BitVec 2) (s : State) : Result :=
  gate (.wswap st) s fun s => (s.setCurParty { s.curParty with cur := !s.curParty.cur }).advance

/-! ### Rows through the array -/

/-- The product list of a row with column n of a bank (R145). -/
def Bank.products (B : Bank) (row : List (Elem × Option FVal)) (n : Nat) : List FVal :=
  (row.zipIdx).map fun x =>
    let k := x.2
    exactProduct x.1.1 (decodeElem B.fmt.toNat (FMap.get 0 B.w (64 * k + n)).toNat) x.1.2
      (if B.scaled then some (E4M3.read (FMap.get 0 B.scales (16 * n + k / 32)).toNat) else none)

/-- A row enters row i of a tile under a bank, in all 64 columns (R145, R146). -/
def Tile.enterRow (t : Tile) (B : Bank) (i : Nat) (row : List (Elem × Option FVal)) : Tile :=
  (List.range 64).foldl (fun t n => t.enter i n (B.products row n)) t

/-- Row m of the activations with its scales (R145). -/
def State.activation (s : State) (d : Desc) (m : Nat) : List (Elem × Option FVal) :=
  let K := fmtDepth d.fmt
  let b := fmtBits d.fmt
  let v := Mem.read s.curTeam.mem ((d.rows 0 0).off + m * (d.rows 0 0).stride) (K * b / 8)
  let sc := fun (k : Nat) => E4M3.read (FMap.get 0 s.curTeam.mem ((d.scaleRows 0 0).off + m * (d.scaleRows 0 0).stride + k / 32)).toNat
  (List.range K).map fun k => (decodeElem d.fmt (packed v b k), if d.scaled then some (sc k) else none)

/-- MMA's plan (R145). -/
def State.mmaPlan (s : State) (h a b : BitVec 6) : Plan :=
  let d := s.desc a
  let count := (s.getS b).toNat
  let M := count % 2 ^ 11
  let B := s.bank s.curParty.cur
  let K := fmtDepth d.fmt
  let rows := d.rows M (K * fmtBits d.fmt / 8)
  let sc := d.scaleRows M (K / 32)
  let valid := decide (d.fmt ≤ 19)
  let inRange := M != 0 && decide (M ≤ 1024)
  match lowest [(d.bad || decide (2 ^ 11 ≤ count), 8), (valid && (rows.misplaced || (d.scaled && sc.misplaced)), 9), (!inRange, 10),
      (valid && (d.column || (B.loaded && !fmtMeet d.fmt B.fmt.toNat)), 11),
      (inRange && !s.tilesOk h.toNat (tilesOf M), 14), (!B.loaded, 17)] with
  | some c => .error (s.shapeTrap c)
  | none =>
    if B.bad || s.tilesBad h.toNat (tilesOf M) then .error s.ownFault
    else s.checkRows (rows :: if d.scaled then [sc] else []) .read (.ok (M, fun s m =>
      s.awaitRows (rows.row m :: if d.scaled then [sc.row m] else []) (
        let t := h.toNat + m / 16
        .ok (s.setTile t ((s.tile t).enterRow (s.bank s.curParty.cur) (m % 16) (s.activation d m))))))

/-- MMA (R145). -/
def execMma (h a b : BitVec 6) (st : BitVec 2) (s : State) : Result :=
  gate (.mma h a b st) s fun s =>
    let s := s.useTiles [(h.toNat, tilesOf ((s.getS b).toNat % 2 ^ 11))]
    (s.mmaPlan h a b).run s

/-- Group size of `mmac` for a format (R147). -/
def groupSize (fmt : Nat) : Nat := if fmtBits fmt = 32 then 1 else if fmtBits fmt = 16 then 2 else 4

/-- MMAC's plan (R147). -/
def State.mmacPlan (s : State) (hd hs b : BitVec 6) : Plan :=
  let r := s.convRecord b [0, 1, 2, 3, 5, 6, 7, 11, 12]
  let c := r.1
  let B := s.bank s.curParty.cur
  let g := groupSize c.fmt
  let nt := tilesOf c.rows
  let sound := !((r.2.take 3).any (·.1))
  match lowest (r.2 ++ [(decide (c.fmt ≤ 19) && B.loaded && !fmtMeet c.fmt B.fmt.toNat, 11),
      (sound && !(s.tilesOk hs.toNat (g * nt) && s.tilesOk hd.toNat nt), 14),
      (sound && decide (hd.toNat < hs.toNat + g * nt) && decide (hs.toNat < hd.toNat + nt), 16), (!B.loaded, 17)]) with
  | some c => .error (s.shapeTrap c)
  | none =>
    if B.bad || s.tilesBad hs.toNat (g * nt) || s.tilesBad hd.toNat nt then .error s.ownFault
    else .ok (c.rows, fun s m =>
      let row := (List.range (64 * g)).map fun k =>
        let t := hs.toNat + g * (m / 16) + k / 64
        (decodeElem c.fmt (downConvert (s.tile t) (m % 16) (k % 64) t c), (none : Option FVal))
      let t := hd.toNat + m / 16
      .ok (s.setTile t ((s.tile t).enterRow (s.bank s.curParty.cur) (m % 16) row)))

/-- MMAC (R147). -/
def execMmac (h g b : BitVec 6) (st : BitVec 2) (s : State) : Result :=
  gate (.mmac h g b st) s fun s =>
    let c := (s.convRecord b []).1
    let s := s.useTiles [(h.toNat, tilesOf c.rows), (g.toNat, groupSize c.fmt * tilesOf c.rows)]
    (s.mmacPlan h g b).run s

/-! ### Accumulator words -/

/-- ACC_ALLOC (R149). -/
def execAccAlloc (h n : BitVec 6) (st : BitVec 2) (s : State) : Result :=
  gate (.accAlloc h n st) s fun s =>
    let k := n.toNat + 1
    let taken := (List.range k).any fun i => (s.tile (h.toNat + i)).allocated
    match lowest [(decide (64 < h.toNat + k), 14), (taken || decide (s.curTeam.hdr.acctiles < s.tilesHeld + k), 15)] with
    | some c => s.shapeTrap c
    | none => (s.setTiles h.toNat k (freshTile 0)).advance

/-- Two runs of tiles overlap. -/
def tilesMeet (a b : Nat × Nat) : Bool := decide (a.1 < b.1 + b.2) && decide (b.1 < a.1 + a.2)

/-- A long word of team t that a party on the core of party k is still running uses tiles among n from h (R149). DESIGN CHOICE: one that
the team's halt has stopped while another party runs its handler is not waited for, since it cannot go on before the handler returns
(log 64). -/
def State.tilesBusy (s : State) (t k h n : Nat) : Bool :=
  let T := s.team t
  T.parties.any fun (e : Nat × Party) =>
    e.2.core == (T.party k).core && T.mayIssue e.1 && e.2.active.any fun l =>
      let x := e.2.lane l
      x.units != 0 && x.wait != .stopped && x.tiles.any fun r => tilesMeet r (h, n)

/-- A word that gives n tiles from h a new state: when they are allocated, and once no earlier word uses them (R149, R150). -/
def State.takeTiles (s : State) (h n : Nat) (t : Tile) : State :=
  if !s.tilesOk h n then s.shapeTrap 14
  else if s.tilesBusy s.cur.team s.cur.party h n then s.hold (.tiles h n)
  else (s.setTiles h n t).advance

/-- ACC_FREE (R149). -/
def execAccFree (h n : BitVec 6) (st : BitVec 2) (s : State) : Result :=
  gate (.accFree h n st) s fun s => s.takeTiles h.toNat (n.toNat + 1) {}

/-- ACC_ANC (R150). -/
def execAccAnc (h n b : BitVec 6) (st : BitVec 2) (s : State) : Result :=
  gate (.accAnc h n b st) s fun s => s.takeTiles h.toNat (n.toNat + 1) (freshTile ((s.getS b).setWidth 8))

/-- The flag word of a tile (R151). -/
def Tile.flagWord (t : Tile) : W64 :=
  if t.allocated then w64 (2 ^ 16 + 2 ^ 8 * t.anchor.toNat + 4 * b2n t.nan + 2 * b2n t.inexact + b2n t.sat) else 0

/-- ACC_FLG (R151). -/
def execAccFlg (d h : BitVec 6) (c : BitVec 1) (st : BitVec 2) (s : State) : Result :=
  gate (.accFlg d h c st) s fun s =>
    let t := s.tile h.toNat
    let s := if c = 1 then s.setTile h.toNat { t with nan := false, inexact := false, sat := false } else s
    s.putS d t.flagWord

/-- ACC_RD's plan (R152). -/
def State.accRdPlan (s : State) (h a b : BitVec 6) (z : BitVec 1) : Plan :=
  let r := s.convRecord a [0, 1, 2, 3, 5, 6, 7, 11, 12, 14]
  let c := r.1
  let place := s.getS b
  let w := fmtBits c.fmt
  let rows := placeRows place c.rows (64 * w / 8)
  let inRange := c.rows != 0 && decide (c.rows ≤ 1024)
  match lowest (r.2 ++ [(decide (2 ^ 48 ≤ place.toNat), 8), (decide (c.fmt ≤ 19) && rows.misplaced, 9),
      (inRange && !s.tilesOk h.toNat (tilesOf c.rows), 14)]) with
  | some c => .error (s.shapeTrap c)
  | none =>
    if s.tilesBad h.toNat (tilesOf c.rows) then .error s.ownFault
    else s.checkRows [rows] .write (.ok (c.rows, fun s m =>
      s.awaitRows [rows.row m] (
        let off := rows.off + m * rows.stride
        let t := h.toNat + m / 16
        let v := packRow w ((List.range 64).map fun n => downConvert (s.tile t) (m % 16) n t c)
        let s := s.writeLocal s.cur.team off rows.k v
        .ok (if z = 1 then s.setTile t ((s.tile t).zeroRow (m % 16)) else s))))

/-- ACC_RD (R152). -/
def execAccRd (h a b : BitVec 6) (z : BitVec 1) (st : BitVec 2) (s : State) : Result :=
  gate (.accRd h a b z st) s fun s =>
    let s := s.useTiles [(h.toNat, tilesOf (s.convRecord a []).1.rows)]
    (s.accRdPlan h a b z).run s

/-! ### Words in the course of being performed -/

/-- A long word, which stops between units (R117, R157). -/
def longWord (i : Instr) : Bool :=
  match i with
  | .wload .. | .mma .. | .mmac .. | .accRd .. | .tld .. | .tst .. | .tcon .. => true
  | _ => false

/-- The word at which a lane of a party stands, if it can be read. -/
def State.wordAt (s : State) (t k l : Nat) : Option Instr :=
  match s.fetchWord t k ((s.party t k).lane l).pc.toNat with
  | .ok v => (decode (w32 v)).toOption
  | .error _ => none

end Sys2Proof.Machine
end

