-- ==== Sys2Proof/Machine/Barriers.lean ====
section
/-! DEFINITION. Barrier words (R160 to R164, R300, R301), fences and the code words (R165 to R167). -/

namespace Sys2Proof.Machine

open Sys2Proof

/-! ### Barrier state (R161) -/

/-- φx of a party, if it has one. -/
def Barrier.phiOf (b : Barrier) (x : Nat) : Option Nat :=
  if FMap.get 0 b.phi x = 0 then none else some (FMap.get 0 b.phi x - 1)

/-- Phases complete while e ≠ 0 and a ≥ e: after the first, a is n and n is 0, so at most a + n phases do. -/
def Barrier.complete (b : Barrier) : Nat → Barrier
  | 0 => b
  | fuel + 1 =>
    if b.e ≠ 0 ∧ b.a ≥ b.e then Barrier.complete { b with phase := b.phase + 1, a := b.n, n := 0 } fuel else b

/-- Complete() (R161). -/
def Barrier.settle (b : Barrier) : Barrier := b.complete 3

/-- Whether a party's arrival must wait: it is already one phase ahead (R161). -/
def Barrier.ahead (b : Barrier) (x : Nat) : Bool := b.phiOf x == some (b.phase + 1)

/-- Arrive(x) of a party that need not wait (R161). -/
def Barrier.arrive (b : Barrier) (x : Nat) : Barrier :=
  (if b.phiOf x = some b.phase then { b with n := b.n + 1, phi := FMap.set 0 b.phi x (b.phase + 2) }
   else { b with a := b.a + 1, phi := FMap.set 0 b.phi x (b.phase + 1) }).settle

/-- Target(x) (R161). -/
def Barrier.target (b : Barrier) (x : Nat) : Nat :=
  match b.phiOf x with
  | some f => if f ≥ b.phase then f else b.phase
  | none => b.phase

/-- The party that issues, as a barrier numbers it (R161). -/
def State.barParty (s : State) (wide : Bool) : Nat := if wide then 128 * s.cur.team + s.cur.party else s.cur.party

/-- The home that a wide scope gives a party: cluster, die or device (R164). -/
def State.homeOf (s : State) (scope : Nat) : Nat × Nat :=
  let c := s.curParty.core
  (scope, if scope = 3 then clusterOf c else if scope = 4 then dieOf c else 0)

/-- Runs a barrier word on its barrier, or raises the trap of R162 or R164; the first word on a wide barrier homes it. -/
def State.onBarrier (s : State) (p : BitVec 3) (k : BitVec 5) (f : State → Bool → Barrier → State) : State :=
  let wide := p != 2
  if !wide && decide (s.curTeam.hdr.barriers ≤ k.toNat) then s.illegal true 3
  else
    let b := s.barrierOf s.cur.team wide k.toNat
    if !wide then f s wide b
    else match b.home with
      | none => f s wide { b with home := some (s.homeOf p.toNat) }
      | some h =>
        if h.1 ≠ p.toNat then s.illegal true 3
        else if h ≠ s.homeOf p.toNat then s.trapUniform { kind := 5, detail := 7 }
        else f s wide b

/-- Waits for a phase above a target, or goes on (R161). -/
def State.awaitPhase (s : State) (wide : Bool) (k target : Nat) : State :=
  if target < (s.barrierOf s.cur.team wide k).phase then s.advance else s.hold (.barrier wide k target none)

/-- Arrive(x) of the issuing party, then `after` on its φx; a party one ahead waits first (R161). -/
def State.arriveThen (s : State) (p : BitVec 3) (k : BitVec 5) (after : State → Bool → Nat → State) : State :=
  s.onBarrier p k fun s wide b =>
    let x := s.barParty wide
    if b.ahead x then (s.setBarrierOf s.cur.team wide k.toNat b).hold (.arrive wide k.toNat)
    else
      let b := b.arrive x
      after (s.setBarrierOf s.cur.team wide k.toNat b) wide ((b.phiOf x).getD 0)

/-- What the issuing lanes wait for at their word. -/
def State.curWait (s : State) : Wait := (s.curParty.lane s.firstLane).wait

/-- A rendezvous word of R160 that may have issued before and waits: `again` acts then. -/
def State.rendezvousOnce (s : State) (first : State → State) (again : Wait → Option (State → State)) : State :=
  match again s.curWait with
  | some f => f s
  | none => s.rendezvous first

/-! ### Barrier words (R162) -/

/-- BAR_INIT (R162). -/
def execBarInit (k : BitVec 5) (b : BitVec 6) (p : BitVec 3) (st : BitVec 2) (s : State) : Result :=
  gate (.barInit k b p st) s fun s =>
    let count := (s.getS b).toNat
    let top := if p = 2 then (if s.curTeam.hdr.twin then 66 else 33) else 2 ^ 20
    if count = 0 ∨ top < count then s.illegal true 3
    else s.onBarrier p k fun s wide b =>
      let put := fun (x : Barrier) => s.setBarrierOf s.cur.team wide k.toNat x
      if b.e = 0 then (put { b with e := count }.settle).advance
      else if b.a = 0 ∧ b.n = 0 then (put { b with e := count }).advance
      else (put b).hold (.barInit wide k.toNat)

/-- BAR_ARR (R162). -/
def execBarArr (k : BitVec 5) (p : BitVec 3) (st : BitVec 2) (s : State) : Result :=
  gate (.barArr k p st) s fun s =>
    let go := fun (s : State) => s.arriveThen p k fun s _ _ => s.advance
    s.rendezvousOnce go fun w => match w with
      | .arrive _ _ => some go
      | _ => none

/-- BAR_WAIT (R162). -/
def execBarWait (k : BitVec 5) (p : BitVec 3) (st : BitVec 2) (s : State) : Result :=
  gate (.barWait k p st) s fun s =>
    s.rendezvousOnce
      (fun s => s.onBarrier p k fun s wide b =>
        (s.setBarrierOf s.cur.team wide k.toNat b).awaitPhase wide k.toNat (b.target (s.barParty wide)))
      fun w => match w with
        | .barrier wide j target _ => some fun s => s.awaitPhase wide j target
        | _ => none

/-- BAR_AW (R162): the wait is on the φx of its own arrival. -/
def execBarAw (k : BitVec 5) (p : BitVec 3) (st : BitVec 2) (s : State) : Result :=
  gate (.barAw k p st) s fun s =>
    let go := fun (s : State) => s.arriveThen p k fun s wide phi => s.awaitPhase wide k.toNat phi
    s.rendezvousOnce go fun w => match w with
      | .arrive _ _ => some go
      | .barrier wide j target _ => some fun s => s.awaitPhase wide j target
      | _ => none

/-- `bar.try` looks at its phase: its flag is 1 once the phase has passed, and until then its lanes wait for the bound (R162,
R300). -/
def State.tryPhase (s : State) (wide : Bool) (k target bound n : Nat) (st : BitVec 2) : State :=
  if target < (s.barrierOf s.cur.team wide k).phase then (s.setFlags n true).advance
  else s.hold (.barrier wide k target (some (bound, n, st)))

/-- A lane at a `bar.try` whose bound passes before its phase: the word completes without the phase (R300). DESIGN
CHOICE: it does so as the cycle issue + bound begins, so that a phase that completes in this cycle comes too late (log 85). -/
def State.expire (s : State) (t : Nat) (x : Lane) : Lane :=
  match x.wait with
  | .barrier wide b target (some (bound, n, st)) =>
    if bound ≤ s.now ∧ (s.barrierOf t wide b).phase ≤ target then x.hold (.expired n st) else x
  | _ => x

/-- What the passing of a cycle ends: the bounds of `bar.try` (R300). -/
def State.expireTries (s : State) : State :=
  { s with teams := s.teams.map fun (e : Nat × Team) => (e.1, e.2.mapLanes (s.expire e.1)) }

/-- BAR_TRY (R162, R300). -/
def execBarTry (k : BitVec 5) (n : BitVec 2) (b : BitVec 6) (p : BitVec 3) (st : BitVec 2) (s : State) : Result :=
  gate (.barTry k n b p st) s fun s =>
    s.rendezvousOnce
      (fun s =>
        let bound := (s.getS b).toNat
        if bound = 0 ∨ 2048 < bound then s.illegal true 3
        else s.onBarrier p k fun s wide b =>
          (s.setBarrierOf s.cur.team wide k.toNat b).tryPhase wide k.toNat (b.target (s.barParty wide)) (s.now + bound) n.toNat st)
      fun w => match w with
        | .barrier wide j target (some (bound, n, st)) => some fun s => s.tryPhase wide j target bound n st
        | .expired n _ => some fun s => (s.setFlags n false).advance
        | _ => none

/-- BAR_TRY_TIMEOUT (R300): lanes at a `bar.try` whose bound has passed before their phase take a flag of 0 and go on. -/
def execBarTryTimeout (team party : Nat) (s : State) : Result :=
  event s fun s =>
    if (s.team team).mayIssue party then
      s.setParty team party ((s.party team party).mapLanes (s.party team party).active fun _ x =>
        match x.wait with
        | .expired _ _ => s.endTry team x
        | _ => x)
    else s

/-! ### Fences and code (R165 to R167) -/

/-- FENCE (R165). The gate has drained and waited for a release of system scope; an acquire of system scope waits for the
responses of earlier peer loads. -/
def execFence (p : BitVec 3) (o st : BitVec 2) (s : State) : Result :=
  gate (.fence p o st) s fun s =>
    if p = 6 ∧ o = 1 ∧ s.peerBusy s.cur.team s.cur.party s.cur.lanes = true then s.hold .release
    else s.advance

/-- IFENCE (R166). -/
def execIfence (st : BitVec 2) (s : State) : Result :=
  gate (.ifence st) s fun s => (s.setCurParty { s.curParty with prefetch := [] }).advance

/-- ICINV (R167): every fetch block that meets the range leaves every instruction cache of the device. -/
def execIcinv (a b : BitVec 6) (st : BitVec 2) (s : State) : Result :=
  gate (.icinv a b st) s fun s =>
    let lo := (s.getS a).toNat
    let n := (s.getS b).toNat
    (if n = 0 then s else
      { s with icache := s.icache.filter fun e =>
          !(decide (lo / 64 ≤ e.2.1) && decide (e.2.1 ≤ (lo + n - 1) / 64)) }).advance

end Sys2Proof.Machine
end

