-- ==== Sys2Proof/Machine/Launches.lean ====
section
/-! DEFINITION. Launches: kernel headers (R40, R41), grants (R159, R346), the launch queues (R173, R215, R464) and the word
`launch`. -/

namespace Sys2Proof.Machine

open Sys2Proof

/-! ### Grants (R159, R347) -/

/-- The device counter that index i of the context names, if its grant covers i. -/
def Ctx.counterAt (c : Ctx) (i : Nat) : Option Nat :=
  let first := bits c.cgrant.toNat 11 0
  if i < bits c.cgrant.toNat 24 12 then some (first + i) else none

/-- The device queue that index i of the context names, if its grant covers i. -/
def Ctx.queueAt (c : Ctx) (i : Nat) : Option Nat :=
  if i < bits c.qgrant.toNat 12 6 then some (bits c.qgrant.toNat 5 0 + i) else none

/-- Whether a context holds queue q. -/
def Ctx.holdsQueue (c : Ctx) (q : Nat) : Bool :=
  c.resident && decide (bits c.qgrant.toNat 5 0 ≤ q) && decide (q < bits c.qgrant.toNat 5 0 + bits c.qgrant.toNat 12 6)

/-- The slot of the context that holds queue q, and its priority there (R215, R347). -/
def State.queueOwner (s : State) (q : Nat) : Option Nat := (s.ctxs.find? fun (e : Nat × Ctx) => e.2.holdsQueue q).map (·.1)

/-- Priority of queue q (R347). -/
def State.queuePrio (s : State) (q : Nat) : Nat :=
  match s.queueOwner q with
  | none => 0
  | some k => (s.ctx k).prio.toNat / 2 ^ (4 * (q - bits (s.ctx k).qgrant.toNat 5 0)) % 8

/-! ### Headers -/

/-- The header whose 64 bytes are v, at address H, or none when it breaks R40 or R41. -/
def parseHeader (H v : Nat) : Option Header :=
  let twin := bit v 48
  let seq := bit v 49
  let entry := bits v 127 64
  let seqentry := bits v 191 128
  let jtbase := bits v 255 192
  let jtlimit := bits v 287 256
  let code := bits v 295 288
  let v8 := bits v 303 296
  let strands := bits v 311 304
  let barriers := bits v 319 312
  let localBytes := bits v 351 320
  let acctiles := bits v 359 352
  let stack := bits v 415 384
  let params := bits v 423 416
  let W := 16 * 2 ^ code
  let share := W * (8 * v8) * 4 + 512
  let most := if twin then (strands + 1) / 2 else strands
  if H % 64 = 0 ∧ bits v 31 0 = 0x314B4847 ∧ bits v 47 32 = 1 ∧ bits v 63 50 = 0 ∧ entry ≠ 0 ∧ entry % 4 = 0
      ∧ (if seq then seqentry ≠ 0 ∧ seqentry % 4 = 0 else seqentry = 0)
      ∧ jtbase % 8 = 0 ∧ (jtlimit = 0 → jtbase = 0) ∧ jtlimit ≤ 65536 ∧ code ≤ 2 ∧ 2 ≤ v8 ∧ v8 ≤ 15
      ∧ (if twin then 2 ≤ strands ∧ strands ≤ 64 else 1 ≤ strands ∧ strands ≤ 32)
      ∧ barriers ≤ 24 ∧ localBytes % 256 = 0 ∧ localBytes ≤ (if twin then 524288 else 262144)
      ∧ acctiles ≤ 64 ∧ bits v 383 360 = 0 ∧ stack % 64 = 0 ∧ stack ≤ 2097152 ∧ params ≤ 8 ∧ bits v 511 424 = 0
      ∧ most * share ≤ 262144 ∧ most ≤ 64 then
    some { entry := w64 entry, seqentry := w64 seqentry, jtbase := w64 jtbase, jtlimit := w32 jtlimit, width := W
           vregs := 8 * v8, strands := strands, barriers := barriers, localBytes := localBytes, acctiles := acctiles
           stack := stack, params := params, twin := twin, seq := seq }
  else none

/-! ### Reads of the device itself -/

/-- n bytes read for a context outside any team, at most 8 bytes at a time; those in a peer window are not read here. -/
def State.readAs (s : State) (slot va n : Nat) : Nat → Except (Nat × Miss) Nat
  | 0 => .ok 0
  | fuel + 1 =>
    if n = 0 then .ok 0
    else
      let a := va % 2 ^ 64
      let k := Nat.min n (8 - a % 8)
      match s.locate slot 0 .read a k with
      | .error m => .error (a, m)
      | .ok l => match s.readLoc [] l k with
        | .error m => .error (a, m)
        | .ok v => match s.readAs slot (va + k) (n - k) fuel with
          | .error e => .error e
          | .ok rest => .ok (v + 2 ^ (8 * k) * rest)

/-- The 64 bytes of a header in a peer window are asked for, for window q or the pattern (65), on the channel of a core (R173, R451,
R464). -/
def State.askHeader (s : State) (core q slot H m a : Nat) : State :=
  let o : Outstanding :=
    { req := { src := s.module, dst := m, core := core, asid := (s.ctx slot).asid, seq := 0, op := .load, code := 0, ty := 0
               strand := 0, lanes := [{ lane := 0, addr := w64 a, size := 64, x := 0, y := 0 }] }
      team := 0, party := 0, pc := 0, word := none, tag := 0, dests := [], lanes := [], carried := [(0, 0, 0, w64 H)], reads := true
      index := 0, fetch := false, window := some q }
  (s.enqueue core m [o]).pumpAll core

/-- A header is being asked for, for window q or the pattern. -/
def State.asking (s : State) (q : Nat) : Bool :=
  s.cores.any fun (e : Nat × Core) => e.2.chans.any fun (c : Nat × Channel) => (c.2.out ++ c.2.waiting).any fun o => o.window == some q

/-- No answer to a request for the header of window q, or of the pattern, reaches it any more. -/
def Channel.forgetHeader (c : Channel) (q : Nat) : Channel :=
  let cut := fun (o : Outstanding) => if o.window = some q then { o with window := some 64 } else o
  { c with out := c.out.map cut, waiting := c.waiting.map cut }

/-- The same on every channel. -/
def State.forgetHeader (s : State) (q : Nat) : State :=
  { s with cores := s.cores.map fun (e : Nat × Core) =>
    (e.1, { e.2 with chans := e.2.chans.map fun (c : Nat × Channel) => (c.1, c.2.forgetHeader q) }) }

/-- The n 8-byte words of a number. -/
def wordsOf (v : Nat) : Nat → List W64
  | 0 => []
  | n + 1 => w64 v :: wordsOf (v / 2 ^ 64) n

/-- Logs an access violation that a reader of a context other than a lane meets (R333). -/
def State.logAs (s : State) (slot core strand addr detail : Nat) (acc : Acc) (host : Bool) : State :=
  let s := if detail = 4 then s.countUncorrected else s
  if loggedDetail detail && detail != 5 then
    s.logViolation addr (violationWord (s.ctx slot).asid detail acc.code s.module core strand 0 host) (dieOf core)
  else s

/-! ### The queues -/

/-- Launches that wait on queue q. -/
def State.queue (s : State) (q : Nat) : List Nat := FMap.get [] s.disp.queues q

/-- Puts a launch behind the others of its queue (R215) and gives it the context's next launch number (R132). -/
def State.enqueueLaunch (s : State) (l : Launch) : State × Nat :=
  let c := s.ctx l.slot
  let k := s.disp.nextLaunch
  let s := s.setCtx l.slot { c with nextLaunch := c.nextLaunch + 1 }
  ({ s with disp := { s.disp with
      launches := FMap.set none s.disp.launches k (some { l with id := c.nextLaunch })
      queues := FMap.set [] s.disp.queues l.queue (s.queue l.queue ++ [k])
      nextLaunch := k + 1 } }, k)

/-- What a launch came to: its result of R173, or a read that parks. -/
inductive LaunchEnd where
  | result (r : Nat)
  | enqueued (key : Nat)
  | park (addr : Nat)
  deriving DecidableEq, Repr

/-- A launch with a header and parameters that have been read: refused by R41 or R346, for want of room, or enqueued. DESIGN CHOICE:
whether the queue has room is judged after both have been read, so result 3 goes before result 2 (R173, log 56). -/
def State.acceptLaunch (s : State) (slot H q : Nat) (word : W64) (hdr : Option Header) (params : List W64) (src : LaunchSrc) :
    State × LaunchEnd :=
  match hdr with
  | none => (s, .result 1)
  | some h =>
    if 56 ≤ q ∧ h.seq = true then (s, .result 1)
    else if (s.queue q).length ≥ 256 then (s, .result 2)
    else
      let r := s.enqueueLaunch { slot := slot, hdrAddr := w64 H, hdr := h, word := word, params := params, queue := q, src := src }
      (r.1, .enqueued r.2)

/-- Whether a launch word breaks R464: its reserved bits or a completion counter beyond the grant. -/
def Ctx.badLaunchWord (c : Ctx) (word : Nat) : Bool :=
  bits word 63 51 != 0 || (bit word 50 && (c.counterAt (bits word 49 38)).isNone)

/-- The device queue of a launch of a source with no issuing word, unless the launch word or the header's address refuses it (R464). -/
def Ctx.launchQueue (c : Ctx) (word : W64) (H : Nat) (queue : Option Nat) : Option Nat :=
  match queue with
  | none => none
  | some q => if c.badLaunchWord word.toNat ∨ H % 64 ≠ 0 then none else some q

/-- A launch of a source with no issuing word whose header's 64 bytes have been read (R464); `most` bounds the header's params field,
whose words are at hand. -/
def State.launchHeader (s : State) (slot H q v : Nat) (word : W64) (most : Nat) (params : Nat → List W64) (src : LaunchSrc) :
    State × LaunchEnd :=
  match parseHeader H v with
  | none => (s, .result 1)
  | some h => if most < h.params then (s, .result 1) else s.acceptLaunch slot H q word (some h) (params h.params) src

/-- A launch of a source with no issuing word and no job (R464): a host window, on its own device queue, or a pattern entry, on one of
its context. -/
def State.launchAs (s : State) (slot H : Nat) (word : W64) (queue : Option Nat) (most : Nat) (params : Nat → List W64)
    (src : LaunchSrc) (core strand : Nat) (host : Bool) : State × LaunchEnd :=
  match (s.ctx slot).launchQueue word H queue with
  | none => (s, .result 1)
  | some q => match s.readAs slot H 64 64 with
    | .error (a, .bad d) => (s.logAs slot core strand a d .read host, LaunchEnd.result 3)
    | .error (a, _) => (s, .park a)
    | .ok v => s.launchHeader slot H q v word most params src

/-- The `launch` word after its header is read: result 3 for a read that is refused, here or at a peer (R173). -/
def State.launchRead (s : State) (va n : Nat) (k : State → Nat → State) (d : BitVec 6) : State :=
  match s.readRecord va n with
  | (s, .ok v) => k s v
  | (s, .error (a, .peer m p)) => if s.curParty.refused.contains a then s.putS d 3 else s.fetchPeer a 8 m p true
  | (s, .error (a, .miss (.bad det))) =>
    (s.logFor s.cur.team s.cur.party (if s.curParty.seq then 0 else s.firstLane) a det .read).putS d 3
  | (s, .error (a, g)) => s.missUniform g a 8 .read

/-- LAUNCH (R173). DEDUCED: a parameter block that is not 8-byte aligned is a misaligned access of R159 (log 56). -/
def execLaunch (d a b : BitVec 6) (st : BitVec 2) (s : State) : Result :=
  gate (.launch d a b st) s fun s =>
    let H := (s.getS a).toNat
    let word := s.rdS (a.toNat + 1)
    let P := (s.getS b).toNat
    let c := s.curCtx
    let slot := s.curTeam.slot
    if bits word.toNat 63 51 ≠ 0 then s.illegal true 3
    else match c.queueAt (bits word.toNat 37 32) with
      | none => s.trapUniform { kind := 5, detail := 7 }
      | some q =>
        if c.badLaunchWord word.toNat then s.trapUniform { kind := 5, detail := 7 }
        else if H % 64 ≠ 0 then s.putS d 1
        else s.launchRead H 8 (d := d) fun s v =>
          match parseHeader H v with
          | none => s.putS d 1
          | some h =>
            let go := fun (s : State) (ps : List W64) =>
              match s.acceptLaunch slot H q word (some h) ps (.word s.curParty.core) with
              | (s, .result r) => s.putS d (w64 r)
              | (s, _) => s.putS d 0
            if h.params = 0 then go s []
            else if P % 8 ≠ 0 then s.trapUniform { kind := 4, info := P }
            else s.launchRead P h.params (fun s v => go s (wordsOf v h.params)) d

end Sys2Proof.Machine
end

