-- ==== Sys2Proof/Machine/Fabric.lean ====
section
/-! DEFINITION. Messages and bulk between modules: which modules can be reached (R414, R422, R424), units kept until
their end-to-end acknowledgement (R423), and accesses of the device's own engines under a context's translation (R462). -/

namespace Sys2Proof.Machine

open Sys2Proof

/-- Whether traffic to a system module finds its destination: until the module is unreachable, and beyond the pod only under an entry
of kind 1 (R411, R414, R422). -/
def State.reaches (s : State) (m : Nat) : Bool := !s.lost m && (m / 1024 == s.pod || s.endpointKind m == 1)

/-- The next number of a unit to a system module, and the connection that carries it beyond the pod (R414, R423). Messages and the bulk
of collectives, stored responses, and checkpoint streams are each numbered for themselves, as kinds 0, 1 and 2 (log 62). -/
def State.nextUnit (s : State) (m : Nat) (kind : Nat := 0) : Nat × State :=
  let key := m + 2 ^ 18 * kind
  let n := FMap.get 0 s.fab.nextNumber key
  (2 ^ 32 * kind + n, State.openTo { s with fab := { s.fab with nextNumber := FMap.set 0 s.fab.nextNumber key (n + 1) } } m)

/-- Numbering to and from the system modules that satisfy p starts from 0 (R424, log 62). -/
def State.renumber (s : State) (p : Nat → Bool) : State :=
  { s with fab := { s.fab with
      nextNumber := s.fab.nextNumber.filter fun e => !p (e.1 % 2 ^ 18), inbound := s.fab.inbound.filter fun e => !p e.1 } }

/-- Messages and bulk that are not yet acknowledged and satisfy p go again, in the order of their numbers (R422, R423). -/
def State.sendAgain (s : State) (p : Unacked → Bool) : State :=
  s.fab.unacked.foldl (fun (s : State) u =>
    if p u then
      let r := s.transmit u.module (if u.bulk then .bulk else .message) u.packet u.number
      { r.1 with fab := { r.1.fab with
          unacked := r.1.fab.unacked.map fun x => if x.module = u.module ∧ x.number = u.number then { x with port := r.2 } else x } }
    else s) s

/-- Sends a unit, put when the device step had risen `rise` times, to another system module, and keeps it until it is acknowledged
(R423); the caller has seen that the module is reachable. The credits of R412 and R420 decide when it leaves and are not modelled
(log 62). A contribution names the context that `ctx.save` discards it with (R386). -/
def State.sendUnit (s : State) (m : Nat) (bulk : Bool) (rise : Nat) (p : Packet) (asid : Option (BitVec 16) := none)
    (kind : Nat := 0) : State :=
  let u := s.nextUnit m kind
  let r := u.2.transmit m (if bulk then .bulk else .message) p u.1
  { r.1 with fab := { r.1.fab with
      unacked := r.1.fab.unacked ++ [{ module := m, number := u.1, bulk := bulk, packet := p, rise := rise, asid := asid, port := r.2 }] } }

/-- A message or bulk unit to another system module; to an unreachable one it is discarded (R424). -/
def State.sendTo (s : State) (m : Nat) (bulk : Bool) (p : Packet) : State :=
  if s.reaches m then s.sendUnit m bulk s.tide.rises p else s

/-- END_TO_END_ACK_RECEIVE (R423): the sender releases the unit; a stored response that the requester acknowledges is released too.
The connection to a module of another pod closes with its last unit (log 53). -/
def execEndToEndAckReceive (module number : Nat) (s : State) : Result :=
  event s fun s =>
    let here := module / 1024 == s.pod
    let ingress := s.fab.ingress.map fun (e : Nat × Ingress) =>
      if here && e.1 / 2048 == module % 1024 then (e.1, { e.2 with stored := e.2.stored.filter fun x => x.2.1 != number }) else e
    let s := { s with fab := { s.fab with
      unacked := s.fab.unacked.filter fun u => !(u.module == module && u.number == number), ingress := ingress } }
    if !here && s.fab.unacked.all fun u => u.module != module then s.disconnect module else s

/-- Bytes of a checkpoint that have been drained: while it drains those of the units that its target has acknowledged, afterwards those
that had been when it ended (R178, R384). -/
def State.ckptBytes (s : State) (c : Ckpt) : Nat :=
  if c.state = 1 && !c.broken then
    ((c.units.zipIdx.filter fun x => !(s.fab.unacked.any fun u => u.module == x.1.1 && u.number == x.1.2)).map fun x =>
      if x.2 < c.frames.length then 2 ^ 21 else 8 * c.frames.length).sum
  else c.bytes

/-! ### Accesses of the device's own engines (R381, R462) -/

/-- n bytes at a place meet a unit in uncorrectable error that a write of them does not cover whole (R351). -/
def State.halfBad (s : State) (p : Place) (n : Nat) : Bool := s.bad.any fun u => p.touches n u && !p.covers n u

/-- n bytes of v written for the context in a slot, 64 aligned bytes at a time; a piece that cannot be performed is left out.
The first address of such a piece, if any. -/
def State.writeAs (s : State) (slot va n v : Nat) : Nat → State × Option Nat
  | 0 => (s, none)
  | fuel + 1 =>
    if n = 0 then (s, none)
    else
      let a := va % 2 ^ 64
      let k := Nat.min n (64 - a % 64)
      let r : State × Option Nat :=
        match s.locate slot 0 .write a k with
        | .ok (.phys p) => if s.halfBad p k then (s, some a) else (s.storePlace p k (v % 2 ^ (8 * k)), none)
        | _ => (s, some a)
      let q := r.1.writeAs slot (va + k) (n - k) (v / 2 ^ (8 * k)) fuel
      (q.1, r.2.or q.2)

end Sys2Proof.Machine
end

