-- ==== Sys2Proof/Machine/Quorum.lean ====
section
/-! DEFINITION. Collectives (R179, R369 to R379, R427, R428, R462) and the gauge (R181, R380 to R382). -/

namespace Sys2Proof.Machine

open Sys2Proof

/-! ### Records and handles -/

/-- Handle h. -/
def State.coll (s : State) (h : Nat) : Coll := FMap.get {} s.colls h
/-- Writes handle h. -/
def State.setColl (s : State) (h : Nat) (c : Coll) : State := { s with colls := FMap.set {} s.colls h c }

/-- Members and backups of a record. -/
def CollRecord.total (r : CollRecord) : Nat := r.n + r.nbackup
/-- Bytes of an input element (R370). -/
def CollRecord.inBytes (r : CollRecord) : Nat :=
  if r.infmt = 0 then 4 else if r.infmt = 1 then 8 else if r.wire64 then 8 else 4
/-- Bits of the wire. -/
def CollRecord.wireBits (r : CollRecord) : Nat := if r.wire64 then 64 else 32
/-- Input bytes of a chunk (R369). -/
def CollRecord.chunkBytes (r : CollRecord) : Nat := 256 * r.cblocks
/-- Elements of a chunk. -/
def CollRecord.elems (r : CollRecord) : Nat := r.chunkBytes / r.inBytes
/-- Bytes of an output element (R370). -/
def CollRecord.outBytes (r : CollRecord) : Nat := if r.outfmt ≤ 1 then 4 else 2
/-- Result bytes of a chunk (R370). -/
def CollRecord.resultBytes (r : CollRecord) : Nat := r.elems * r.outBytes
/-- Member-table index of a chunk's owner (R370). -/
def CollRecord.owner (r : CollRecord) (c : Nat) : Nat := if r.kind = 3 then 0 else if r.kind = 2 then c else c % r.n
/-- Bytes of a close record (R377). -/
def CollRecord.closeBytes (r : CollRecord) : Nat := cdiv (64 + 8 * cdiv r.n 64) 64 * 64
/-- The primary that a member stands for: itself, or the primary it backs. -/
def CollRecord.primaryOf (r : CollRecord) (j : Nat) : Option Nat :=
  if j < r.n then some j else (r.pairs.find? fun p => p.2 == j).map (·.1)
/-- The backup of a primary. -/
def CollRecord.backupOf (r : CollRecord) (j : Nat) : Option Nat := (r.pairs.find? fun p => p.1 == j).map (·.2)
/-- System module of a member. -/
def CollRecord.moduleOf (r : CollRecord) (j : Nat) : Nat := r.members[j]?.getD 0

/-- The 64 bytes of a record as fields. -/
def collRecordOf (v : Nat) : CollRecord :=
  { kind := bits v 19 16, wire64 := bit v 20, infmt := bits v 23 21, anchor := signed 8 (bits v 31 24), outfmt := bits v 36 32
    gamma := bits v 63 48, n := bits v 80 64, q := bits v 112 96, chunks := bits v 144 128, cblocks := bits v 176 160
    timer := bits v 223 192, nbackup := bits v 240 224, members := [], pairs := [], result := w64 (bits v 447 384)
    closerec := w64 (bits v 511 448) }

/-- A record's own bytes break R369, R370 or R371. -/
def collRecordBad (v : Nat) : Bool :=
  let r := collRecordOf v
  bits v 15 0 != 0x4C43 || bits v 47 37 != 0 || bits v 95 81 != 0 || bits v 127 113 != 0 || bits v 159 145 != 0
    || bits v 191 177 != 0 || bits v 255 241 != 0 || decide (3 < r.kind) || decide (2 < r.infmt) || decide (3 < r.outfmt)
    || (r.infmt == 1 && !r.wire64) || r.n == 0 || decide (65536 < r.n) || r.q == 0 || decide (r.n < r.q)
    || r.chunks == 0 || decide (65536 < r.chunks) || r.cblocks == 0 || decide (65536 < r.cblocks) || decide (r.n < r.nbackup)
    || (r.nbackup == 0 && bits v 383 320 != 0) || bits v 383 320 % 8 != 0 || bits v 319 256 % 4 != 0
    || r.closerec.toNat % 64 != 0 || r.result.toNat % 256 != 0
    || (r.kind == 2 && (r.chunks != r.n || r.gamma != 0)) || (r.kind == 3 && (r.q != 1 || r.gamma != 0))

/-- A pairing table breaks R369. -/
def pairsBad (r : CollRecord) (entries : List Nat) : Bool :=
  (entries.any fun e => bits e 31 17 != 0 || bits e 63 49 != 0 || decide (r.n ≤ bits e 16 0) || decide (bits e 48 32 < r.n)
    || decide (r.total ≤ bits e 48 32))
    || (dedup (entries.map fun e => bits e 16 0)).length != entries.length
    || (dedup (entries.map fun e => bits e 48 32)).length != entries.length

/-- n numbers of k bytes each. -/
def numbersOf (v k : Nat) : Nat → List Nat
  | 0 => []
  | n + 1 => v % 2 ^ (8 * k) :: numbersOf (v / 2 ^ (8 * k)) k n

/-- The record of `coll.open` lies in near memory, or its address leads nowhere yet (R369). -/
def State.recordNear (s : State) (va : Nat) : Bool :=
  match s.locate s.curTeam.slot s.curTeam.alloc .read va 8 with
  | .error _ => true
  | .ok (.phys (.near _)) => true
  | .ok (.ring npa off) => (match s.readFrame npa off with | .ok (.far _ _) => false | _ => true)
  | .ok _ => false

/-- The uniform word goes on with n bytes read at an address, or stops as `sld` stops (R159). -/
def State.withSpan (s : State) (va n : Nat) (k : State → Nat → State) : State :=
  match s.readSpan va n n with
  | (s, .ok v) => k s v
  | (s, .error e) => s.stopRead e .read

/-- COLL_OPEN (R179, R371). DESIGN CHOICE: it takes the free handle of the lowest number (log 54). -/
def execCollOpen (d a : BitVec 6) (st : BitVec 2) (s : State) : Result :=
  gate (.collOpen d a st) s fun s =>
    let A := (s.getS a).toNat
    if A % 64 ≠ 0 then s.illegal true 3
    else if !s.recordNear A then s.illegal true 3
    else s.withRecord A 8 fun s v =>
      if collRecordBad v then s.illegal true 3
      else
        let r := collRecordOf v
        s.withSpan (bits v 319 256) (4 * r.total) fun s mt =>
          s.withSpan (bits v 383 320) (8 * r.nbackup) fun s pt =>
            let members := numbersOf mt 4 r.total
            let entries := numbersOf pt 8 r.nbackup
            let me := members.findIdx? (· == s.systemModule)
            if (members.any fun m => decide (2 ^ 17 ≤ m)) || pairsBad r entries then s.illegal true 3
            else match me with
              | none => s.illegal true 3
              | some me => match (List.range 256).find? fun h => !(s.coll h).isOpen with
                | none => s.putS d (-1)
                | some h =>
                  (s.setColl h { isOpen := true, gen := s.free, slot := s.curTeam.slot, asid := s.curTeam.asid, address := w64 A, me := me
                                 record := { r with members := members
                                                    pairs := entries.map fun e => (bits e 16 0, bits e 48 32) } }).putS d (w64 h)

/-- The handle that a collective word names, when the issuing context has opened it (R179). DEDUCED: one that another context has
opened is an unopened one to this context (log 54). -/
def State.openHandle (s : State) (asid : BitVec 16) (h : Nat) : Option Coll :=
  let c := s.coll h
  if c.isOpen && c.asid == asid then some c else none

/-- A step more than one beyond the newest close is reserved (R179, R371). -/
def Coll.tooFar (c : Coll) (step : Nat) : Bool :=
  match c.newest with
  | none => false
  | some n => decide (n.toNat + 1 < step)

/-! ### Contributions (R372) -/

/-- One element as a count of 2^a with its nan, inexact and sat flags; none is a NaN (R372). -/
def CollRecord.count (r : CollRecord) (x : Nat) : Option Int × Bool × Bool × Bool :=
  let w := r.wireBits
  if r.infmt = 2 then (if x = 2 ^ (w - 1) then none else some (signed w x), false, false, false)
  else
    let v := if r.infmt = 0 then F32.read x else F64.read x
    if v.isNan then (none, true, false, false)
    else
      let e := roundToAnchor v r.anchor
      let c := clampAF w e.1
      (some c, false, e.2, decide (c ≠ e.1))

/-- The contribution of one member to a chunk from its input bytes v. -/
def CollRecord.contribute (r : CollRecord) (me : Nat) (step : W32) (rise v : Nat) : Contribution :=
  let es := (numbersOf v r.inBytes r.elems).map r.count
  { step := step, shares := [{ member := me, counts := es.map (·.1), nan := es.any (·.2.1), inexact := es.any (·.2.2.1)
                               sat := es.any (·.2.2.2), empty := false, rise := rise }] }

/-- The contribution that adds nothing (R370). -/
def emptyContribution (me : Nat) (step : W32) (rise : Nat) : Contribution :=
  { step := step, shares := [{ member := me, counts := [], sat := false, inexact := false, nan := false, empty := true, rise := rise }] }

/-- The shares that this member has put. -/
def Coll.ownShares (c : Coll) (k : Contribution) : List Share := k.shares.filter fun x => x.member == c.me

/-- Input bytes that a member's put covers (R370). -/
def CollRecord.putBytes (r : CollRecord) : Nat := if r.kind = 2 then r.chunkBytes else r.chunks * r.chunkBytes

/-- A chunk at its owner. -/
def Coll.chunk (c : Coll) (i : Nat) : ChunkState := FMap.get {} c.owned i

/-- The step that a chunk's owner has open at least, as far as this device knows: its own chunk's; else the one after the newest close
that has come, or before the first the least step that the device has put (R373). -/
def Coll.openKnown (c : Coll) (here : Bool) (i : Nat) : Option Nat :=
  let least := (c.puts.map (·.toNat)).foldl (fun (b : Option Nat) n => match b with | none => some n | some m => some (Nat.min m n)) none
  let closed := ((c.closes.filterMap (·.2)).filter fun k => k.chunk == i).map fun k => k.step.toNat + 1
  if here then (c.chunk i).open_.map (·.toNat)
  else match closed with
    | [] => least
    | n :: ns => some (ns.foldl Nat.max n)

/-- A contribution to chunk c leaves the engine: to the chunk's owner, or above 64 members to its own port adder (R378, R427). -/
def State.emitContribution (s : State) (h c : Nat) (k : Contribution) : State :=
  let C := s.coll h
  if 64 < C.record.total then s.later (.partialArrival h c k)
  else
    let m := C.record.moduleOf (C.record.owner c)
    if m = s.systemModule then s.later (.collContributionArrival h c k)
    else if s.reaches m then
      s.sendUnit m true (((C.ownShares k).map (·.rise)).headD s.tide.rises) (.contribution m C.address c k) (some C.asid)
    else s

/-- A contribution two or more steps ahead of its chunk's open step waits in the engine; any other leaves (R373). -/
def State.sendContribution (s : State) (h c : Nat) (k : Contribution) : State :=
  let C := s.coll h
  let here := C.record.moduleOf (C.record.owner c) == s.systemModule
  match C.openKnown here c with
  | none => s.emitContribution h c k
  | some o => if o + 2 ≤ k.step.toNat then s.setColl h { C with engine := C.engine ++ [(c, k)] } else s.emitContribution h c k

/-- Contributions to a chunk that wait in the engine are looked at again (R373). -/
def State.wakeEngine (s : State) (h c : Nat) : State :=
  let C := s.coll h
  let mine := C.engine.filter fun e => e.1 == c
  mine.foldl (fun (s : State) e => s.sendContribution h c e.2) (s.setColl h { C with engine := C.engine.filter fun e => e.1 != c })

/-- The device has put a step (R381). -/
def Coll.put (c : Coll) (step : W32) : Coll := if c.puts.contains step then c else { c with puts := c.puts ++ [step] }

/-- A put whose bytes v have been read: one contribution to every chunk (R370, R372). -/
def State.putContribution (s : State) (h : Nat) (step : W32) (rise v : Nat) : State :=
  let C := s.coll h
  let r := C.record
  (List.range r.chunks).foldl (fun s c =>
    let k := if r.kind = 2 then
        (if r.primaryOf C.me = some c then r.contribute C.me step rise v else emptyContribution C.me step rise)
      else r.contribute C.me step rise (v / 2 ^ (8 * r.chunkBytes * c) % 2 ^ (8 * r.chunkBytes))
    s.sendContribution h c k) (s.setColl h (C.put step))

/-- Whether a put may be made: the handle open for the context, the step near enough, and in a broadcast only by member 0
(R179, R370). -/
def State.mayPut (s : State) (asid : BitVec 16) (h step : Nat) : Bool :=
  match s.openHandle asid h with
  | none => false
  | some c => !c.tooFar step && (c.record.kind != 3 || c.me == 0)

/-! ### The port adders (R427, R428) -/

/-- One partial of two of one chunk and step; it keeps the contributions apart, so that the owner can class each (R378, log 63). -/
def addParts (a b : Contribution) : Contribution := { a with shares := a.shares ++ b.shares }

/-- Bits of the field in which an element of a partial travels (R428). -/
def CollRecord.fieldBits (r : CollRecord) : Nat := if r.wire64 then 96 else 64

/-- The elements of a partial in their fields, sign-extended, each with its NaN bit (R428). -/
def CollRecord.fieldsOf (r : CollRecord) (k : Contribution) : List (Nat × Bool) :=
  (List.range r.elems).map fun i =>
    let xs := (k.shares.filter fun x => !x.empty).map fun x => (x.counts[i]?).getD (some 0)
    ((BitVec.ofInt r.fieldBits (xs.map (·.getD 0)).sum).toNat, xs.any (·.isNone))

/-- A partial goes on to the parent's rank, or into the owner's engine at rank 0 (R427). -/
def State.forwardPartial (s : State) (h c : Nat) (k : Contribution) : State :=
  let C := s.coll h
  let M := C.record.total
  let o := C.record.owner c
  let r := (C.me + M - o) % M
  if r = 0 then s.later (.collContributionArrival h c k)
  else
    let m := C.record.moduleOf (((r - 1) / s.ctrl.arity.toNat + o) % M)
    if s.reaches m then
      s.sendUnit m true (((C.ownShares k).map (·.rise)).headD s.tide.rises) (.partialSum m C.address c k C.record.fieldBits (C.record.fieldsOf k))
        (some C.asid)
    else s

/-- PARTIAL_ARRIVAL (R428): it joins the combining window of its chunk and step; one that meets the end of that window joins the next
(R429). -/
def execPartialArrival (handle chunk : Nat) (k : Contribution) (s : State) : Result :=
  event s fun s =>
    if !(s.coll handle).isOpen then s
    else if s.ctrl.window = 0 then s.forwardPartial handle chunk k
    else
      let same := fun (w : Combine) => w.handle == handle && w.chunk == chunk && w.step == k.step
      let put := fun (s : State) (ws : List Combine) => { s with fab := { s.fab with combining := ws } }
      let fresh : Combine := { handle := handle, chunk := chunk, step := k.step, parts := k, since := s.now }
      match s.fab.combining.find? same with
      | none => put s (s.fab.combining ++ [fresh])
      | some w =>
        if w.since + s.ctrl.window.toNat ≤ s.now then
          (put s (s.fab.combining.map fun x => if same x then fresh else x)).forwardPartial handle chunk w.parts
        else put s (s.fab.combining.map fun x => if same x then { x with parts := addParts x.parts k } else x)

/-- COMBINE_WINDOW_EXPIRY (R428): one partial goes forward. -/
def execCombineWindowExpiry (handle chunk : Nat) (step : W32) (s : State) : Result :=
  event s fun s =>
    let same := fun (w : Combine) => w.handle == handle && w.chunk == chunk && w.step == step
    match s.fab.combining.find? same with
    | none => s
    | some w =>
      if w.since + s.ctrl.window.toNat ≤ s.now then
        State.forwardPartial { s with fab := { s.fab with combining := s.fab.combining.erase w } } handle chunk w.parts
      else s

/-! ### The owner (R373 to R376) -/

/-- The members' shares in some contributions. -/
def sharesOf (ks : List Contribution) : List Share := ks.flatMap (·.shares)

/-- Primaries covered by on-time contributions, ascending (R374). -/
def CollRecord.covered (r : CollRecord) (ks : List Contribution) : List Nat :=
  (List.range r.n).filter fun j => (sharesOf ks).any fun x => r.primaryOf x.member == some j

/-- The shares that a list of pairs uses: of each pair the primary's, else the backup's (R375, R378). -/
def CollRecord.chosen (r : CollRecord) (ks : List Contribution) (js : List Nat) : List Share :=
  js.filterMap fun j =>
    match (sharesOf ks).find? fun x => x.member == j with
    | some x => some x
    | none => (r.backupOf j).bind fun b => (sharesOf ks).find? fun x => x.member == b

/-- Pairs whose late contributions are folded: those not covered at the close of their own step (R375). -/
def CollRecord.folding (r : CollRecord) (x : ChunkState) : List Nat :=
  (r.covered x.late).filter fun j => !x.lastCovered.contains j

/-- An arrival two or more steps ahead of the open step, which stays in its sender's engine (R373). -/
def ChunkState.tooEarly (x : ChunkState) (k : Contribution) : Bool :=
  match x.open_ with
  | none => false
  | some o => decide (o.toNat + 2 ≤ k.step.toNat)

/-- The chunk classes an arrival of step t against its open step o (R373). -/
def ChunkState.classify (x : ChunkState) (k : Contribution) (now : Nat) : ChunkState :=
  match x.open_ with
  | none => { x with open_ := some k.step, onTime := [k], since := some now }
  | some o =>
    let t := k.step.toNat
    let o := o.toNat
    if t = o then { x with onTime := x.onTime ++ [k], since := x.since.or (some now) }
    else if t = o + 1 then { x with early := x.early ++ [k] }
    else if o + 2 ≤ t then { x with waiting := x.waiting ++ [k] }
    else if t + 1 = o then { x with late := x.late ++ [k] }
    else { x with drops := x.drops + k.shares.length }

/-- Before the first close of a chunk, the open step is the least step received: what has been held is classed again (R373). -/
def ChunkState.receive (x : ChunkState) (k : Contribution) (now : Nat) (closed : Bool) : ChunkState :=
  match x.open_ with
  | some o =>
    if !closed && k.step.toNat < o.toNat then
      (x.onTime ++ x.early ++ x.waiting).foldl (fun (x : ChunkState) k => x.classify k now)
        ({ open_ := some k.step, onTime := [k], since := some now })
    else x.classify k now
  | none => x.classify k now

/-- The chunk after the close of its open step, with the primaries covered there. -/
def ChunkState.advance (x : ChunkState) (o : W32) (covered : List Nat) (now : Nat) : ChunkState :=
  let next : ChunkState := { open_ := some (o + 1), onTime := x.early, lastCovered := covered
                             since := if x.early.isEmpty then none else some now }
  x.waiting.foldl (fun y k => y.classify k now) next

/-- One element of a result (R376). -/
def CollRecord.resultElem (r : CollRecord) (used folded : List Share) (d16 i : Nat) : Nat :=
  let f := (fmtFloat r.outfmt).getD F32
  let widen := fun v => if r.outfmt = 1 then v * 2 ^ 13 else v
  let at_ := fun (k : Share) => if k.empty then some (0 : Int) else (k.counts[i]?).getD (some 0)
  if (used ++ folded).any fun k => (at_ k).isNone then widen f.nanBits
  else
    let sum := fun (ks : List Share) => (ks.map fun k => (at_ k).getD 0).sum
    let T := 65536 * sum used + (r.gamma : Int) * sum folded
    if T = 0 then 0
    else if r.kind ≤ 1 then
      let m := T.natAbs * r.n * 65536 * 2 ^ 130
      widen (f.pack 0 (decide (T < 0)) { n := m / d16, e := r.anchor - 16 - 130, more := m % d16 != 0 }).1
    else widen (f.pack 0 (decide (T < 0)) { n := T.natAbs, e := r.anchor - 16 }).1

/-- Sends a close to every member, with its result to the receivers (R370, R377). -/
def State.sendCloses (s : State) (h : Nat) (k : ChunkClose) : State :=
  let C := s.coll h
  (List.range C.record.total).foldl (fun s j =>
    let k := if C.record.kind = 1 ∧ j ≠ C.record.owner k.chunk then { k with result := [] } else k
    let m := C.record.moduleOf j
    if m = s.systemModule then s.later (.collCloseReceive h k) else s.sendTo m true (.close m C.address k)) s

/-- Closes the open step of a chunk at its owner and forms its result (R374 to R376). -/
def State.closeChunk (s : State) (h c : Nat) (byTimer : Bool) : State :=
  let C := s.coll h
  let r := C.record
  let x := C.chunk c
  match x.open_ with
  | none => s
  | some o =>
    let cov := r.covered x.onTime
    let used := r.chosen x.onTime cov
    let folds := r.folding x
    let folded := r.chosen x.late folds
    let d16 := 65536 * cov.length + r.gamma * folds.length
    let all := used ++ folded
    let k : ChunkClose :=
      { chunk := c, step := o, covered := cov.length, folded := folds.length, drops := Nat.min 65535 x.drops, byTimer := byTimer
        backupUsed := cov.any fun j => !((sharesOf x.onTime).any fun k => k.member == j), d16 := d16
        sat := all.any (·.sat), inexact := all.any (·.inexact), nan := all.any (·.nan)
        held := (sharesOf x.early).length, bitmap := cov
        result := (List.range r.elems).map (r.resultElem used folded d16) }
    let s := { s with cyc := { s.cyc with closed := (h, c) :: s.cyc.closed } }
    (((s.setColl h { C with owned := FMap.set {} C.owned c (x.advance o cov s.now) }).sendCloses h k).wakeEngine h c)

/-- Closes a chunk as long as its open step has its quorum (R374). -/
def State.closeAtQuorum (s : State) (h c : Nat) : Nat → State
  | 0 => s
  | n + 1 =>
    let C := s.coll h
    if C.record.q ≤ (C.record.covered (C.chunk c).onTime).length then (s.closeChunk h c false).closeAtQuorum h c n else s

/-- An arrival at a chunk. -/
def arrivesAt (h c : Nat) (i : Instr) : Bool :=
  match i with
  | .collContributionArrival g d _ => g == h && d == c
  | _ => false

/-- Another arrival at a chunk follows in the same cycle, which is classed before the chunk closes (R374). -/
def State.moreArrivals (s : State) (h c : Nat) : Bool :=
  (s.agenda.takeWhile fun t => match t with | .event (.collContributionArrival _ _ _) => true | _ => false).any fun t =>
    match t with | .event i => arrivesAt h c i | _ => false

/-- A contribution of another module that its chunk's owner here does not accept: two or more steps ahead of the open step, it stays in
its sender's engine and comes again (R373). -/
def State.refuses (s : State) (i : Instr) : Bool :=
  match i with
  | .collContributionArrival h c k =>
    let C := s.coll h
    C.isOpen && C.record.moduleOf (C.record.owner c) == s.systemModule && decide (c < C.record.chunks) && (C.chunk c).tooEarly k
      && decide (C.record.total ≤ 64) && (C.ownShares k).isEmpty
  | _ => false

/-- COLL_CONTRIBUTION_ARRIVAL (R373, R374): the chunk closes at its quorum once all that arrive in the cycle are classed. What comes two or
more steps ahead of the open step is not accepted: it stays in its sender's engine, which is this device's for what its own engine or
adder has sent here, and otherwise the one that keeps it unacknowledged (R423). -/
def execCollContributionArrival (handle chunk : Nat) (k : Contribution) (s : State) : Result :=
  event s fun s =>
    let C := s.coll handle
    if !C.isOpen || C.record.moduleOf (C.record.owner chunk) != s.systemModule || decide (C.record.chunks ≤ chunk) then s
    else
      let x := C.chunk chunk
      if x.tooEarly k then
        (if 64 < C.record.total || !(C.ownShares k).isEmpty then s.setColl handle { C with engine := C.engine ++ [(chunk, k)] } else s)
      else
      let x := x.receive k s.now (!x.lastCovered.isEmpty)
      let s := s.setColl handle { C with owned := FMap.set {} C.owned chunk x }
      if s.moreArrivals handle chunk then s else s.closeAtQuorum handle chunk (x.early.length + x.waiting.length + 1)

/-- COLL_TIMER_CLOSE (R374). -/
def execCollTimerClose (handle chunk : Nat) (s : State) : Result :=
  event s fun s =>
    let C := s.coll handle
    match (C.chunk chunk).since with
    | some t =>
      if C.isOpen ∧ C.record.timer ≠ 0 ∧ t + 1024 * C.record.timer ≤ s.now then
        (s.closeChunk handle chunk true).closeAtQuorum handle chunk ((C.chunk chunk).waiting.length + 2)
      else s
    | none => s

/-! ### The gauge (R380 to R382) -/

/-- Eight rounds of CRC-64 over the ECMA-182 polynomial, unreflected (R380). -/
def crcAStep (c : W64) : Nat → W64
  | 0 => c
  | n + 1 => crcAStep (if c.getLsbD 63 then (c <<< 1) ^^^ 0x42F0E1EBA9EA3693#64 else c <<< 1) n

/-- CrcA of the bytes of a page (R380). -/
def crcA (pg : List W8) : W64 := pg.foldl (fun (c : W64) b => crcAStep (c ^^^ ((b.setWidth 64 : W64) <<< 56)) 8) 0

/-- Eight rounds of CRC-64 over the ISO 3309 polynomial, reflected (R380). -/
def crcBStep (c : W64) : Nat → W64
  | 0 => c
  | n + 1 => crcBStep (if c.getLsbD 0 then (c >>> 1) ^^^ 0xD800000000000000#64 else c >>> 1) n

/-- CrcB of the bytes of a page (R380). -/
def crcB (pg : List W8) : W64 := pg.foldl (fun (c : W64) b => crcBStep (c ^^^ b.setWidth 64) 8) (-1) ^^^ (-1)

/-- The digest of pages in list order (R380). -/
def digest (pages : List (List W8)) : BitVec 128 :=
  pages.zipIdx.foldl (fun g p => g ^^^ ((crcA p.1 ++ crcB p.1).rotateLeft (p.2 % 128))) 0

/-- Pages of a region list, as addresses. -/
def regionPages (rs : List (W64 × W64)) : List Nat :=
  rs.flatMap fun r => (List.range (r.2.toNat / 4096)).map fun i => (r.1.toNat + 4096 * i) % 2 ^ 64

/-- The pages read under a context's translation; one that cannot be read counts as zeros and is logged (R381). -/
def State.readPages (s : State) (slot : Nat) : List Nat → State × List (List W8) × Bool
  | [] => (s, [], false)
  | a :: rest =>
    let r : State × List W8 × Bool := match s.readAs slot a 4096 4096 with
      | .ok v => (s, bytesOf v 4096, false)
      | .error _ => (s.logViolation a (violationWord (s.ctx slot).asid 15 0 s.module 0 0 0 false) 0, bytesOf 0 4096, true)
    let q := r.1.readPages slot rest
    (q.1, r.2.1 :: q.2.1, r.2.2 || q.2.2)

/-- A write of the collective engine for the close of a step of a handle: the first failing address of the step is kept and logged,
once (R462). -/
def State.engineWrite (s : State) (h : Nat) (step : W32) (writes : List (Nat × Nat × Nat)) : State :=
  let slot := (s.coll h).slot
  let r := writes.foldl (fun (r : State × Option Nat) w =>
    let q := r.1.writeAs slot w.1 w.2.1 w.2.2 w.2.1
    (q.1, r.2.or q.2)) (s, none)
  match r.2 with
  | none => r.1
  | some a =>
    let C := r.1.coll h
    if C.failed.any fun f => f.1 == step then r.1
    else (r.1.logViolation a (violationWord C.asid 15 1 r.1.module 0 0 0 false) 0).setColl h
      { C with failed := C.failed ++ [(step, w64 a)] }

/-- How the digests of a set fall out: the winner, the size of the largest group, and the members that differ (R382). -/
def gaugeVerdict (ds : List (Nat × BitVec 128)) : Option (BitVec 128) × Nat × List Nat :=
  let size := fun (d : BitVec 128) => (ds.filter fun e => e.2 == d).length
  match ds.find? fun e => decide (ds.length < 2 * size e.2) with
  | some e => (some e.2, size e.2, (ds.filter fun f => f.2 != e.2).map (·.1))
  | none => (none, (ds.map fun e => size e.2).foldl Nat.max 0, [])

/-- The least of some numbers. -/
def leastOf (xs : List Nat) : Option Nat := xs.foldl (fun b x => match b with | none => some x | some y => some (Nat.min x y)) none

/-- The 64 bytes of a gauge record (R382). DEDUCED: of a member outside the set, which receives no verdict, the verdict stays pending
(log 61). -/
def gaugeRecord (g : GaugeStep) (me : Nat) : Nat :=
  let own := (g.own.getD 0).toNat
  let v := gaugeVerdict ((me, g.own.getD 0) :: g.got)
  let code := if !g.decided then 3 else match v.1 with
    | none => 2
    | some w => if some w = g.own then 0 else 1
  let win := if g.decided then (v.1.getD 0).toNat else 0
  let agree := if g.decided then v.2.1 else 0
  let low := if g.decided then (leastOf v.2.2).getD 0xFFFFFFFF else 0xFFFFFFFF
  let div := if g.decided then v.2.2.length else 0
  own + 2 ^ 128 * win + 2 ^ 256 * g.step.toNat + 2 ^ 320 * (g.set.length + 2 ^ 32 * agree) + 2 ^ 384 * (code + 2 ^ 32 * low)
    + 2 ^ 448 * (div + 2 ^ 63 * b2n g.unread)

/-- Writes the gauge record of a step (R382). -/
def State.writeGauge (s : State) (h : Nat) (g : GaugeStep) : State :=
  let C := s.coll h
  s.engineWrite h g.step [(C.record.closerec.toNat + C.record.closeBytes * C.record.chunks, 64, gaugeRecord g C.me)]

/-- The entry of a step in the gauge list. -/
def Coll.gaugeOf (c : Coll) (step : W32) : GaugeStep :=
  (c.gauge.find? fun g => g.step == step).getD { step := step, own := none, unread := false, set := [], got := [], decided := false }

/-- Puts a step's entry into the gauge list. -/
def Coll.putGauge (c : Coll) (g : GaugeStep) : Coll :=
  { c with gauge := (c.gauge.filter fun e => e.step != g.step) ++ [g] }

/-- Decides a step's verdict once every digest of the set has come (R382). -/
def State.decideGauge (s : State) (h : Nat) (step : W32) : State :=
  let C := s.coll h
  let g := C.gaugeOf step
  match g.own with
  | none => s
  | some own =>
    if g.decided || !g.set.contains C.me || !(g.set.all fun j => j == C.me || g.got.any fun e => e.1 == j) then s
    else
      let g := { g with got := g.got.filter fun e => g.set.contains e.1, decided := true }
      let s := (s.setColl h (C.putGauge g)).writeGauge h g
      match (gaugeVerdict ((C.me, own) :: g.got)).1 with
      | none => { s with tide := { s.tide with verdicts := s.tide.verdicts ++ [(C.asid, true)] } }
      | some w => if w = own then s else { s with tide := { s.tide with verdicts := s.tide.verdicts ++ [(C.asid, false)] } }

/-- The region list that applies to a step (R381). -/
def Coll.regionsAt (c : Coll) (step : W32) : List (W64 × W64) :=
  ((c.regions.find? fun e => !e.1.contains step).map (·.2)).getD []

/-- A receiver digests its regions once the results of a step are written; a member of the step's set sends its digest to the others
(R381, R382). -/
def State.gaugeStep (s : State) (h : Nat) (step : W32) (sets : List (List Nat)) : State :=
  let C := s.coll h
  let rs := C.regionsAt step
  if rs.isEmpty || C.record.kind == 1 then s
  else
    let set := (List.range C.record.total).filter fun j => sets.all fun b => b.contains j
    let r := s.readPages C.slot (regionPages rs)
    let d := digest r.2.1
    let g := { C.gaugeOf step with own := some d, unread := r.2.2, set := set }
    let s := (r.1.setColl h (C.putGauge g)).writeGauge h g
    if !set.contains C.me then s
    else
      let s := set.foldl (fun s j =>
        let m := C.record.moduleOf j
        if j = C.me then s else s.sendTo m false (.digest m C.address step C.me d)) s
      s.decideGauge h step

/-- GAUGE_DIGEST_RECEIVE (R382). -/
def execGaugeDigestReceive (handle : Nat) (step : W32) (member : Nat) (digest : BitVec 128) (s : State) : Result :=
  event s fun s =>
    let C := s.coll handle
    if !C.isOpen then s
    else
      let g := C.gaugeOf step
      if g.got.any fun e => e.1 == member then s
      else (s.setColl handle (C.putGauge { g with got := g.got ++ [(member, digest)] })).decideGauge handle step

/-- GAUGE (R181, R381). DEDUCED: a list whose address is not a multiple of 8 raises the misaligned-access trap, as the `sld` of its words
would (R125, R159, log 77). -/
def execGauge (a b : BitVec 6) (st : BitVec 2) (s : State) : Result :=
  gate (.gauge a b st) s fun s =>
    let A := (s.getS a).toNat
    let x := (s.getS b).toNat
    let n := bits x 12 8
    let h := x % 256
    match s.openHandle s.curTeam.asid h with
    | none => s.illegal true 3
    | some C =>
      if 16 < n ∨ (n ≠ 0 ∧ C.record.kind = 1) then s.illegal true 3
      else if n ≠ 0 ∧ A % 8 ≠ 0 then s.trapUniform { kind := 4, info := A }
      else s.withRecord A (2 * n) fun s v =>
        let ws := wordsOf v (2 * n)
        let rs := (List.range n).map fun i => ((ws[2 * i]?).getD 0, (ws[2 * i + 1]?).getD 0)
        if rs.any fun r => r.1.toNat % 4096 != 0 || r.2.toNat % 4096 != 0 then s.illegal true 3
        else
          let C := s.coll h
          (s.setColl h { C with regions := (C.puts, rs) :: C.regions }).advance

/-! ### Members (R377) -/

/-- The close word of R179 of one chunk. -/
def closeWordOf (k : ChunkClose) : Nat :=
  2 ^ 44 * k.covered + 2 ^ 24 * k.folded + 2 ^ 8 * k.drops + 0x80 + 0x40 * b2n k.byTimer + 0x20 * b2n k.backupUsed

/-- The bytes of a close record (R377). -/
def closeRecordOf (k : ChunkClose) : Nat :=
  k.step.toNat + 2 ^ 32 * k.covered + 2 ^ 64 * closeWordOf k + 2 ^ 128 * (k.d16 % 2 ^ 48)
    + 2 ^ 192 * (b2n k.sat + 2 * b2n k.inexact + 4 * b2n k.nan) + 2 ^ 256 * (k.held % 2 ^ 20)
    + 2 ^ 512 * (k.bitmap.map fun j => 2 ^ j).sum

/-- A packed list of elements of k bytes. -/
def packBytes (k : Nat) (es : List Nat) : Nat := es.foldr (fun e acc => e + 2 ^ (8 * k) * acc) 0

/-- Key of a received close. -/
def closeKey (chunk : Nat) (step : W32) : Nat := 2 ^ 32 * chunk + step.toNat

/-- Contributions to a chunk that its owner has not accepted go again after a close (R373). -/
def State.sendWaiting (s : State) (asid : BitVec 16) (record : W64) (chunk : Nat) : State :=
  s.sendAgain fun u => u.asid == some asid && (match u.packet with
    | .contribution _ r c _ | .partialSum _ r c _ _ _ => r == record && c == chunk
    | _ => false)

/-- COLL_CLOSE_RECEIVE (R377, R462): the member writes the result and the close record. -/
def execCollCloseReceive (handle : Nat) (k : ChunkClose) (s : State) : Result :=
  event s fun s =>
    let C := s.coll handle
    let r := C.record
    if !C.isOpen || decide (r.chunks ≤ k.chunk) then s
    else
      let place := if r.kind = 1 then k.chunk / r.n else k.chunk
      let result := if k.result.isEmpty then []
        else [(r.result.toNat + r.resultBytes * place, r.resultBytes, packBytes r.outBytes k.result)]
      let s := s.engineWrite handle k.step (result ++ [(r.closerec.toNat + r.closeBytes * k.chunk, r.closeBytes, closeRecordOf k)])
      let C := s.coll handle
      let C := { C with
        closes := FMap.set none C.closes (closeKey k.chunk k.step) (some { k with result := [] })
        newest := some (match C.newest with | none => k.step | some n => if n < k.step then k.step else n) }
      let s := s.setColl handle C
      let got := (List.range r.chunks).map fun c => FMap.get none C.closes (closeKey c k.step)
      State.sendWaiting (State.wakeEngine
        (if got.all Option.isSome then s.gaugeStep handle k.step (got.filterMap fun g => g.map (·.bitmap)) else s) handle k.chunk)
        C.asid C.address k.chunk

/-- The chunks whose closes `coll.wait` awaits (R377). -/
def Coll.awaited (c : Coll) : List Nat :=
  if c.record.kind ≠ 1 then List.range c.record.chunks
  else
    let own := (List.range c.record.chunks).filter fun i => c.record.owner i == c.me
    if own.isEmpty then [0] else own

/-- The close word of a step when every awaited chunk has closed (R377). -/
def Coll.closeWord (c : Coll) (step : W32) : Option Nat :=
  let ks := c.awaited.map fun i => FMap.get none c.closes (closeKey i step)
  if !ks.all Option.isSome then none
  else
    let ks := ks.filterMap id
    match ks with
    | [] => none
    | k :: _ =>
      if c.record.kind = 1 then some (closeWordOf k)
      else some (2 ^ 44 * (leastOf (ks.map (·.covered))).getD 0 + 2 ^ 24 * (leastOf (ks.map (·.folded))).getD 0
        + 2 ^ 8 * Nat.min 65535 (ks.map (·.drops)).sum + 0x80 + 0x40 * b2n (ks.any (·.byTimer)) + 0x20 * b2n (ks.any (·.backupUsed)))

/-- What `coll.stat` returns before the close: the counts of the lowest awaited chunk not yet closed, at its owner (R179). -/
def Coll.countsSoFar (c : Coll) (step : W32) : Nat :=
  match c.awaited.find? fun i => (FMap.get none c.closes (closeKey i step)).isNone with
  | none => 0
  | some i =>
    if c.record.owner i ≠ c.me then 0
    else
      let x := c.chunk i
      let of := fun (ks : List Contribution) => (c.record.covered (ks.filter fun k => k.step == step)).length
      let c0 := of (x.onTime ++ x.early)
      if x.open_ = some step then 2 ^ 44 * c0 + 2 ^ 24 * (c.record.folding x).length + 2 ^ 8 * Nat.min 65535 x.drops
      else 2 ^ 44 * c0

/-- A collective word returns the close word of a step, or faults for a write that was not performed (R462). -/
def State.returnClose (s : State) (d : BitVec 6) (c : Coll) (step : W32) (w : Nat) : State :=
  match c.failed.find? fun f => f.1 == step with
  | some f => s.trapUniform { kind := 5, detail := 15, info := f.2.toNat }
  | none => s.putS d (w64 w)

/-- `coll.wait` looks at its close. -/
def State.awaitClose (s : State) (d : BitVec 6) (h : Nat) (step : W32) : State :=
  match s.openHandle s.curTeam.asid h with
  | none => s.illegal true 3
  | some C => match C.closeWord step with
    | some w => s.returnClose d C step w
    | none => s.hold (.coll h step)

/-- COLL_WAIT (R179, R377). -/
def execCollWait (d a : BitVec 6) (st : BitVec 2) (s : State) : Result :=
  gate (.collWait d a st) s fun s =>
    match s.curWait with
    | .coll h step => s.awaitClose d h step
    | _ =>
      let x := (s.getS a).toNat
      let h := x % 256
      match s.openHandle s.curTeam.asid h with
      | none => s.illegal true 3
      | some _ => s.awaitClose d h (w32 (x / 2 ^ 32))

/-- COLL_STAT (R179). -/
def execCollStat (d a : BitVec 6) (st : BitVec 2) (s : State) : Result :=
  gate (.collStat d a st) s fun s =>
    let x := (s.getS a).toNat
    match s.openHandle s.curTeam.asid (x % 256) with
    | none => s.illegal true 3
    | some C =>
      let step := w32 (x / 2 ^ 32)
      match C.closeWord step with
      | some w => s.returnClose d C step w
      | none => s.putS d (w64 (C.countsSoFar step))

end Sys2Proof.Machine
end

