-- ==== Sys2Proof/Machine/Engines.lean ====
section
/-! DEFINITION. Engine jobs and the task unit (R168 to R172, R254 to R256, R284, R302 to R313): footprints and edges,
submission, jobs unit by unit, their parking and faults, and their completion. -/

namespace Sys2Proof.Machine

open Sys2Proof

/-! ### Tasks and footprints -/

/-- Task entries of the device (R307). -/
def taskEntries : Nat := 4096
/-- Engines of the device: 4 on each of 8 C-dies and 8 on each of 2 quay dies (R302). -/
def engineCount : Nat := 48
/-- The party number under which a job's own peer requests are kept; no party of a team has it. -/
def jobParty : Nat := 1000

/-- Task n. -/
def State.task (s : State) (n : Nat) : Option Task := s.tasks.find? fun t => t.n == n
/-- Writes task n. -/
def State.setTask (s : State) (t : Task) : State := { s with tasks := s.tasks.map fun u => if u.n = t.n then t else u }

/-- Whether a job takes one of the task entries: a put does not (R307). -/
def Task.entry (t : Task) : Bool := decide (t.n < taskEntries)
/-- Free task entries. -/
def State.freeEntries (s : State) : Nat := taskEntries - (s.tasks.filter (·.entry)).length
/-- The lowest free number at or above a base. DESIGN CHOICE: a task takes the lowest free number of 0 to 4,095 (R172, log 55). -/
def State.freeNumber (s : State) (base : Nat) : Nat :=
  ((List.range (s.tasks.length + 1)).find? fun i => (s.task (base + i)).isNone).getD 0 + base

/-- A region by address that touches the local window is the team's local region at base − LW (R308). -/
def Region.normal (r : Region) (lw team : Nat) : Region × Int :=
  if r.team.isNone && decide (lw < r.base + r.length) && decide (r.base < lw + 2 ^ 30) then
    ({ r with team := some team }, (r.base : Int) - lw)
  else (r, r.base)

/-- Two regions overlap in a 256-byte granule, and one of them writes (R308). -/
def regionsClash (lwA teamA lwB teamB : Nat) (a b : Region) : Bool :=
  let x := a.normal lwA teamA
  let y := b.normal lwB teamB
  let last := fun (q : Region × Int) => (q.2 + q.1.length - 1) / 256
  x.1.team == y.1.team && (a.write || b.write) && decide (x.2 / 256 ≤ last y) && decide (y.2 / 256 ≤ last x)

/-- A later task waits for an earlier one of its context (R308). -/
def State.taskClash (s : State) (old new : Task) : Bool :=
  let lw := (s.ctx new.slot).localBase
  old.asid == new.asid && old.entry && old.regions.any fun a => new.regions.any fun b => regionsClash lw old.team lw new.team a b

/-- A task names the local window of a team (R313). -/
def State.namesLocal (s : State) (t : Task) (team : Nat) : Bool :=
  t.regions.any fun r => (r.normal (s.ctx t.slot).localBase t.team).1.team == some team

/-- The local window of a team that is not resident keeps a task from starting or running (R313). -/
def State.windowAway (s : State) (t : Task) : Bool := s.namesLocal t t.team && !(s.team t.team).resident

/-! ### Accesses of a job -/

/-- Why a job's unit does not complete. -/
inductive JobStop where
  /-- parks at an address (R170); `quiet` for want of a frame (R292) -/
  | park (addr : Nat) (acc : Acc) (quiet : Bool)
  /-- ends in an access violation -/
  | fault (detail addr : Nat) (acc : Acc)
  /-- ends at once with its done counter's fault bit set and nothing logged (R305) -/
  | refused
  /-- waits for answers to its peer requests -/
  | wait
  deriving DecidableEq, Repr

/-- What a miss means to a job. -/
def missStop (m : Miss) (addr : Nat) (acc : Acc) : JobStop :=
  match m with
  | .absent => .park addr acc false
  | .frame => .park addr acc true
  | .version => .park addr acc true
  | .bad d => .fault d addr acc

/-- A request of a job is unanswered. -/
def State.jobAsks (s : State) (k : Task) (reads : Bool) : Bool :=
  (s.core k.core).chans.any fun (e : Nat × Channel) =>
    (e.2.out ++ e.2.waiting).any fun o => o.task == some k.n && (o.reads || !reads)

/-- A job's request to a peer on its submitting core's channel: a read of n bytes, or a store of v, of some low bits of it where `bits` is
not zero (R156, R271, R406). -/
def State.jobRequest (s : State) (k : Task) (va n m a : Nat) (store : Option Nat) (bits : Nat := 0) : State :=
  let o : Outstanding :=
    { req := { src := s.module, dst := m, core := k.core, asid := k.asid, seq := 0
               op := if store.isSome then .store else .load, code := 0, ty := 0, strand := partyIndex k.party
               lanes := [{ lane := 0, addr := w64 a, size := n, x := store.getD 0, y := bits }] }
      team := k.team, party := jobParty, pc := k.pc, word := none, tag := 0, dests := [], lanes := []
      carried := [(k.team, jobParty, 0, w64 va)], reads := store.isNone, index := 0, fetch := store.isNone, task := some k.n }
  (s.enqueue k.core m [o]).pumpAll k.core

/-- Bytes of a peer window that a task has fetched, if all n are there. -/
def Task.fetched (k : Task) (va : Nat) : Nat → Option Nat
  | 0 => some 0
  | n + 1 => match FMap.get none k.buf va, k.fetched (va + 1) n with
    | some b, some r => some (b.toNat + 256 * r)
    | _, _ => none

/-- n bytes read by a job at an address, in pieces of at most 8 bytes (R170). -/
def State.jobLoad (s : State) (k : Task) (va n : Nat) : Nat → State × Except JobStop Nat
  | 0 => (s, .ok 0)
  | fuel + 1 =>
    if n = 0 then (s, .ok 0)
    else
      let a := va % 2 ^ 64
      let w := Nat.min n (8 - a % 8)
      let T := s.team k.team
      let got : State × Except JobStop Nat :=
        match s.locate k.slot T.alloc .read a w with
        | .error m => (s.keepLeaf k.slot a, .error (missStop m a .read))
        | .ok (.peer m p) => match k.fetched a w with
          | some v => (s, .ok v)
          | none =>
            if s.jobAsks k true then (s, .error .wait)
            else (s.jobRequest k a (Nat.min n (128 - p % 128)) m p none, .error .wait)
        | .ok l => match s.readLoc T.mem l w with
          | .error m => (s.keepLeaf k.slot a, .error (missStop m a .read))
          | .ok v => (s.keepLeaf k.slot a, .ok v)
      match got with
      | (s, .error e) => (s, .error e)
      | (s, .ok v) => match s.jobLoad k (va + w) (n - w) fuel with
        | (s, .ok rest) => (s, .ok (v + 2 ^ (8 * w) * rest))
        | e => e

/-- The frame that a job's write to a ring is directed to: as resolved at its submission, else now (R291). DESIGN CHOICE: a write whose
page has no translation, or whose ring no free frame, at submission resolves at its first write (log 83). -/
def State.jobFrame (s : State) (k : Task) (npa : Nat) : State × Except Miss Nat :=
  match k.frames.find? fun f => f.1 == npa with
  | some (_, some f) => (s, .ok f)
  | some (_, none) => (s, .error (.bad 6))
  | none => match s.writeFrame k.asid npa k.step.toNat with
    | .error m => (s, .error m)
    | .ok (s', f) => (s'.setTask { k with frames := (npa, some f) :: k.frames }, .ok f)

/-- n bytes written by a job at an address; `new` gives their value from the one that they have. That of a peer's byte is not known here:
of one of which only some low bits are written, the request says how many (R156, R291, R303, log 86). -/
def State.jobPut (s : State) (k : Task) (a n : Nat) (new : Nat → Nat) (bits : Nat := 0) : State × Option JobStop :=
  match s.locate k.slot (s.team k.team).alloc .write a n with
  | .error m => (s.keepLeaf k.slot a, some (missStop m a .write))
  | .ok (.peer m p) => (s.jobRequest k a n m p (some (new 0)) bits, none)
  | .ok (.here off) => (s.writeLocal k.team off n (new (Mem.read (s.team k.team).mem off n)), none)
  | .ok (.phys p) => ((s.keepLeaf k.slot a).storePlace p n (new (s.readPlace p n)), none)
  | .ok (.ring npa off) => match s.jobFrame k npa with
    | (s, .error m) => (s.keepLeaf k.slot a, some (missStop m a .write))
    | (s, .ok f) => match s.framePlace npa f off with
      | .error m => (s.keepLeaf k.slot a, some (missStop m a .write))
      | .ok p => ((s.keepLeaf k.slot a).storePlace p n (new (s.readPlace p n)), none)

/-- n bytes of v written by a job at an address, 64 aligned bytes at a time (R351). -/
def State.jobStore (s : State) (k : Task) (va n v : Nat) : Nat → State × Option JobStop
  | 0 => (s, none)
  | fuel + 1 =>
    if n = 0 then (s, none)
    else
      let a := va % 2 ^ 64
      let w := Nat.min n (64 - a % 64)
      match s.jobPut k a w fun _ => v % 2 ^ (8 * w) with
      | (s, none) => s.jobStore ((s.task k.n).getD k) (va + w) (n - w) (v / 2 ^ (8 * w)) fuel
      | r => r

/-- m low bits of v written by a job at an address: whole bytes, and then the bits of a last byte, whose other bits stay as they are
(R156). -/
def State.jobBits (s : State) (k : Task) (va m v : Nat) : State × Option JobStop :=
  match s.jobStore k va (m / 8) v (m / 8) with
  | (s, none) =>
    if m % 8 = 0 then (s, none)
    else s.jobPut ((s.task k.n).getD k) ((va + m / 8) % 2 ^ 64) 1 (fun old => lowBits (m % 8) old (v / 2 ^ (8 * (m / 8)))) (m % 8)
  | r => r

/-! ### Units (R303) -/

/-- 256-byte granules of a destination. -/
def granules (dst n : Nat) : Nat := (dst + n - 1) / 256 + 1 - dst / 256

/-- A byte-moving part of a job: source (none for zeros) and destination. -/
abbrev Part := Option Region × Region

/-- The parts of a byte copy, a copy list or a zero-fill (R170, R305). -/
def Task.parts (k : Task) : List Part :=
  let here := fun (b : Bool) => if b then some k.team else none
  match k.job with
  | .copy src dst n sl dl => [(some { team := here sl, base := src, length := n, write := false },
      { team := here dl, base := dst, length := n, write := true })]
  | .list ps => ps.map fun p => (some p.1, p.2)
  | .fill rs => rs.map fun r => (none, r)
  | _ => []

/-- The address of byte i of a region. -/
def State.regionAddr (s : State) (k : Task) (r : Region) (i : Nat) : Nat :=
  ((if r.team.isSome then (s.ctx k.slot).localBase else 0) + r.base + i) % 2 ^ 64

/-- A local region's bytes lie in the team's allocation, or the violation of R306. -/
def State.regionStop (s : State) (k : Task) (r : Region) (i n : Nat) (acc : Acc) : Option JobStop :=
  if r.team.isSome && decide ((s.team k.team).alloc < r.base + i + n) then some (.fault 3 (s.regionAddr k r (Nat.max i ((s.team k.team).alloc - r.base))) acc)
  else none

/-- Unit u of a list of parts: the part, and the bytes of it from i to j. -/
def unitOf : List Part → Nat → Option (Part × Nat × Nat)
  | [], _ => none
  | p :: rest, u =>
    let d := p.2
    let g := granules d.base d.length
    if u < g then
      let lo := Nat.max d.base ((d.base / 256 + u) * 256)
      let hi := Nat.min (d.base + d.length) ((d.base / 256 + u + 1) * 256)
      some (p, lo - d.base, hi - d.base)
    else unitOf rest (u - g)

/-- Byte i of a part is timing-dependent: its source byte is another destination byte of the job, or its destination byte is
written from two sources (R170, R305). -/
def byteOpen (ps : List Part) (p : Part) (i : Nat) : Bool :=
  let within := fun (r : Region) (t : Option Nat) (a : Nat) => r.team == t && decide (r.base ≤ a) && decide (a < r.base + r.length)
  match p.1 with
  | none => false
  | some src =>
    (ps.any fun q => within q.2 src.team (src.base + i) && !(src.team == p.2.team && src.base == p.2.base))
      || (ps.any fun q => q != p && within q.2 p.2.team (p.2.base + i))

/-- The bytes of v from byte number i on; where the job's result is timing-dependent, one of its sources' bytes each (R170). -/
def freeBytes (free : Nat) (before : List W8) (ps : List Part) (p : Part) (i v : Nat) : Nat → Nat
  | 0 => 0
  | n + 1 =>
    let pick := before[Config.overlapPick free i % before.length]?
    (if byteOpen ps p i then (pick.getD (BitVec.ofNat 8 v)).toNat else v % 256) + 256 * freeBytes free before ps p (i + 1) (v / 256) n

/-- One granule of a byte copy or zero-fill. -/
def State.copyUnit (s : State) (k : Task) (u : Nat) : State × Option JobStop :=
  match unitOf k.parts u with
  | none => (s, none)
  | some (p, i, j) =>
    let n := j - i
    let got : State × Except JobStop Nat :=
      match p.1 with
      | none => (s, .ok 0)
      | some r => match s.regionStop k r i n .read with
        | some e => (s, .error e)
        | none => s.jobLoad k (s.regionAddr k r i) n n
    match got with
    | (s, .error e) => (s, some e)
    | (s, .ok v) => match s.regionStop k p.2 i n .write with
      | some e => (s, some e)
      | none => s.jobStore ((s.task k.n).getD k) (s.regionAddr k p.2 i) n (freeBytes s.free k.before k.parts p i v n) n

/-- One source byte of a job, where it can be read here. -/
def State.sourceByte (s : State) (k : Task) (r : Region) (i : Nat) : Option W8 :=
  let a := s.regionAddr k r i
  match s.locate k.slot (s.team k.team).alloc .read a 1 with
  | .ok l => match s.readLoc (s.team k.team).mem l 1 with
    | .ok v => some (BitVec.ofNat 8 v)
    | .error _ => none
  | .error _ => none

/-- The source bytes of a job some of whose bytes are timing-dependent (R170). -/
def State.sourcesBefore (s : State) (k : Task) : List W8 :=
  if k.parts.any fun p => (List.range p.2.length).any fun i => byteOpen k.parts p i then
    k.parts.flatMap fun p => match p.1 with
      | none => []
      | some r => (List.range r.length).filterMap fun i => s.sourceByte k r i
  else []

/-- One row of a box copy (R155, R156, R171). -/
def State.tileUnit (s : State) (k : Task) (shape : BitVec 256) (idx place : W64) (store : Bool) (row : Nat) :
    State × Option JobStop :=
  let r := shapeOf shape
  let rows := placeRows place r.localRows.1 r.localRows.2
  let n := r.live idx row
  let bytes := cdiv (n * r.bits) 8
  let A := r.rowAddr idx row
  let mem := (s.team k.team).mem
  if (s.team k.team).alloc < rows.end_ then
    (s, some (.fault 3 ((s.ctx k.slot).localBase + Nat.max rows.off (s.team k.team).alloc) (if store then .read else .write)))
  else if !store then
    match s.jobLoad k A bytes bytes with
    | (s, .error e) => (s, some e)
    | (s, .ok v) =>
      let T := s.team k.team
      (s.setTeam k.team { T with mem := r.landRow T.mem rows.off rows.stride row (v % 2 ^ (n * r.bits)) }, none)
  else
    s.jobBits k A (n * r.bits) (r.localRow mem rows.off rows.stride row n)

/-- Units of a job (R303). -/
def Task.total (k : Task) : Nat :=
  match k.job with
  | .tile shape _ _ _ => (shapeOf shape).box1
  | .contribution _ _ => 1
  | _ => (k.parts.map fun p => granules p.2.base p.2.length).sum

/-- The opening of the handle for which a contribution was made still stands (R305). -/
def State.handleStands (s : State) (k : Task) (h : Nat) : Bool :=
  (s.openHandle k.asid h).isSome && (s.coll h).gen == k.gen

/-- A contribution job or a put reads its bytes and hands them to the collective engine (R305, R372); one whose handle is gone
contributes nothing, and a card's then ends with its counter's fault bit set. -/
def State.putUnit (s : State) (k : Task) (arg0 addr : W64) : State × Option JobStop :=
  let h := arg0.toNat % 256
  if !s.handleStands k h then (s, if k.entry then some .refused else none)
  else
    let n := (s.coll h).record.putBytes
    match s.jobLoad k addr.toNat n n with
    | (s, .error e) => (s, some e)
    | (s, .ok v) => (s.putContribution h (w32 (arg0.toNat / 2 ^ 32)) k.rise v, none)

/-- One unit of a job. -/
def State.jobUnit (s : State) (k : Task) (u : Nat) : State × Option JobStop :=
  match k.job with
  | .tile shape idx place store => s.tileUnit k shape idx place store u
  | .contribution a x => s.putUnit k a x
  | _ => s.copyUnit k u

/-- Runs a job from its progress on, until it stops or all its units are performed; a unit counts once its writes to peers are
acknowledged (R303). DESIGN CHOICE: what a job does without waiting it does in one step, so that no racing access falls between its bytes
(R285, log 82). -/
def State.runJob (s : State) (n : Nat) : Nat → State × Option JobStop
  | 0 => (s, none)
  | fuel + 1 =>
    match s.task n with
    | none => (s, none)
    | some k =>
      if k.prog ≥ k.total then (s, none)
      else match (if k.sent then (s, none) else s.jobUnit k k.prog) with
        | (s, some e) => (s, some e)
        | (s, none) =>
          let k := (s.task n).getD k
          if s.jobAsks k false then (s.setTask { k with sent := true }, some .wait)
          else (s.setTask { k with prog := k.prog + 1, sent := false, buf := [] }).runJob n fuel

/-! ### Completion (R303, R311) -/

/-- Tasks that have lost an edge are examined for readiness. -/
def State.releaseEdges (s : State) (n : Nat) : State :=
  { s with tasks := s.tasks.map fun t => Task.settle s.now { t with edges := t.edges.filter (· != n) } }

/-- The range-scoreboard entries of a task are freed (R254). -/
def State.freeRange (s : State) (n : Nat) : State :=
  { s with tasks := s.tasks.map fun t => if t.n = n then { t with range := none } else t
           cores := s.cores.map fun (e : Nat × Core) => (e.1, { e.2 with range := e.2.range.filter fun r => r.task != n }) }

/-- One byte of an object read and written back for a context; a failing access leaves it. -/
def State.patchByte (s : State) (slot va : Nat) (f : Nat → Nat) : State :=
  match s.readAs slot va 1 1 with
  | .ok v => (s.writeAs slot va 1 (f v) 1).1
  | .error _ => s

/-- A graph instance completes when no task of it remains: its slot's busy bit is cleared and done is decremented (R316). -/
def State.endInstance (s : State) (order : Nat) : State :=
  if s.tasks.any fun t => t.inst == some order then s
  else match s.instances.find? fun i => i.order == order with
    | none => s
    | some i =>
      let s := s.patchByte i.slot (i.object.toNat + 7) fun v => v - v / 2 ^ (4 + i.index) % 2 * 2 ^ (4 + i.index)
      let s := { s with instances := s.instances.filter fun j => j.order != order }
      match i.done with
      | none => s
      | some c => s.decCounter c

/-- Answers to a task's peer requests find no task any more. -/
def State.orphan (s : State) (n : Nat) : State :=
  let cut := fun (o : Outstanding) => if o.task = some n then { o with task := none, fetch := false } else o
  { s with cores := s.cores.map fun (e : Nat × Core) => (e.1, { e.2 with chans := e.2.chans.map fun (c : Nat × Channel) =>
      (c.1, { c.2 with out := c.2.out.map cut, waiting := c.2.waiting.map cut }) }) }

/-- A task completes by the four steps of R303; `fault` is the failing address of one that ended in a violation (R311). -/
def State.endTask (s : State) (n : Nat) (fault : Option W64) : State :=
  match s.task n with
  | none => s
  | some k =>
    let s := s.freeRange n
    let s := match k.done with
      | none => s
      | some c => (match fault with | some a => s.faultCounter c a | none => s).decCounter c
    let s := (State.releaseEdges { s with tasks := s.tasks.filter fun t => t.n != n } n).orphan n
    match k.inst with
    | none => s
    | some o => s.endInstance o

/-- A job whose team is being pre-empted, or is away, is squashed where it parks (R313). -/
def State.parkedAway (s : State) (k : Task) : Bool :=
  s.namesLocal k k.team && (!(s.team k.team).resident || (s.team k.team).drainFrom.isSome)

/-- A job that has stopped: it parks with its fault record, ends in its violation once its writes are acknowledged, or waits (R170,
R292, R303, R311). -/
def State.stopJob (s : State) (n : Nat) (e : JobStop) : State :=
  match s.task n with
  | none => s
  | some k =>
    match e with
    | .wait => s
    | .refused => s.endTask n (some 0)
    | .park a acc quiet =>
      let away := s.parkedAway k
      let s := s.setTask { k with state := if away then .squashed else .parked, sent := false, parkedAt := w64 a, quiet := quiet }
      let s := if away then s.freeRange n else s
      if quiet then s
      else s.pushFaultRecord (faultRecord 1 (w64 n) 0 (partyIndex k.party) k.core 0 acc.code 2 k.asid (w64 a))
    | .fault d a acc =>
      let s := s.logAs k.slot k.core (partyIndex k.party) a d acc false
      if s.jobAsks k false then s.setTask { k with failed := some (w64 a) } else s.endTask n (some (w64 a))

/-- The local window of a team that is not resident, or that is being pre-empted, keeps a task from starting (R313). -/
def State.startAway (s : State) (t : Task) : Bool :=
  s.namesLocal t t.team && (!(s.team t.team).resident || (s.team t.team).drainFrom.isSome)

/-- A job that runs on an engine (R302, R307). -/
def Task.needsEngine (t : Task) : Bool := match t.job with | .launch .. | .signal => false | _ => true

/-- Whether a task is ready and may start: its window is resident (R313), it became ready before every other such task, and an
engine is free if it needs one (R302, R307). -/
def State.mayStart (s : State) (k : Task) : Bool :=
  let startable := fun (t : Task) => t.state == .ready && !s.startAway t
  let first := (s.tasks.filter startable).foldl (fun (b : Option Task) t => match b with
    | none => some t
    | some u => if t.readyAt < u.readyAt then some t else b) none
  let busy := (s.tasks.filter fun t => t.state == .running && t.needsEngine).length
  startable k && (first.map (·.n)) == some k.n && (!k.needsEngine || decide (busy < engineCount))

/-- A read by a launch card has stopped: an access violation is result 3, with the failing address recorded (R169, R311, R464). -/
def State.stopLaunch (s : State) (k : Task) (e : JobStop) : State :=
  match e with
  | .fault d a acc => (s.logAs k.slot k.core (partyIndex k.party) a d acc false).endTask k.n (some (w64 a))
  | e => s.stopJob k.n e

/-- A launch card is enqueued: its result 0 lets it run until its teams have retired; its header and parameters are read as a job
reads (R305, R464). DESIGN CHOICE: a card refused with result 1 or 2 records its header's address as the failing address of R169, which
the manual does not name for it (log 65). -/
def State.startLaunch (s : State) (k : Task) (hdr word params : W64) : State :=
  let k := { k with state := .running }
  let s := s.setTask k
  let H := hdr.toNat
  match (s.ctx k.slot).launchQueue word H ((s.ctx k.slot).queueAt (bits word.toNat 37 32)) with
  | none => s.endTask k.n (some hdr)
  | some q => match s.jobLoad k H 64 64 with
    | (s, .error e) => s.stopLaunch k e
    | (s, .ok v) => match parseHeader H v with
      | none => s.endTask k.n (some hdr)
      | some h =>
        let k := (s.task k.n).getD k
        match s.jobLoad k params.toNat (8 * h.params) (8 * h.params) with
        | (s, .error e) => s.stopLaunch k e
        | (s, .ok ps) => match s.acceptLaunch k.slot H q word (some h) (wordsOf ps h.params) (.task k.n) with
          | (s, .enqueued key) => s.setTask { (s.task k.n).getD k with launched := some key, buf := [] }
          | (s, _) => s.endTask k.n (some hdr)

/-- A contribution starts: a card whose handle or step is no longer good ends at once with its counter's fault bit set (R305). DESIGN
CHOICE: the failing address that such a card records for R169 is 0, since no access failed (log 65). -/
def State.startContribution (s : State) (k : Task) (arg0 : W64) : State :=
  let h := arg0.toNat % 256
  let step := arg0.toNat / 2 ^ 32
  if k.entry then
    if s.handleStands k h && s.mayPut k.asid h step then
      (s.setColl h ((s.coll h).put (w32 step))).setTask { k with state := .running, rise := s.tide.rises }
    else s.endTask k.n (some 0)
  else s.setTask { k with state := .running }

/-- TASK_START (R307). -/
def execTaskStart (task : Nat) (s : State) : Result :=
  event s fun s =>
    match s.task task with
    | none => s
    | some k =>
      if !s.mayStart k then s
      else match k.job with
        | .signal => s.endTask task none
        | .launch h w p => s.startLaunch k h w p
        | .contribution a _ => s.startContribution k a
        | _ => s.setTask { k with state := .running, before := s.sourcesBefore k }

/-- A task whose launch has no team left (R305). -/
def State.launchOver (s : State) (k : Task) : Bool :=
  match k.launched with
  | none => false
  | some key => (FMap.get none s.disp.launches key).isNone

/-- Runs the rest of a job; it completes when every write has been performed at its home (R303). -/
def State.finishJob (s : State) (k : Task) : State :=
  match k.failed with
  | some a => if s.jobAsks k false then s else s.endTask k.n (some a)
  | none =>
    match s.runJob k.n (k.total + 1) with
    | (s, some e) => s.stopJob k.n e
    | (s, none) => s.endTask k.n none

/-- Squashes the jobs of a team in the given states: writes stop, P stays, entries of the range scoreboard are freed (R313). -/
def State.squash (s : State) (team : Nat) (p : TaskState → Bool) : State :=
  let hit := fun (t : Task) => s.namesLocal t team && p t.state
  let s' := (s.tasks.filter hit).foldl (fun (r : State) t => r.freeRange t.n) s
  { s' with tasks := s'.tasks.map fun t => if s.namesLocal t team && p t.state then { t with state := .squashed, sent := false } else t }

/-- The drain limit of a team's jobs has passed (R312, R313). -/
def State.drainOver (s : State) (t : Nat) : Bool :=
  match (s.team t).drainFrom with
  | none => false
  | some c => decide (c + 2100 * s.ctrl.engLimit.toNat ≤ s.now)

/-- A job's team is being pre-empted, and its drain has ended: the jobs that it still runs are squashed (R313). -/
def State.drainedOut (s : State) (k : Task) : Bool := s.namesLocal k k.team && s.drainOver k.team

/-- JOB_COMPLETE (R303); past the drain limit of its team the job is squashed instead (R313). DESIGN CHOICE: the bytes that it still has
to move are moved in this one step (log 82). -/
def execJobComplete (task : Nat) (s : State) : Result :=
  event s fun s =>
    match s.task task with
    | none => s
    | some k =>
      if k.state != .running || s.windowAway k then s
      else if s.drainedOut k then s.squash k.team (· == .running)
      else match k.job with
        | .launch h w p =>
          if k.failed.isSome then s.endTask task k.failed
          else if k.launched.isNone then s.startLaunch k h w p else if s.launchOver k then s.endTask task none else s
        | _ => s.finishJob k

/-- JOB_PARK (R170): the job advances to its first missing translation and parks there; past the drain limit of its team it is squashed
instead (R313). -/
def execJobPark (task : Nat) (s : State) : Result :=
  event s fun s =>
    match s.task task with
    | none => s
    | some k =>
      if k.state != .running || s.windowAway k || k.launched.isSome then s
      else if s.drainedOut k then s.squash k.team (· == .running)
      else match s.runJob task (k.total + 1) with
        | (s', some (.park a acc q)) => s'.stopJob task (.park a acc q)
        | _ => s

/-! ### Submission (R170, R172, R308) -/

/-- The rings that a write region reaches, each with the frame its writes are directed to (R291). DESIGN CHOICE: none is resolved now for a
page without a translation or a ring without a free frame (log 83). -/
def State.resolveWrites (s : State) (k : Task) : List Nat → State × List (Nat × Option Nat)
  | [] => (s, [])
  | a :: rest =>
    let r : State × List (Nat × Option Nat) :=
      match s.locate k.slot (s.team k.team).alloc .write a 1 with
      | .ok (.ring npa _) => match s.writeFrame k.asid npa k.step.toNat with
        | .ok (s', f) => (s', [(npa, some f)])
        | .error (.bad 6) => (s, [(npa, none)])
        | .error _ => (s, [])
      | _ => (s, [])
    let q := r.1.resolveWrites k rest
    (q.1, r.2 ++ q.2)

/-- The 2 MiB pages that the write regions of a job touch, by one address in each. -/
def Task.writePages (k : Task) : List Nat :=
  let moves := match k.job with | .copy .. | .tile .. | .list _ | .fill _ => true | _ => false
  if !moves then []
  else k.regions.flatMap fun r =>
    if r.write && r.team.isNone then
      let lo := r.base % 2 ^ 64
      (List.range ((lo + r.length - 1) / 2 ^ 21 + 1 - lo / 2 ^ 21)).map fun i => Nat.max lo ((lo / 2 ^ 21 + i) * 2 ^ 21)
    else []

/-- The task unit receives a task: its edges, its gate's link, and its place at the end of the receipt order (R308, R310). -/
def State.receiveTask (s : State) (k : Task) : State :=
  let k := { k with edges := (s.tasks.filter fun t => s.taskClash t k).map (·.n) }
  let r := s.resolveWrites k k.writePages
  let s := { r.1 with tasks := r.1.tasks ++ [Task.settle s.now { k with frames := r.2 }] }
  match k.gate with
  | none => s
  | some g => s.examineCounter g

/-- The core whose local memory holds a window offset of a team (R199, R254). -/
def Team.coreAt (T : Team) (off : Nat) : Nat := if T.hdr.twin && decide (262144 ≤ off) then T.core + 1 else T.core

/-- The opening of the handle that a contribution names (R305). -/
def State.jobGen (s : State) (j : Job) : Nat :=
  match j with
  | .contribution a _ => (s.coll (a.toNat % 256)).gen
  | _ => 0

/-- A task of the issuing party, before its number. -/
def State.newTask (s : State) (job : Job) (regions : List Region) (gate done : Option Nat) : Task :=
  { n := s.freeNumber 0, gen := s.jobGen job, slot := s.curTeam.slot, asid := s.curTeam.asid, team := s.cur.team, party := s.cur.party
    core := s.curParty.core, pc := (s.curParty.lane s.firstLane).pc, step := s.curTeam.step, job := job, regions := regions
    edges := [], gate := gate, done := done, state := .waiting, prog := 0, parkedAt := 0, range := none, inst := none }

/-- Takes a range-scoreboard entry for a local destination (R254). DESIGN CHOICE: a twin's destination that reaches over window offset
262,144 takes one entry, on the core of its first byte (log 66). -/
def State.takeRange (s : State) (k : Task) (off n : Nat) : State × Task :=
  let c := (s.team k.team).coreAt off
  let K := s.core c
  let e : RangeEntry := { team := k.team, lo := off / 64 * 64, hi := cdiv (off + n) 64 * 64, task := k.n, pc := k.pc }
  (s.setCore c { K with range := K.range ++ [e] }, { k with range := some c })

/-- Submits a copy, which waits while no task entry or, for a local destination, no range-scoreboard entry is free (R170). -/
def State.submitCopy (s : State) (k : Task) (dst : Option (Nat × Nat)) : State :=
  if s.freeEntries = 0 then s.hold .entry
  else match dst with
    | none => (s.receiveTask k).advance
    | some (off, n) =>
      if (s.core (s.curTeam.coreAt off)).range.length ≥ 32 then s.hold (.rangeSlot off)
      else
        let r := s.takeRange k off n
        (r.1.receiveTask r.2).advance

/-- A counter word (R170): its device counter if valid, or the trap of R159. -/
def State.withCounter (s : State) (x : Nat) (k : Option Nat → State) : State :=
  if bits x 63 13 ≠ 0 then s.illegal true 3
  else if !bit x 12 then k none
  else match s.curCtx.counterAt (x % 2 ^ 12) with
    | none => s.trapUniform { kind := 5, detail := 7 }
    | some c => k (some c)

/-- COPY (R170). DESIGN CHOICE: only `.dl` makes its destination local (R254); one given by an address that lies in the local window
takes no range-scoreboard entry (log 66). -/
def execCopy (a b : BitVec 6) (x y : BitVec 1) (st : BitVec 2) (s : State) : Result :=
  gate (.copy a b x y st) s fun s =>
    let src := (s.getS a).toNat
    let dst := (s.rdS (a.toNat + 1)).toNat
    let n := (s.getS b).toNat
    let sl := x == 1
    let dl := y == 1
    if n = 0 ∨ 2 ^ 32 < n then s.illegal true 3
    else s.withCounter (s.rdS (b.toNat + 1)).toNat fun done =>
      let here := fun (l : Bool) => if l then some s.cur.team else none
      s.submitCopy (s.newTask (.copy src dst n sl dl)
        [{ team := here sl, base := src, length := n, write := false }, { team := here dl, base := dst, length := n, write := true }]
        none done) (if dl then some (dst, n) else none)

/-- The smallest byte range that holds every element of a box: base and length (R309). -/
def Shape.span (r : Shape) (idx : W64) : Nat × Nat :=
  (r.rowAddr idx 0, (r.box1 - 1) * r.pitch1 + cdiv (r.box0 * r.bits) 8)

/-- COPYT (R171). DESIGN CHOICE: the box rows and row bytes of its local region (R309) are the rows that the local place holds, in column
order box0 rows of box1 elements (log 67); a store's global destination takes no range-scoreboard entry wherever it lies (log 66). -/
def execCopyt (a b : BitVec 6) (t : BitVec 1) (st : BitVec 2) (s : State) : Result :=
  gate (.copyt a b t st) s fun s =>
    let A := (s.getS a).toNat
    let idx := s.rdS (a.toNat + 1)
    let place := s.getS b
    if A % 32 ≠ 0 then s.trapUniform { kind := 4, info := A }
    else s.withCounter (s.rdS (b.toNat + 1)).toNat fun done =>
      s.withRecord A 4 fun s v =>
        let x := BitVec.ofNat 256 v
        let r := shapeOf x
        let rows := placeRows place r.localRows.1 r.localRows.2
        let c := match r.cause with
          | some c => some c
          | none => lowest [(decide (2 ^ 48 ≤ place.toNat), 8), (rows.misplaced, 9), (boxIndex idx 0 * r.bits % 8 != 0, 18)]
        match c with
        | some c => s.shapeTrap c
        | none =>
          let store := t == 1
          let n := rows.end_ - rows.off
          let g := r.span idx
          s.submitCopy (s.newTask (.tile x idx place store)
            [{ team := none, base := g.1, length := g.2, write := store },
             { team := some s.cur.team, base := rows.off, length := n, write := !store }] none done)
            (if store then none else some (rows.off, n))

/-! ### Job cards (R304 to R306) -/

/-- A job card (R304). -/
structure Card where
  kind : Nat
  gate : Option Nat
  done : Option Nat
  arg0 : W64
  arg1 : W64
  arg2 : W64
  /-- base, length, local, write -/
  regions : List (Nat × Nat × Bool × Bool)
  /-- a reserved field is not zero -/
  reserved : Bool
  deriving DecidableEq, Repr

/-- Number of regions that a card's header names. -/
def cardRegions (h : Nat) : Nat := bits h 11 8

/-- The card whose bytes are v. -/
def cardOf (v : Nat) : Card :=
  let rs := (List.range (cardRegions v)).map fun j => v / 2 ^ (512 + 128 * j) % 2 ^ 128
  { kind := bits v 3 0, gate := if bit v 39 then some (bits v 51 40) else none
    done := if bit v 26 then some (bits v 38 27) else none
    arg0 := w64 (bits v 383 320), arg1 := w64 (bits v 447 384), arg2 := w64 (bits v 511 448)
    regions := rs.map fun r => (bits r 127 64, bits r 63 32, bit r 1, bit r 0)
    reserved := bits v 319 52 != 0 || bits v 25 12 != 0 || bits v 7 4 != 0 || rs.any fun r => bits r 31 2 != 0 }

/-- Neighbours of a list in pairs. -/
def pairUp {α : Type} : List α → List (α × α)
  | a :: b :: rest => (a, b) :: pairUp rest
  | _ => []

/-- A card breaks its layout (R306). -/
def State.cardBad (s : State) (asid : BitVec 16) (c : Card) : Bool :=
  c.reserved || decide (4 < c.kind) || decide (8 < c.regions.length) || (c.regions.any fun r => r.2.1 == 0)
    || (c.kind == 0 && (c.regions.length % 2 != 0
        || (pairUp c.regions).any fun p => p.1.2.2.2 || !p.2.2.2.2 || p.1.2.1 != p.2.2.1))
    || (c.kind == 1 && !c.regions.any fun r => r.2.2.2)
    || ((c.kind == 0 || c.kind == 1 || c.kind == 4) && (c.arg0 != 0 || c.arg1 != 0 || c.arg2 != 0))
    || (c.kind == 3 && (bits c.arg0.toNat 31 8 != 0 || c.arg2 != 0 || (s.openHandle asid (c.arg0.toNat % 256)).isNone))

/-- The footprint of a card. -/
def Card.footprint (c : Card) (team : Nat) : List Region :=
  c.regions.map fun r => { team := if r.2.2.1 then some team else none, base := r.1, length := r.2.1, write := r.2.2.2 }

/-- The job of a card (R305). -/
def Card.job (c : Card) (team : Nat) : Job :=
  let rs := c.footprint team
  if c.kind = 0 then .list (pairUp rs)
  else if c.kind = 1 then .fill (rs.filter (·.write))
  else if c.kind = 2 then .launch c.arg0 c.arg1 c.arg2
  else if c.kind = 3 then .contribution c.arg0 c.arg1
  else .signal

/-- The first local region of a card beyond an allocation, as the window offset it reaches (R306). -/
def Card.outside (c : Card) (alloc : Nat) : Option Nat :=
  (c.regions.find? fun r => r.2.2.1 && decide (alloc < r.1 + r.2.1)).map fun r => Nat.max r.1 alloc

/-- An optional counter index within the grant: none when it lies beyond. -/
def Ctx.counterOf (c : Ctx) (i : Option Nat) : Option (Option Nat) :=
  match i with
  | none => some none
  | some i => (c.counterAt i).map some

/-- TASK_SUB (R172, R306). -/
def execTaskSub (d a : BitVec 6) (st : BitVec 2) (s : State) : Result :=
  gate (.taskSub d a st) s fun s =>
    let off := (s.getS a).toNat
    let T := s.curTeam
    let lw := s.curCtx.localBase
    let n := 64 + 16 * cardRegions (Mem.read T.mem off 8)
    if off % 64 ≠ 0 then s.trapUniform { kind := 4, info := off }
    else if T.alloc < off + 64 then s.violateUniform 3 (lw + off) .read
    else if s.rangeBusy s.cur.team off 64 then s.hold (.range off 64)
    else if 64 + 16 * 8 < n then s.illegal true 3
    else if T.alloc < off + n then s.violateUniform 3 (lw + T.alloc) .read
    else if s.rangeBusy s.cur.team off n then s.hold (.range off n)
    else
      let c := cardOf (Mem.read T.mem off n)
      if s.cardBad T.asid c then s.illegal true 3
      else match c.outside T.alloc with
        | some x => s.violateUniform 3 (lw + x) .read
        | none => match s.curCtx.counterOf c.gate, s.curCtx.counterOf c.done with
          | some g, some e =>
            if s.freeEntries = 0 then s.putS d (-1)
            else
              let k := s.newTask (c.job s.cur.team) (c.footprint s.cur.team) g e
              (s.receiveTask k).putS d (w64 k.n)
          | _, _ => s.trapUniform { kind := 5, detail := 7 }

/-- COLL_PUT (R179, R372): the put is read as an engine job that takes no task entry. -/
def execCollPut (a b : BitVec 6) (st : BitVec 2) (s : State) : Result :=
  gate (.collPut a b st) s fun s =>
    let x := s.getS a
    if bits x.toNat 31 8 ≠ 0 ∨ s.mayPut s.curTeam.asid (x.toNat % 256) (x.toNat / 2 ^ 32) = false then s.illegal true 3
    else
      let k := s.newTask (.contribution x (s.getS b)) [] none none
      let h := x.toNat % 256
      let s := s.setColl h ((s.coll h).put (w32 (x.toNat / 2 ^ 32)))
      (s.receiveTask { k with n := s.freeNumber taskEntries, rise := s.tide.rises }).advance

/-! ### Dependence counters (R168, R169) -/

/-- Runs a counter word on the device counter that it names (R159, R169). -/
def State.onCounter (s : State) (a : BitVec 6) (k : Nat → State) : State :=
  let x := (s.getS a).toNat
  if 2 ^ 12 ≤ x then s.illegal true 3
  else match s.curCtx.counterAt x with
    | none => s.trapUniform { kind := 5, detail := 7 }
    | some i => k i

/-- TASK_SIG_ADD (R169). -/
def execTaskSigAdd (a b : BitVec 6) (st : BitVec 2) (s : State) : Result :=
  gate (.taskSigAdd a b st) s fun s => s.onCounter a fun i => (s.signalCounter i ((s.getS b).toNat % 2 ^ 32)).advance

/-- TASK_SIG_SET (R169). -/
def execTaskSigSet (a b : BitVec 6) (st : BitVec 2) (s : State) : Result :=
  gate (.taskSigSet a b st) s fun s => s.onCounter a fun i =>
    ((s.setCounter i { s.counter i with value := (s.getS b).setWidth 32, fault := false, under := false }).examineCounter i).advance

/-- TASK_SIG_RD (R169). -/
def execTaskSigRd (d a : BitVec 6) (st : BitVec 2) (s : State) : Result :=
  gate (.taskSigRd d a st) s fun s => s.onCounter a fun i =>
    let c := s.counter i
    s.putS d (w64 (c.value.toNat + 2 ^ 32 * b2n c.fault + 2 ^ 33 * b2n c.under))

/-- A wait or try on a counter has what it asks for (R169). -/
def State.counterReady (s : State) (take : Bool) (i : Nat) : Bool :=
  if take then (s.counter i).value != 0 else (s.counter i).value == 0

/-- It returns: the fault bit's violation, or the taken unit (R169). -/
def State.counterTake (s : State) (take : Bool) (i : Nat) (done : State → State) : State :=
  let c := s.counter i
  if c.fault then s.trapUniform { kind := 5, detail := 8, info := c.failAddr.toNat }
  else done (if take then (s.setCounter i { c with value := c.value - 1 }).examineCounter i else s)

/-- `task.wait` and `task.wait.take`; a party that waits keeps the index of its counter, which the grant that its context then has
resolves (R159, R169). -/
def State.taskWait (s : State) (a : BitVec 6) (take : Bool) : State :=
  let go := fun (x i : Nat) => if s.counterReady take i then s.counterTake take i State.advance else s.hold (.task x take)
  match s.curWait with
  | .task x _ => (match s.curCtx.counterAt x with
    | none => s.trapUniform { kind := 5, detail := 7 }
    | some i => go x i)
  | _ => s.onCounter a (go (s.getS a).toNat)

/-- TASK_WAIT (R169). -/
def execTaskWait (a : BitVec 6) (st : BitVec 2) (s : State) : Result :=
  gate (.taskWait a st) s fun s => s.taskWait a false

/-- TASK_WAIT_TAKE (R169). -/
def execTaskWaitTake (a : BitVec 6) (st : BitVec 2) (s : State) : Result :=
  gate (.taskWaitTake a st) s fun s => s.taskWait a true

/-- `task.try` and `task.try.take`. -/
def State.taskTry (s : State) (n : BitVec 2) (a : BitVec 6) (take : Bool) : State :=
  s.onCounter a fun i =>
    if s.counterReady take i then s.counterTake take i fun s => (s.setFlags n.toNat true).advance
    else (s.setFlags n.toNat false).advance

/-- TASK_TRY (R169). -/
def execTaskTry (n : BitVec 2) (a : BitVec 6) (st : BitVec 2) (s : State) : Result :=
  gate (.taskTry n a st) s fun s => s.taskTry n a false

/-- TASK_TRY_TAKE (R169). -/
def execTaskTryTake (n : BitVec 2) (a : BitVec 6) (st : BitVec 2) (s : State) : Result :=
  gate (.taskTryTake n a st) s fun s => s.taskTry n a true

/-! ### Jobs at pre-emption (R313) -/

/-- Running jobs that name a team's local window and still have to drain. -/
def State.draining (s : State) (team : Nat) : Bool := s.tasks.any fun t => t.state == .running && s.namesLocal t team

/-- The bytes of the local window that a copy writes, as offset and length, for its range-scoreboard entry (R254). -/
def Task.localDst (t : Task) : Option (Nat × Nat) :=
  match t.job with
  | .copy .. | .tile .. => (t.regions.find? fun r => r.write && r.team.isSome).map fun r => (r.base, r.length)
  | _ => none

/-- A copy that has no entry where its team stands: it was squashed, or its context was saved (R256, R313, R314). -/
def Task.lacksRange (t : Task) : Bool := t.range.isNone && t.localDst.isSome

/-- Cores on which a team's copies take their entries again when it is placed from a core on (R256). -/
def State.rangesOf (s : State) (team core : Nat) : List Nat :=
  (s.tasks.filter fun t => t.team == team && t.lacksRange).filterMap fun t =>
    t.localDst.map fun d => Team.coreAt { s.team team with core := core } d.1

/-- A team's copies find room on the range scoreboards where it is placed (R254, R256). -/
def State.rangesFit (s : State) (team core : Nat) : Bool :=
  let cs := s.rangesOf team core
  [core, core + 1].all fun c => decide ((s.core c).range.length + (cs.filter (· == c)).length ≤ 32)

/-- On a team's return its copies retake their entries, and its squashed jobs run from P (R256, R313). -/
def State.unsquash (s : State) (team : Nat) : State :=
  s.tasks.foldl (fun s t =>
    let r := if t.team == team && t.lacksRange then (match t.localDst with | some (o, n) => s.takeRange t o n | none => (s, t)) else (s, t)
    if t.state == .squashed && s.namesLocal t team then r.1.setTask { r.2 with state := .running } else r.1.setTask r.2) s

/-! ### Graph objects (R174, R315, R316) -/

/-- The object header's fields (R315). -/
structure Graph where
  slotbase : Nat
  cardbase : Nat
  bindbase : Nat
  done : Nat
  busy : Nat
  nbind : Nat
  ncards : Nat
  pwords : Nat
  bad : Bool
  deriving DecidableEq, Repr

/-- The header of a graph object. -/
def graphOf (v : Nat) : Graph :=
  let g : Graph := { slotbase := bits v 511 448, cardbase := bits v 447 384, bindbase := bits v 383 320, done := bits v 319 256
                     busy := bits v 63 60, nbind := bits v 55 48, ncards := bits v 47 40 + 1, pwords := bits v 31 16, bad := false }
  { g with bad := bits v 15 0 != 0x4F47 || bits v 39 32 != 0 || bits v 59 56 != 0 || bits v 255 64 != 0 || g.slotbase % 64 != 0
                    || g.cardbase % 64 != 0 || g.bindbase % 8 != 0 || decide (512 < g.pwords) }

/-- A binding: card, byte offset, patch word, and whether its reserved bits are zero and its fields in range (R315). -/
def bindingOk (g : Graph) (b regions : Nat) : Bool :=
  bits b 63 48 == 0 && bits b 39 32 == 0 && decide (bits b 47 40 < g.ncards) && bits b 31 16 % 8 == 0
    && decide (bits b 31 16 < 64 + 16 * regions) && decide (bits b 15 0 < g.pwords)

/-- The bindings' cards read one after another for their lengths (R315). -/
def State.checkBindings (s : State) (A : Nat) (g : Graph) : List Nat → State × Option State
  | [] => (s, none)
  | b :: rest =>
    if g.ncards ≤ bits b 47 40 then (s, some (s.illegal true 3))
    else match s.readSpan (A + g.cardbase + 192 * bits b 47 40) 8 8 with
      | (s, .error e) => (s, some (s.stopRead e .read))
      | (s, .ok h) => if bindingOk g b (cardRegions h) then s.checkBindings A g rest else (s, some (s.illegal true 3))

/-- The first address of a region at which an access is refused, looked at in each 64 KiB granule: its detail and address. -/
def State.refusedAt (s : State) (acc : Acc) (lo n : Nat) : Option (Nat × Nat) :=
  (List.range ((lo + n - 1) / 2 ^ 16 + 1 - lo / 2 ^ 16)).findSome? fun i =>
    let a := Nat.max lo ((lo / 2 ^ 16 + i) * 2 ^ 16)
    if n = 0 then none
    else match s.locate s.curTeam.slot s.curTeam.alloc acc (a % 2 ^ 64) (Nat.min (lo + n) ((lo / 2 ^ 16 + i + 1) * 2 ^ 16) - a) with
      | .error (.bad d) => some (d, a % 2 ^ 64)
      | _ => none

/-- Where a graph object is not readable, or not writable: its header, binding table, cards and slot area (R315). -/
def State.objectRefused (s : State) (A : Nat) (g : Graph) : Option (Acc × Nat × Nat) :=
  let parts := [(A, 64), (A + g.bindbase, 8 * g.nbind), (A + g.cardbase, 192 * g.ncards), (A + g.slotbase, 32 * g.pwords)]
  [Acc.read, Acc.write].findSome? fun acc => parts.findSome? fun p => (s.refusedAt acc p.1 p.2).map fun e => (acc, e)

/-- REPLAY (R174, R315, R316). DESIGN CHOICE: an object address that is not a multiple of 64 raises detail 3, as a header that breaks its
layout does; the manual names no cause for it (log 68). -/
def execReplay (n : BitVec 2) (a b : BitVec 6) (st : BitVec 2) (s : State) : Result :=
  gate (.replay n a b st) s fun s =>
    let A := (s.getS a).toNat
    let P := (s.getS b).toNat
    if A % 64 ≠ 0 then s.illegal true 3
    else s.withRecord A 8 fun s v =>
      let g := graphOf v
      if g.bad then s.illegal true 3
      else s.withCounter g.done fun done =>
        match s.objectRefused A g with
        | some (acc, d, a) => s.violateUniform d a acc
        | none => s.withRecord (A + g.bindbase) g.nbind fun s bs =>
          match s.checkBindings A g (numbersOf bs 8 g.nbind) with
          | (_, some stopped) => stopped
          | (s, none) =>
            match s.locate s.curTeam.slot s.curTeam.alloc .write A 8 with
            | .error .absent => s.parkUniform A .write false
            | _ => match (List.range 4).find? fun i => !bit g.busy i with
              | none => (s.setFlags n.toNat false).advance
              | some i =>
                if g.pwords ≠ 0 ∧ P % 8 ≠ 0 then s.trapUniform { kind := 4, info := P }
                else s.withRecord P g.pwords fun s patch =>
                  match s.writeSpan (A + g.slotbase + 8 * g.pwords * i) (8 * g.pwords) patch (8 * g.pwords) with
                  | .error e => s.missUniform e.2 e.1 8 .write
                  | .ok s => match s.writeSpan (A + 7) 1 (bits v 63 56 + 2 ^ (4 + i)) 1 with
                    | .error e => s.missUniform e.2 e.1 1 .write
                    | .ok s =>
                      let x : Instance :=
                        { slot := s.curTeam.slot, asid := s.curTeam.asid, object := w64 A, index := i, order := s.nextInst
                          started := false, team := s.cur.team, party := s.cur.party, core := s.curParty.core, done := done
                          step := s.curTeam.step, pc := (s.curParty.lane s.firstLane).pc }
                      (State.setFlags { s with instances := s.instances ++ [x], nextInst := s.nextInst + 1 } n.toNat true).advance

/-- A card with its bindings replaced by their patch words (R316). -/
def patchCard (bindings : List Nat) (card patch v : Nat) : Nat :=
  bindings.foldl (fun v b =>
    if bits b 47 40 = card then
      let o := 8 * bits b 31 16
      v - v / 2 ^ o % 2 ^ 64 * 2 ^ o + patch / 2 ^ (64 * bits b 15 0) % 2 ^ 64 * 2 ^ o
    else v) v

/-- The cards of an instance, read from the object and patched, in ascending card index (R316). -/
def State.instanceCards (s : State) (x : Instance) (g : Graph) (bindings : List Nat) (patch : Nat) : List Nat → Except (Nat × Miss) (List Nat)
  | [] => .ok []
  | c :: rest =>
    let A := x.object.toNat + g.cardbase + 192 * c
    match s.readAs x.slot A 64 64 with
    | .error e => .error e
    | .ok h =>
      let n := 64 + 16 * Nat.min 8 (cardRegions h)
      match s.readAs x.slot A n n with
      | .error e => .error e
      | .ok v => match s.instanceCards x g bindings patch rest with
        | .error e => .error e
        | .ok vs => .ok (patchCard bindings c patch v :: vs)

/-- One card of an instance is received as `task.sub` would submit it; one that R306 refuses runs nothing and sets its done
counter's fault bit (log 17). -/
def State.receiveCard (s : State) (x : Instance) (v : Nat) : State :=
  let c := cardOf v
  let ctx := s.ctx x.slot
  let team := s.team x.team
  let bad := s.cardBad x.asid c || decide (8 < cardRegions v) || (c.outside (if team.live then team.alloc else 0)).isSome
  match ctx.counterOf c.gate, ctx.counterOf c.done, bad with
  | some g, some d, false =>
    s.receiveTask { n := s.freeNumber 0, gen := s.jobGen (c.job x.team), slot := x.slot, asid := x.asid, team := x.team, party := x.party, core := x.core, pc := x.pc
                    step := x.step, job := c.job x.team, regions := c.footprint x.team, edges := [], gate := g, done := d
                    state := .waiting, prog := 0, parkedAt := 0, range := none, inst := some x.order }
  | _, some (some d), _ => (s.faultCounter d x.object).decCounter d
  | _, _, _ => s

/-- Instance `order` is marked as started. -/
def State.markStarted (s : State) (order : Nat) : State :=
  { s with instances := s.instances.map fun (i : Instance) => if i.order = order then { i with started := true } else i }

/-- REPLAY_INSTANCE_START (R316): an instance starts when every earlier instance of its object has completed and as many task
entries are free as it has cards. An object whose header cannot be read then runs nothing (log 17). DESIGN CHOICE: an instance stays
queued, its slot busy, with no fault and no record, while its header has no translation or its binding table, its patch slot or one of
its cards cannot be read; the manual does not say what happens there (log 17). -/
def execReplayInstanceStart (inst : Nat) (s : State) : Result :=
  event s fun s =>
    match s.instances.find? fun i => i.order == inst with
    | none => s
    | some x =>
      let first := s.instances.find? fun i => i.asid == x.asid && i.object == x.object
      if x.started || first != some x then s
      else match s.readAs x.slot x.object.toNat 64 64 with
        | .error (_, .absent) => s
        | .error e =>
          let s := s.markStarted inst
          (match x.done with | some d => s.faultCounter d (w64 e.1) | none => s).endInstance inst
        | .ok v =>
          let g := graphOf v
          if s.freeEntries < g.ncards then s
          else
            let A := x.object.toNat
            match s.readAs x.slot (A + g.bindbase) (8 * g.nbind) (8 * g.nbind),
                s.readAs x.slot (A + g.slotbase + 8 * g.pwords * x.index) (8 * g.pwords) (8 * g.pwords) with
            | .ok bs, .ok patch =>
              match s.instanceCards x g (numbersOf bs 8 g.nbind) patch (List.range g.ncards) with
              | .ok cards =>
                (cards.foldl (fun (s : State) v => s.receiveCard x v) (s.markStarted inst)).endInstance inst
              | .error _ => s
            | _, _ => s

end Sys2Proof.Machine
end

