-- ==== Sys2Proof/Machine/Specials.lean ====
section
/-! DEFINITION. Special registers (R27, R28, R131 to R135) and the words that stop a party or return from a handler
(R186, R187). -/

namespace Sys2Proof.Machine

open Sys2Proof

/-! ### Reading -/

/-- The mask bit of a lane reads 0: it is parked, and was not parked before the handler that its strand runs (R133, R340). -/
def Party.laneParked (p : Party) (l : Nat) : Bool :=
  (p.lane l).wait.isParked && (match p.save with | none => true | some v => !(FMap.get Wait.none v.waits l).isParked)

/-- sr.prog (R133). -/
def Party.prog (p : Party) (W : Nat) : W64 :=
  if p.seq then w64 (2 ^ 32 * p.index + b2n (!p.laneParked 0))
  else
    let n := if W = 64 then 64 else 32
    let mask := ((List.range n).map fun l => if p.laneParked l then 0 else 2 ^ l).sum
    if W = 64 then w64 mask else w64 (2 ^ 32 * p.index + mask)

/-- Special register r of lane l of party k of team t (R132). -/
def State.specialReg (s : State) (t k l r : Nat) : W64 :=
  let T := s.team t
  let P := T.party k
  let L := P.lane l
  match r with
  | 0 => w64 l
  | 1 => w64 (2 ^ 31 * b2n P.seq + partyIndex k)
  | 2 => T.number.setWidth 64
  | 3 => T.launch.setWidth 64
  | 4 => w64 P.core
  | 5 => w64 (dieOf P.core)
  | 6 => T.step.setWidth 64
  | 7 => s.dieCycle (dieOf P.core)
  | 8 => L.fflags.setWidth 64
  | 9 => P.round.setWidth 64
  | 10 => P.prog T.hdr.width
  | 11 => P.stacklim.setWidth 64
  | 12 => P.fault
  | 13 => w64 (2 ^ 16 * T.slot + T.asid.toNat)
  | 14 => w64 (b2n P.priv)
  | 15 => w64 P.index
  | _ => 0

/-! ### Writing (R131, R132, R134) -/

/-- A lane abandons the word at which it is parked (R134). -/
def Lane.abandon (x : Lane) : Lane := { x.next with marked := false }

/-- Mask bits written 1 for parked lanes; what their words have fetched is forgotten (R134). -/
def Party.writeMask (p : Party) (mask : Nat) : Party :=
  let ls := p.active.filter fun l => bit mask (if p.seq then 0 else l) && p.laneParked l
  if ls.isEmpty then p else { p.mapLanes ls fun _ x => x.abandon with fetchBuf := [], peerBuf := [] }

/-- A write of the progress index by or for party k, whose lanes `ls` may stand at a long word: none when the value is
reserved; ignored where they stand at no incomplete word (R134). -/
def State.writeIndex (s : State) (t k : Nat) (ls : List Nat) (v : Nat) : Option State :=
  let P := s.party t k
  match P.incomplete ls with
  | none => some s
  | some e =>
    if e.2 < v then none
    else some (s.setParty t k (P.mapLanes (ls.filter fun l => (P.lane l).units != 0 && (P.lane l).pc == (P.lane e.1).pc) fun _ x =>
      { x with unit := v }))

/-- A write of x to special register r for lanes of party k of team t; `standing` are lanes that may stand at a long word.
None when the value is reserved (R131). -/
def State.writeSpecial (s : State) (t k : Nat) (ls standing : List Nat) (r : Nat) (x : Nat → W64) : Option State :=
  let T := s.team t
  let P := T.party k
  let first := (x (ls.head?.getD 0)).toNat
  match r with
  | 8 => some (s.setParty t k (P.mapLanes ls fun l y => { y with fflags := (x l).setWidth 5 }))
  | 9 => if 4 < first % 8 then none else some (s.setParty t k { P with round := BitVec.ofNat 3 first })
  | 10 =>
    if T.hdr.width = 64 ∧ P.seq = false then some (s.setParty t k (P.writeMask first))
    else (s.writeIndex t k standing (first / 2 ^ 32)).map fun s => s.setParty t k ((s.party t k).writeMask (first % 2 ^ 32))
  | 11 =>
    if T.specialReserved P standing 11 first then none else some (s.setParty t k { P with stacklim := w32 (first % 2 ^ 32) })
  | 12 => if 14 ≤ first / 2 ^ 60 then none else some (s.setParty t k { P with fault := x (ls.head?.getD 0) &&& 0xF0FFFFFFFFFFFFFF#64 })
  | 14 => some (s.setParty t k { P with priv := bit first 0 })
  | 15 => s.writeIndex t k standing (first % 2 ^ 32)
  | _ => some s

/-- MFSR_UNIFORM (R28, R131). -/
def execMfsrUniform (d : BitVec 6) (r : BitVec 10) (st : BitVec 2) (s : State) : Result :=
  gate (.mfsrUniform d r st) s fun s => s.putS d (s.specialReg s.cur.team s.cur.party s.firstLane r.toNat)

/-- MFSR_LANE (R28, R131). -/
def execMfsrLane (d : BitVec 6) (h : BitVec 1) (r : BitVec 10) (st : BitVec 2) (s : State) : Result :=
  gate (.mfsrLane d h r st) s fun s =>
    (s.mapLanes fun l x =>
      x.setReg (64 * h.toNat + d.toNat) ((s.specialReg s.cur.team s.cur.party l r.toNat).setWidth 32)).advance

/-- MTSR_UNIFORM (R28, R131). -/
def execMtsrUniform (d : BitVec 6) (r : BitVec 10) (st : BitVec 2) (s : State) : Result :=
  gate (.mtsrUniform d r st) s fun s =>
    let x := s.getS d
    match s.writeSpecial s.cur.team s.cur.party s.cur.lanes s.standing r.toNat fun _ => x with
    | none => s.illegal true 3
    | some s => s.advance

/-- MTSR_LANE (R28, R131). -/
def execMtsrLane (d : BitVec 6) (h : BitVec 1) (r : BitVec 10) (st : BitVec 2) (s : State) : Result :=
  gate (.mtsrLane d h r st) s fun s =>
    let P := s.curParty
    match s.writeSpecial s.cur.team s.cur.party s.cur.lanes s.standing r.toNat
        fun l => ((P.lane l).rd s.free l (64 * h.toNat + d.toNat)).setWidth 64 with
    | none => s.illegal true 3
    | some s => s.advance

/-! ### Stopping and returning (R186, R187) -/

/-- The word completes: its lanes stand at the next word and have issued. -/
def State.completed (s : State) (i : Instr) : State := (s.advance).settle i (s.uses i) s

/-- The code of `trap` and `brk` (R186). -/
def trapCode (c k : BitVec 6) : Nat := 64 * c.toNat + k.toNat

/-- TRAP (R186). -/
def execTrap (c k : BitVec 6) (st : BitVec 2) (s : State) : Result :=
  gate (.trap c k st) s fun s => (s.completed (.trap c k st)).trapUniform { kind := 13, info := trapCode c k }

/-- BRK (R186, R432). -/
def execBrk (c k : BitVec 6) (st : BitVec 2) (s : State) : Result :=
  gate (.brk c k st) s fun s =>
    ((s.completed (.brk c k st)).mapLanes fun _ x => { x with pass := true }).trapUniform { kind := 9, info := trapCode c k }

/-- HALT (R186): within a skid or a debugger's halt the team goes on stopping as it does. -/
def execHalt (st : BitVec 2) (s : State) : Result :=
  gate (.halt st) s fun s =>
    let s := (s.completed (.halt st)).hold .stopped
    match s.curTeam.halt with
    | .running | .handler _ => (s.endTries s.cur.team) |> fun s => s.setCurTeam { s.curTeam with halt := .halted }
    | _ => s

/-- ERET (R187). -/
def execEret (st : BitVec 2) (s : State) : Result :=
  gate (.eret st) s fun s => if s.curParty.save.isNone then s.illegal true 3 else s.leaveHandler s.cur.team s.cur.party

end Sys2Proof.Machine
end

