-- ==== Sys2Proof/Machine/Steps.lean ====
section
/-! DEFINITION. Steps and the tide (R175, R180, R360 to R365), versions (R176, R177, R290 to R295, R368), and checkpoints
(R178, R383, R384). -/

namespace Sys2Proof.Machine

open Sys2Proof

/-! ### The tide table (R362 to R365) -/

/-- Tide entry e. -/
def State.tideEntry (s : State) (e : Nat) : TideEntry := FMap.get {} s.tide.entries e
/-- Writes tide entry e. -/
def State.setTideEntry (s : State) (e : Nat) (x : TideEntry) : State :=
  { s with tide := { s.tide with entries := FMap.set {} s.tide.entries e x } }
/-- Each tide entry becomes what f makes of it. -/
def State.mapTide (s : State) (f : TideEntry → TideEntry) : State :=
  { s with tide := { s.tide with entries := s.tide.entries.foldl (fun m e => FMap.set {} m e.1 (f e.2)) [] } }

/-- A live or late entry. -/
def TideEntry.covered (e : TideEntry) : Bool := e.state == 0 || e.state == 1

/-- The least step over the covered entries that satisfy p, with D (R365). -/
def State.leastStep (s : State) (p : TideEntry → Bool) : Nat :=
  s.tide.entries.foldl (fun m e => if e.2.covered && p e.2 then Nat.min m e.2.step.toNat else m) s.tide.step.toNat

/-- MinLive() (R365). -/
def State.minLive (s : State) : Nat := s.leastStep fun _ => true

/-- The group serves a context (R360). -/
def State.tideServes (s : State) (asid : BitVec 16) : Bool := s.ctrl.tideEnable && s.ctrl.tideAsid == asid

/-- The lead of step `step` is permitted (R175, R360). -/
def State.leadOk (s : State) (asid : BitVec 16) (step : W32) : Bool :=
  !s.tideServes asid || decide (step.toNat ≤ s.minLive + s.ctrl.lead.toNat)

/-- The device's own entry takes D and the cycle (R364). -/
def State.ownEntry (s : State) : State :=
  s.mapTide fun e => if e.state != 3 && e.module.toNat == s.systemModule then { e with step := s.tide.step, heard := s.dieCycle 0 } else e

/-- D becomes the least sr.step over the entered teams of the group's context, and keeps its value when there is none; a rise is to be
announced while the group is active (R360, R364). -/
def State.updateStep (s : State) : State :=
  match leastOf (((s.teamsOf s.ctrl.tideAsid).filter (·.entered)).map fun t => t.step.toNat) with
  | none => s
  | some d =>
    let old := s.tide.step.toNat
    if d ≤ old then { s with tide := { s.tide with step := w32 d } }
    else State.ownEntry { s with tide := { s.tide with
      step := w32 d, due := s.tide.due || s.ctrl.tideEnable, rises := s.tide.rises + 1 } }

/-- A contribution that this device put before the last rise of D. -/
def State.putBefore (s : State) (h : Nat) (k : Contribution) : Bool :=
  ((s.coll h).ownShares k).any fun x => decide (x.rise < s.tide.rises)

/-- A put of the device made before the last rise of D that its engines have not yet read: a `coll.put` from its issue on, a card
from its start on (R305, R372). -/
def Task.putBefore (k : Task) (rises : Nat) : Bool :=
  match k.job with
  | .contribution _ _ => decide (k.rise < rises) && !(k.entry && (k.state == .waiting || k.state == .ready))
  | _ => false

/-- An event that brings a contribution to its owner's engine or to a port adder of this device. -/
def State.bringsPut (s : State) (t : Turn) : Bool :=
  match t with
  | .event (.collContributionArrival h _ k) | .event (.partialArrival h _ k) => s.putBefore h k
  | _ => false

/-- Bulk or a contribution that the device put before the last rise of D has not yet been received by its owner: in a job, in the
engine, on its way inside the device, in a combining window, or unacknowledged (R364, R421). -/
def State.beaconWaits (s : State) : Bool :=
  (s.fab.unacked.any fun u => u.bulk && decide (u.rise < s.tide.rises))
    || (s.tasks.any fun k => k.putBefore s.tide.rises)
    || (s.colls.any fun (c : Nat × Coll) => c.2.engine.any fun e => s.putBefore c.1 e.2)
    || (s.fab.combining.any fun w => s.putBefore w.handle w.parts)
    || (s.agenda.any s.bringsPut)

/-- A beacon is due: D has risen, or the beat interval has passed (R364). -/
def State.beaconDue (s : State) : Bool :=
  s.ctrl.tideEnable && !s.beaconWaits && (s.tide.due || decide (s.tide.lastBeat + 4096 * s.ctrl.beat.toNat ≤ s.now))

/-- The step that a beacon to an entry carries (R365). -/
def State.beaconStep (s : State) (e : TideEntry) : W32 :=
  if s.ctrl.leader then w32 (s.leastStep fun x => x.agg != e.agg) else s.tide.step

/-- TIDE_BEACON_SEND (R364). -/
def execTideBeaconSend (s : State) : Result :=
  event s fun s =>
    if !s.beaconDue then s
    else
      let s := { s with tide := { s.tide with due := false, lastBeat := s.now } }.ownEntry
      s.tide.entries.foldl (fun (r : State) e =>
        if e.2.state == 3 || e.2.module.toNat == s.systemModule then r
        else r.sendTo e.2.module.toNat false (.beacon e.2.module.toNat (s.beaconStep e.2))) s

/-- TIDE_BEACON_RECEIVE (R363, R364): the entries of the sender's module. -/
def execTideBeaconReceive (module : Nat) (step : W32) (s : State) : Result :=
  event s fun s =>
    if !s.ctrl.tideEnable then s
    else s.mapTide fun e =>
      if e.state == 3 || e.module.toNat != module then e
      else { e with step := step, heard := s.dieCycle 0, silentFrom := s.now, state := if e.state = 1 then 0 else e.state }

/-- TIDE_LATE_EXPIRY (R363). -/
def execTideLateExpiry (entry : Nat) (s : State) : Result :=
  event s fun s =>
    let e := s.tideEntry entry
    if s.ctrl.tideEnable && e.state == 0 && e.module.toNat != s.systemModule
        && decide (e.silentFrom + 4096 * s.ctrl.late.toNat ≤ s.now) then
      s.setTideEntry entry { e with state := 1 }
    else s

/-- TIDE_ABSENT_EXPIRY (R363). -/
def execTideAbsentExpiry (entry : Nat) (s : State) : Result :=
  event s fun s =>
    let e := s.tideEntry entry
    if s.ctrl.tideEnable && e.covered && e.module.toNat != s.systemModule && s.ctrl.absent != 0
        && decide (e.silentFrom + 65536 * s.ctrl.absent.toNat ≤ s.now) then
      s.setTideEntry entry { e with state := 2 }
    else s

/-- A write of TIDECTL (R360); silence counts from the cycle of enabling (R363). -/
def State.writeTidectl (s : State) (v : W64) : State :=
  let c := s.ctrl
  let v := v.toNat
  let on := bit v 16
  let open_ := !c.tideEnable
  let s := { s with ctrl := { c with
    stale := BitVec.ofNat 24 (bits v 63 40), lead := BitVec.ofNat 8 v, tideEnable := on
    tideAsid := if open_ then BitVec.ofNat 16 (bits v 39 24) else c.tideAsid
    leader := if open_ then bit v 17 else c.leader } }
  if on && open_ then
    ({ s with tide := { s.tide with lastBeat := s.now } }.mapTide fun e => { e with silentFrom := s.now }).updateStep
  else s.updateStep

/-- TIDE_ENABLE (R363): a write of TIDECTL that sets enable. -/
def execTideEnable (value : W64) (s : State) : Result :=
  event s fun s => if value.getLsbD 16 && !s.ctrl.tideEnable then s.writeTidectl value else s

/-- Bits of word 0 of a tide entry (R362). -/
def TideEntry.word (e : TideEntry) : Nat :=
  2 ^ 62 * e.state.toNat + 2 ^ 61 * b2n e.agg + 2 ^ 32 * e.module.toNat + e.step.toNat

/-- TIDE_RD (R180). -/
def execTideRd (d a : BitVec 6) (m : BitVec 5) (st : BitVec 2) (s : State) : Result :=
  gate (.tideRd d a m st) s fun s =>
    let x := (s.getS a).toNat
    if m = 2 then
      s.putS d (w64 (s.minLive + 2 ^ 32 * (s.tide.entries.filter fun e => e.2.covered).length))
    else if 2 ^ 12 ≤ x then s.illegal true 3
    else
      let e := s.tideEntry x
      if m = 1 then s.putS d e.heard else s.putS d (w64 ({ e with agg := false } : TideEntry).word)

/-! ### `step.enter` (R175) -/

/-- Strands of a team with lanes that have not exited. -/
def Team.strands (T : Team) : List Nat := (T.parties.filter fun (e : Nat × Party) => !e.2.seq && !e.2.active.isEmpty).map (·.1)

/-- The step with which a strand waits at `step.enter` for its team. -/
def Party.stepOf (p : Party) : Option W32 :=
  p.active.head?.bind fun l => match (p.lane l).wait with | .stepTeam x => some x | _ => none

/-- Every strand of the team has come to `step.enter`. -/
def Team.stepMet (T : Team) : Bool := T.strands.all fun k => (T.party k).stepOf.isSome

/-- Every strand of the team takes a trap at its `step.enter`, in the order of R339. -/
def State.trapTeam (s : State) (c : Cause) : State :=
  let cur := s.cur
  let r := s.curTeam.strands.foldl (fun (r : State) k =>
    State.trapUniform { r with cur := { r.cur with party := k, lanes := (r.party cur.team k).active, trapped := false } } c) s
  { r with cur := { cur with trapped := r.cur.trapped } }

/-- The strand waits until the permitted lead covers its step (R175). -/
def State.awaitLead (s : State) (step : W32) : State :=
  if s.leadOk s.curTeam.asid step then s.advance else s.hold (.stepLead step)

/-- The rendezvous of the strands of a team: unequal or falling steps trap, a pending verdict is taken, or the step is
entered and announced (R175, R364). -/
def State.meetStep (s : State) (step : W32) : State :=
  let T := s.curTeam
  if !T.stepMet then s
  else if (T.strands.any fun k => (T.party k).stepOf != some step) || decide (step < T.step) then s.trapTeam { kind := 1, detail := 3 }
  else match s.tide.verdicts.find? fun v => v.1 == T.asid with
    | some v => State.trapTeam { s with tide := { s.tide with verdicts := s.tide.verdicts.erase v } } { kind := if v.2 then 8 else 7 }
    | none =>
      let wake := fun (x : Lane) => match x.wait with | .stepTeam y => { x with wait := .stepLead y } | _ => x
      let T := { T.mapLanes wake with step := if T.step < step then step else T.step, entered := true }
      let s := s.setCurTeam T
      s.updateStep.awaitLead step

/-- STEP_ENTER (R175). -/
def execStepEnter (a : BitVec 6) (st : BitVec 2) (s : State) : Result :=
  gate (.stepEnter a st) s fun s =>
    let x := (s.getS a).toNat
    let arrive := fun (s : State) =>
      if 2 ^ 32 ≤ x then s.illegal true 3 else (s.hold (.stepTeam (w32 x))).meetStep (w32 x)
    if s.curParty.seq then
      if 2 ^ 32 ≤ x then s.illegal true 3
      else if x ≤ s.curTeam.step.toNat then s.advance else s.hold (.stepLead (w32 x))
    else match s.curWait with
      | .stepLead y => s.awaitLead y
      | .stepTeam y => s.meetStep y
      | _ => s.rendezvous arrive

/-! ### Publication (R176, R293) -/

/-- Parked lanes that wait for a version are to look again (R368). -/
def State.wakeVersions (s : State) : State :=
  { s with teams := s.teams.map fun (e : Nat × Team) => (e.1, e.2.mapLanes fun x =>
      match x.wait with | .parked _ true => { x with marked := true } | _ => x) }

/-- An access directed to a frame is still unperformed: an engine job's, one of a saved context among them (R291, R293, R314). -/
def State.frameBusy (s : State) (npa f : Nat) : Bool :=
  (s.tasks ++ s.images.flatMap fun (e : Nat × Image) => e.2.tasks).any fun t => t.frames.any fun d => d == (npa, some f)

/-- The open frame of a step on a ring. -/
def State.openFrameOf (s : State) (npa step : Nat) : Option Frame :=
  (s.frames npa).find? fun f => f.code == 1 && f.step == step

/-- Publishes the open frame of a step, once every access directed to it is performed (R293). -/
def State.publish (s : State) (npa : Nat) (step : W32) : State :=
  match s.openFrameOf npa step.toNat with
  | none => { s with publishing := s.publishing.erase (npa, step) }
  | some f =>
    if s.frameBusy npa f.index then
      if s.publishing.contains (npa, step) then s else { s with publishing := s.publishing ++ [(npa, step)] }
    else State.wakeVersions ({ s with publishing := s.publishing.erase (npa, step) }.putFrame npa { f with code := 2 })

/-- STEP_PUB (R176). -/
def execStepPub (a : BitVec 6) (st : BitVec 2) (s : State) : Result :=
  gate (.stepPub a st) s fun s =>
    let x := (s.getS a).toNat
    if 2 ^ 32 ≤ x then s.illegal true 3
    else ((s.rings.filter fun r => s.ringOk r && s.ringOwner r == some s.curTeam.asid).foldl
      (fun (s : State) r => s.publish r (w32 x)) s).advance

/-- FRAME_PUBLISH (R293). -/
def execFramePublish (ring : Nat) (step : W32) (s : State) : Result :=
  event s fun s => if s.publishing.contains (ring, step) then s.publish ring step else s

/-- VER_OPEN (R177). -/
def execVerOpen (a : BitVec 6) (st : BitVec 2) (s : State) : Result :=
  gate (.verOpen a st) s fun s =>
    let A := (s.getS a).toNat
    let T := s.curTeam
    match s.locate T.slot T.alloc .write A 1 with
    | .ok (.ring npa _) => match s.writeFrame T.asid npa T.step.toNat with
      | .ok (s, _) => s.advance
      | .error m => s.missUniform (.miss m) A 1 .write
    | .ok _ => s.violateUniform 6 A .write
    | .error m => s.missUniform (.miss m) A 1 .write

/-- A parked write of a lane or context would find a frame now (R292). -/
def State.frameReady (s : State) (slot : Nat) (step : W32) (va : Nat) : Bool :=
  match s.locate slot 0 .write va 1 with
  | .ok (.ring npa _) => !s.ringOk npa || (s.frameToOpen npa).isSome || (s.frames npa).any fun f => f.code != 0 && f.step == step.toNat
  | _ => true

/-- The word at which a lane stands reads versions: `ldv` or `ldv.tag`. -/
def State.readsVersion (s : State) (t k l : Nat) : Bool :=
  match s.wordAt t k l with
  | some (.ldv ..) | some (.ldvTag ..) => true
  | _ => false

/-- FRAME_OPEN_RETRY (R292): a frame has become free or recyclable, and the parked writers of a party, or its parked jobs, go
on. -/
def execFrameOpenRetry (team party : Nat) (s : State) : Result :=
  event s fun s =>
    let T := s.team team
    let P := T.party party
    let ls := P.active.filter fun l => (match (P.lane l).wait with
      | .parked a true => !s.readsVersion team party l && s.frameReady T.slot T.step a.toNat
      | _ => false)
    let s := s.setParty team party (P.mapLanes ls fun _ x => { x with marked := true })
    { s with tasks := s.tasks.map fun t =>
        if t.team == team && t.party == party && t.state == .parked && t.quiet && s.frameReady t.slot t.step t.parkedAt.toNat then
          { t with state := .running, quiet := false } else t }

/-- Cycles that a lane has been parked under R368. -/
def State.staleCycles (s : State) (x : Lane) : Nat := x.staleCount.getD 0 + (match x.staleSince with | none => 0 | some c => s.now - c)

/-- Whether a lane's staleness fault is due (R368). -/
def State.staleDue (s : State) (t k l : Nat) : Bool :=
  let T := s.team t
  let x := (T.party k).lane l
  T.live && T.resident && (T.halt == .running) && s.ctrl.stale != 0
    && x.wait.isParked && x.staleCount.isSome
    && decide (1024 * s.ctrl.stale.toNat ≤ s.staleCycles x)

/-- STALENESS_FAULT (R368). -/
def execStalenessFault (team party lane : Nat) (s : State) : Result :=
  event s fun s =>
    if !s.staleDue team party lane then s
    else
      let info := match ((s.party team party).lane lane).wait with | .parked a _ => a.toNat | _ => 0
      let s := s.setLane team party lane { (s.party team party).lane lane with staleCount := none, staleSince := none }
      State.takeTrap { s with cur := { team := team, party := party, lanes := [lane] } } [lane] lane { kind := 6, info := info }

/-! ### Checkpoints (R178, R383, R384) -/

/-- Checkpoint n. -/
def State.ckpt (s : State) (n : Nat) : Ckpt := FMap.get {} s.ckpts n

/-- A checkpoint record breaks R383. DESIGN CHOICE: of a kind-1 target, of which R383 gives [15:0] alone, the bits above count as
reserved (log 57). -/
def ckptBad (v : Nat) : Bool :=
  bits v 15 0 != 0x4B43 || bits v 31 20 != 0 || bits v 63 45 != 0 || bits v 511 256 != 0 || decide (1 < bits v 19 16)
    || bits v 44 32 == 0 || decide (4096 < bits v 44 32)
    || (if bits v 19 16 = 0 then bits v 191 128 % 4096 != 0 || bits v 191 184 != 1 else bits v 191 144 != 0)

/-- The newest published frame of each page of a list: ring and step; or where and why a page has none (R384). -/
def State.freezePages (s : State) (slot : Nat) : List Nat → Except (Nat × Miss) (List (Nat × W32))
  | [] => .ok []
  | p :: rest =>
    match s.locate slot 0 .read p 1 with
    | .error m => .error (p, m)
    | .ok (.ring npa _) =>
      if !s.ringOk npa then .error (p, .bad 12)
      else match newestOf (s.published npa) with
        | none => .error (p, .bad 6)
        | some f => match s.freezePages slot rest with
          | .error e => .error e
          | .ok fs => .ok ((npa, w32 f.step) :: fs)
    | .ok _ => .error (p, .bad 6)

/-- The destination of a checkpoint's stream: a module of the pod, or a stream sink (R383, R414). -/
def Ckpt.destination (c : Ckpt) (pod : Nat) : Nat :=
  if c.kind = 0 then 1024 * pod + bits c.target.toNat 55 46 else sinkOf c.target.toNat

/-- The frames of a checkpoint are written into this module itself. -/
def State.ckptIsHere (s : State) (c : Ckpt) : Bool := c.kind == 0 && bits c.target.toNat 55 46 == s.module

/-- The manifest as a number: one 8-byte entry per page (R384). -/
def Ckpt.manifest (c : Ckpt) : Nat := packBytes 8 (c.frames.map fun f => f.2.toNat)

/-- The bytes of a pinned frame, which stay as they were at its publication (R293, R384), as a program reads them (R257). -/
def State.pinnedBytes (s : State) (f : Nat × W32) : Except Miss Nat :=
  match ((s.published f.1).find? fun g => g.step == f.2.toNat).map fun g => s.framePlace f.1 g.index 0 with
  | some (.ok p) => s.fetchPlace p (2 ^ 21)
  | some (.error m) => .error m
  | none => .error .frame

/-- The drain engine could not read a frame: an uncorrectable error is counted (R351, R458). -/
def State.countMiss (s : State) (m : Miss) : State := if m = .bad 4 then s.countUncorrected else s

/-- n bytes of a checkpoint's stream leave; where they cannot be read, the drain is broken. -/
def State.streamUnit (s : State) (c : Ckpt) (off n : Nat) (v : Except Miss Nat) : State × Ckpt :=
  if c.broken then (s, c)
  else match v with
    | .error m => (s.countMiss m, { c with broken := true })
    | .ok v =>
      let m := c.destination s.pod
      (s.sendUnit m true s.tide.rises (.stream (s.ctx c.slot).asid c.target c.kind off n v) (kind := 2)
      , { c with units := c.units ++ [(m, (s.nextUnit m 2).1)] })

/-- The stream of a checkpoint has a way to its target (R384, R414, R424). -/
def State.ckptReaches (s : State) (c : Ckpt) : Bool :=
  !c.broken && (if c.kind = 0 then !s.lost (c.destination s.pod)
    else s.ctrl.ueptValid && s.endpointKind (c.destination s.pod) == 2)

/-- The drain engine streams the pinned frames in list order, then the manifest (R384). -/
def State.startDrain (s : State) (c : Ckpt) : State × Ckpt :=
  if s.ckptIsHere c then (s, c)
  else if !s.ckptReaches c then (s, { c with broken := true })
  else
    let r := c.frames.zipIdx.foldl (fun (r : State × Ckpt) f =>
      r.1.streamUnit r.2 (2 ^ 21 * f.2) (2 ^ 21) (r.1.pinnedBytes f.1)) (s, c)
    r.1.streamUnit r.2 (2 ^ 21 * c.frames.length) (8 * c.frames.length) (.ok c.manifest)

/-- CKPT_FREEZE (R178, R384). DESIGN CHOICE: the checkpoint takes the lowest number that does not drain, and a record that is not
aligned to 64 bytes counts as a reserved one (log 57). -/
def execCkptFreeze (d a : BitVec 6) (st : BitVec 2) (s : State) : Result :=
  gate (.ckptFreeze d a st) s fun s =>
    let A := (s.getS a).toNat
    if A % 64 ≠ 0 then s.illegal true 3
    else s.withRecord A 8 fun s v =>
      if ckptBad v then s.illegal true 3
      else s.withCounter (bits v 255 192) fun done =>
        if bits v 127 64 % 8 ≠ 0 then s.trapUniform { kind := 4, info := bits v 127 64 }
        else s.withRecord (bits v 127 64) (bits v 44 32) fun s ps =>
          let pages := numbersOf ps 8 (bits v 44 32)
          if pages.any fun p => p % 2 ^ 21 != 0 then s.illegal true 3
          else match s.freezePages s.curTeam.slot pages with
            | .error (p, m) => s.missUniform (.miss m) p 1 .read
            | .ok fs => match (List.range 16).find? fun n => (s.ckpt n).state != 1 with
              | none => s.putS d (-1)
              | some n =>
                let s := fs.foldl (fun (s : State) f => s.addPins f.1 f.2.toNat 1) s
                let r := s.startDrain { state := 1, slot := s.curTeam.slot, kind := bits v 19 16, target := w64 (bits v 191 128)
                                        frames := fs, done := done }
                State.putS { r.1 with ckpts := FMap.set {} r.1.ckpts n r.2 } d (w64 n)

/-- CKPT_STAT (R178). -/
def execCkptStat (d a : BitVec 6) (st : BitVec 2) (s : State) : Result :=
  gate (.ckptStat d a st) s fun s =>
    let c := s.ckpt ((s.getS a).toNat % 16)
    s.putS d (w64 (2 ^ 62 * c.state.toNat + s.ckptBytes c % 2 ^ 48))

/-- Bytes that a checkpoint streams: its frames and the manifest (R384). -/
def Ckpt.total (c : Ckpt) : Nat := (2 ^ 21 + 8) * c.frames.length

/-- A checkpoint whose target is this module writes its frames and manifest here, under the context's own tables (R267, R384). -/
def State.ckptHere (s : State) (c : Ckpt) : State × Bool :=
  let base := c.target.toNat % 2 ^ 46
  let r := c.frames.zipIdx.foldl (fun (r : State × Bool) f =>
    match r.1.pinnedBytes f.1 with
    | .ok v =>
      let q := r.1.writeAs c.slot (base + 2 ^ 21 * f.2) (2 ^ 21) v (2 ^ 21)
      (q.1, r.2 || q.2.isSome)
    | .error m => (r.1.countMiss m, true)) (s, false)
  let q := r.1.writeAs c.slot (base + 2 ^ 21 * c.frames.length) (8 * c.frames.length) c.manifest (8 * c.frames.length)
  (q.1, r.2 || q.2.isSome)

/-- Some bytes of a checkpoint's stream are not yet known to be performed (R384, R423). -/
def State.ckptAwaits (s : State) (c : Ckpt) : Bool :=
  s.fab.unacked.any fun u => c.units.any fun x => x.1 == u.module && x.2 == u.number

/-- The drain of checkpoint n ends: its pins are released, its counter is decremented (R384), and vector 6 is raised (R447). -/
def State.endCkpt (s : State) (n : Nat) (failed : Bool) : State :=
  let c := s.ckpt n
  let drained := if failed then s.ckptBytes c else c.total
  let s := c.frames.foldl (fun (s : State) f => s.addPins f.1 f.2.toNat (-1)) s
  let s := { s with ckpts := FMap.set {} s.ckpts n { c with
    state := if failed then 3 else 2, bytes := drained, frames := [], done := none, units := [] } }
  let s := s.raiseVector 6
  match c.done with
  | none => s
  | some k => (if failed then s.faultCounter k c.target else s).decCounter k

/-- CKPT_DRAIN_END (R384): the drain ends done, once its last byte has been performed, or failed. -/
def execCkptDrainEnd (ckpt : Nat) (failed : Bool) (s : State) : Result :=
  event s fun s =>
    let c := s.ckpt ckpt
    if c.state ≠ 1 then s
    else if failed || c.broken then s.endCkpt ckpt true
    else if s.ckptIsHere c then
      let r := s.ckptHere c
      r.1.endCkpt ckpt r.2
    else if s.ckptAwaits c then s else s.endCkpt ckpt false

end Sys2Proof.Machine
end

