-- ==== Sys2Proof/Machine/Patterns.lean ====
section
/-! DEFINITION. The pattern and the stash (R182 to R185, R393 to R402). -/

namespace Sys2Proof.Machine

open Sys2Proof

/-! ### Entries (R395) -/

/-- A pattern entry as fields. -/
structure Entry where
  index : Nat
  sigv : Bool
  tag : Nat
  dinput : Bool
  dstash : Bool
  ddown : Bool
  dver : Bool
  dcoll : Bool
  sigmod : Nat
  sigidx : Nat
  counter : Nat
  word0 : W64
  param : W64
  kernel : Nat
  launch : W64
  deriving DecidableEq, Repr

/-- The fields of an entry. -/
def entryFields (x : BitVec 256) : Entry :=
  let v := x.toNat
  { index := bits v 7 0, sigv := bit v 11, tag := bits v 19 12, dinput := bit v 28, dstash := bit v 29, ddown := bit v 30
    dver := bit v 31, dcoll := bit v 32, sigmod := bits v 42 33, sigidx := bits v 50 43, counter := bits v 62 51
    word0 := w64 v, param := w64 (v / 2 ^ 64), kernel := bits v 191 128, launch := w64 (bits v 255 192) }

/-- Entry i of an image breaks R395. -/
def entryBad (i : Nat) (x : BitVec 256) : Bool :=
  let e := entryFields x
  e.index != i || decide (4 < bits x.toNat 10 8) || (!e.sigv && (e.sigidx != 0 || e.sigmod != 0)) || bit x.toNat 63
    || (e.kernel == 0 && e.launch != 0) || (e.kernel != 0 && (e.dstash || e.ddown))

/-! ### Messages (R396, R398) -/

/-- A message is dropped and counted (R398, R424). -/
def State.dropMessage (s : State) : State :=
  if s.pat.lost < 255 then State.raiseVector { s with pat := { s.pat with lost := s.pat.lost + 1 } } 7 else s

/-- The pattern is active and serves a context (R393). -/
def State.patServes (s : State) (asid : BitVec 16) : Bool := s.ctrl.patEnable && s.ctrl.patAsid == asid

/-- A signal for an index arrives (R396, R398). -/
def State.signalArrives (s : State) (asid : BitVec 16) (index : Nat) : State :=
  if s.patServes asid then
    { s with pat := { s.pat with
      arrivals := FMap.set 0 s.pat.arrivals (index % 256) (satAdd 255 (FMap.get 0 s.pat.arrivals (index % 256)) 1) } }
  else s.dropMessage

/-- A free-slot credit arrives (R396, R398). -/
def State.creditArrives (s : State) (asid : BitVec 16) : State :=
  if s.patServes asid ∧ s.pat.credit < 255 then { s with pat := { s.pat with credit := s.pat.credit + 1 } } else s.dropMessage

/-- A pattern message leaves for a module of the pod, this one included (R398, R424). -/
def State.sendPattern (s : State) (m : Nat) (here : State → State) (p : Packet) : State :=
  if m = s.module then here s
  else if s.reaches (1024 * s.pod + m) then s.sendUnit (1024 * s.pod + m) false s.tide.rises p
  else s.dropMessage

/-- PATTERN_SIGNAL_RECEIVE (R396). -/
def execPatternSignalReceive (asid : BitVec 16) (index : Nat) (s : State) : Result :=
  event s fun s => s.signalArrives asid index

/-- CREDIT_RECEIVE (R396). -/
def execCreditReceive (asid : BitVec 16) (s : State) : Result :=
  event s fun s => s.creditArrives asid

/-! ### The head (R396, R397) -/

/-- The head entry, unless every entry has been handed out. -/
def State.patHead (s : State) : Option Entry := (s.pat.entries[s.pat.head]?).map entryFields

/-- Slot i of the stash. -/
def Pattern.slot (p : Pattern) (i : Nat) : Slot := FMap.get .free p.slots i
/-- Writes slot i. -/
def Pattern.setSlot (p : Pattern) (i : Nat) (x : Slot) : Pattern := { p with slots := FMap.set .free p.slots i x }
/-- The lowest slot that satisfies f. -/
def Pattern.findSlot (p : Pattern) (f : Slot → Bool) : Option Nat := (List.range 64).find? fun i => f (p.slot i)

/-- The gate counter of an entry reads 0, in the grant of the served context (R396). DESIGN CHOICE: while that context is saved off the
device the dependence is unmet, as its counters are (log 73). -/
def State.patGate (s : State) (i : Nat) : Bool :=
  match s.slotOf s.ctrl.patAsid with
  | none => false
  | some k => match (s.ctx k).counterAt i with
    | none => false
    | some c => (s.counter c).value == 0

/-- The first unmet dependence of an entry in the order of R396. -/
def State.patUnmet (s : State) (e : Entry) : Option Nat :=
  if e.dinput && FMap.get 0 s.pat.arrivals e.index == 0 then some 0
  else if e.dstash && (s.pat.findSlot (· == .free)).isNone then some 1
  else if e.ddown && s.pat.credit == 0 then some 2
  else if e.dver && !s.tags.any (fun r => r.asid == s.ctrl.patAsid && r.tag.toNat == e.tag) then some 3
  else if e.dcoll && !s.patGate e.counter then some 4
  else none

/-- What a hand-out consumes (R396, R399); the entry is outstanding. -/
def State.patConsume (s : State) (e : Entry) : State :=
  let p := s.pat
  let p := if e.dinput then { p with arrivals := FMap.set 0 p.arrivals e.index (FMap.get 0 p.arrivals e.index - 1) } else p
  let p := if e.dstash then (match p.findSlot (· == .free) with
    | some i => p.setSlot i (.reserved (BitVec.ofNat 8 e.tag) e.index)
    | none => p) else p
  let p := if e.ddown then { p with credit := p.credit - 1 } else p
  { s with pat := { p with head := p.head + 1, outstanding := p.outstanding ++ [e.index] } }

/-- Lanes of a strand that wait together at `pat.next`: since when, their core, strand, team, register pair, stall bits, and the lowest
of them. -/
structure Waiter where
  since : Nat
  core : Nat
  party : Nat
  team : Nat
  d : Nat
  st : BitVec 2
  lane : Nat
  deriving DecidableEq, Repr

/-- Lanes of a party that wait at `pat.next` with lane l: at the same word, since the same cycle. -/
def Party.waitingWith (p : Party) (l : Nat) : List Nat :=
  p.active.filter fun m => (p.lane m).wait == (p.lane l).wait && (p.lane m).pc == (p.lane l).pc

/-- The waiters of a party of a team. -/
def Party.patWaiters (p : Party) (t k : Nat) : List Waiter :=
  p.active.filterMap fun l => match (p.lane l).wait with
    | .patNext c d st =>
      if (p.waitingWith l).head? = some l then some { since := c, core := p.core, party := k, team := t, d := d, st := st, lane := l } else none
    | _ => none

/-- Every waiter of the served context on the device: strands of halted, pre-empted and saved teams wait on (R200, R344, R397). -/
def State.patWaiters (s : State) : List Waiter :=
  s.teams.flatMap fun (t, T) =>
    if T.live && T.asid == s.ctrl.patAsid then T.parties.flatMap fun (k, P) => P.patWaiters t k else []

/-- A waiter goes before another: it has waited longer, then ascending sr.coreid, then ascending strand (R397). -/
def Waiter.before (x y : Waiter) : Bool :=
  decide (x.since < y.since ∨ (x.since = y.since ∧ (x.core < y.core ∨ (x.core = y.core ∧ x.party < y.party))))

/-- The waiter that is served next (R397). -/
def State.patNextWaiter (s : State) : Option Waiter :=
  s.patWaiters.foldl (fun b x => match b with
    | none => some x
    | some y => if x.before y then some x else some y) none

/-- Waiting lanes receive the two words of `pat.next` and have issued it (R17, R53, R183). -/
def Party.takePair (p : Party) (now : Nat) (ls : List Nat) (d : Nat) (st : BitVec 2) (a b : W64) : Party :=
  ((p.setSreg d a).setSreg (d + 1) b).mapLanes ls fun _ x => Lane.issued now { dests := [.s d, .s (d + 1)] } st p x x.next

/-- A waiter receives the two words of `pat.next` and goes on. -/
def State.patGive (s : State) (w : Waiter) (a b : W64) : State :=
  let P := s.party w.team w.party
  let ls := P.waitingWith w.lane
  let s' := s.setParty w.team w.party (P.takePair s.now ls w.d w.st a b)
  if (s.team w.team).mayIssue w.party then s'.countIssue w.team w.party ls else s'

/-- The waiting lanes of a party receive that no entry remains (R183, R394). -/
def Party.patNone (p : Party) (now : Nat) : Party :=
  p.active.foldl (fun (q : Party) l => match (q.lane l).wait with
    | .patNext _ d st => q.takePair now (q.waitingWith l) d st (-1) 0
    | _ => q) p

/-- The waiting strands of a team receive that no entry remains. -/
def Team.patNone (T : Team) (now : Nat) : Team := { T with parties := T.parties.map fun (e : Nat × Party) => (e.1, e.2.patNone now) }

/-- Every waiting strand of the served context receives that no entry remains, saved ones too (R183, R394). -/
def State.patGiveNone (s : State) : State :=
  let asid := s.ctrl.patAsid
  { s with
    teams := s.teams.map fun (e : Nat × Team) => if e.2.asid == asid then (e.1, e.2.patNone s.now) else e
    images := s.images.map fun (e : Nat × Image) =>
      if e.2.asid == asid then (e.1, { e.2 with teams := e.2.teams.map fun (p : Nat × Team) => (p.1, p.2.patNone s.now) }) else e }

/-- What the dispatcher's answer makes of the head that names a kernel: a refusal leaves the entry outstanding and stops the hand-out, and
a full queue lets it wait (R397, R464). -/
def State.patLaunched (e : Entry) (r : State × LaunchEnd) : State :=
  match r with
  | (s, .enqueued _) => { s.patConsume e with pat := { (s.patConsume e).pat with header64 := none } }
  | (s, .result 2) => s
  | (s, _) =>
    let s := s.patConsume e
    State.raiseVector { s with pat := { s.pat with err := true, stopped := true, header64 := none } } 7

/-- The head's kernel is handed to the dispatcher. DESIGN CHOICE: a header in a peer window is read first by a request on the channel of the
core that issued `pat.ld`, which placement takes for the issuing one, and the hand-out waits for its answer (R397, R464, log 16). -/
def State.patLaunch (s : State) (e : Entry) : State :=
  match s.slotOf s.ctrl.patAsid with
  | none => s
  | some k =>
    let queue := (s.ctx k).queueAt (bits e.launch.toNat 37 32)
    let params := fun (n : Nat) => if n = 0 then [] else [e.param]
    let src : LaunchSrc := .pattern e.index s.pat.ldCore s.pat.gen
    match s.pat.header64, (s.ctx k).launchQueue e.launch e.kernel queue with
    | some none, _ => State.patLaunched e (s, .result 3)
    | some (some v), some q => State.patLaunched e (s.launchHeader k e.kernel q v e.launch 1 params src)
    | none, some _ =>
      if s.asking 65 then s
      else match s.locate k 0 .read e.kernel 8 with
        | .ok (.peer m a) => s.askHeader s.pat.ldCore 65 k e.kernel m a
        | _ => State.patLaunched e (s.launchAs k e.kernel e.launch queue 1 params src s.pat.ldCore 0 false)
    | _, none => State.patLaunched e (s, .result 1)

/-- The pattern's head is another: no answer for it comes any more. -/
def State.forgetHead (s : State) : State := { s with pat := { s.pat with header64 := none } }.forgetHeader 65

/-- PATTERN_HANDOUT (R397): the ready head goes to a waiting strand or to the dispatcher; when none remains, waiting strands
learn so (R183). -/
def execPatternHandout (s : State) : Result :=
  event s fun s =>
    if !s.ctrl.patEnable then s
    else match s.patHead with
      | none => s.patGiveNone
      | some e =>
        if s.pat.stopped || (s.patUnmet e).isSome then s
        else if e.kernel ≠ 0 then s.patLaunch e
        else match s.patNextWaiter with
          | none => s
          | some w => (s.patConsume e).patGive w e.word0 e.param

/-- One cycle of the bubble counters (R401). -/
def State.countBubble (s : State) : State :=
  if !s.ctrl.patEnable then s
  else match s.patHead with
    | none => s
    | some e => match s.patUnmet e with
      | none => s
      | some k =>
        if e.kernel ≠ 0 ∨ !s.patWaiters.isEmpty then
          { s with pat := { s.pat with bubbles := FMap.set 0 s.pat.bubbles k (FMap.get 0 s.pat.bubbles k + 1) } }
        else s

/-! ### Retirement and configuration (R184, R394, R399) -/

/-- An entry is retired: its unbound reservation is released and its signal is sent (R184, R397, R399). -/
def State.patRetire (s : State) (i : Nat) : State :=
  let p := s.pat
  let p := { p with outstanding := p.outstanding.erase i }
  let p := (List.range 64).foldl (fun (p : Pattern) j => match p.slot j with
    | .reserved _ k => if k = i then p.setSlot j .free else p
    | _ => p) p
  let s := { s with pat := p }
  match (s.pat.entries[i]?).map entryFields with
  | none => s
  | some e =>
    if e.sigv then s.sendPattern e.sigmod (·.signalArrives s.ctrl.patAsid e.sigidx) (.signal e.sigmod s.ctrl.patAsid e.sigidx) else s

/-- Enabling (R394). -/
def State.patOn (s : State) : State :=
  { s.forgetHead with pat := { s.pat with
    credit := s.ctrl.credit.toNat, arrivals := [], slots := [], entries := [], head := 0, outstanding := [], stopped := false
    header64 := none, gen := s.pat.gen + 1 } }

/-- Disabling (R394). -/
def State.patOff (s : State) : State :=
  { s.forgetHead with pat := { s.pat with
    entries := [], head := 0, outstanding := [], slots := [], stopped := false, header64 := none, gen := s.pat.gen + 1 } }.patGiveNone

/-- A write of PATCFG (R393, R394). -/
def State.writePatcfg (s : State) (v : W64) : State :=
  let c := s.ctrl
  let v := v.toNat
  let was := c.patEnable
  let on := bit v 0
  let s := { s with ctrl := { c with
    upv := bit v 37, upmod := BitVec.ofNat 10 (bits v 36 27), credit := BitVec.ofNat 8 (bits v 19 12), patEnable := on
    patAsid := if was then c.patAsid else BitVec.ofNat 16 (bits v 63 48)
    ssize := if was then c.ssize else BitVec.ofNat 4 (bits v 23 20) } }
  if on && !was then s.patOn else if was && !on then s.patOff else s

/-- PATCFG_ENABLE (R394). -/
def execPatcfgEnable (value : W64) (s : State) : Result :=
  event s fun s => if value.getLsbD 0 && !s.ctrl.patEnable then s.writePatcfg value else s

/-- PATCFG_DISABLE (R394). -/
def execPatcfgDisable (value : W64) (s : State) : Result :=
  event s fun s => if !value.getLsbD 0 && s.ctrl.patEnable then s.writePatcfg value else s

/-! ### Pattern words (R182 to R184) -/

/-- A pattern or stash word acts for the served context only (R393). -/
def State.onPattern (s : State) (k : State) : State :=
  if s.patServes s.curTeam.asid then k else s.trapUniform { kind := 5, detail := 13 }

/-- The 256-bit entries of an image. -/
def entriesOf (v n : Nat) : List (BitVec 256) := (List.range n).map fun i => BitVec.ofNat 256 (v / 2 ^ (256 * i))

/-- PAT_LD (R182). DESIGN CHOICE: a reserved count goes before the access violation of R393 (log 76). -/
def execPatLd (n : BitVec 2) (a b : BitVec 6) (st : BitVec 2) (s : State) : Result :=
  gate (.patLd n a b st) s fun s =>
    let A := (s.getS a).toNat
    let count := (s.getS b).toNat
    if count = 0 ∨ 256 < count then s.illegal true 3
    else s.onPattern (
      if A % 8 ≠ 0 then s.trapUniform { kind := 4, info := A }
      else if s.pat.stopped || !s.pat.outstanding.isEmpty then (s.setFlags n.toNat false).advance
      else s.withRecord A (4 * count) fun s v =>
        let es := entriesOf v count
        if es.zipIdx.any fun e => entryBad e.2 e.1 then s.illegal true 3
        else if es.any fun e => (entryFields e).dcoll && (s.curCtx.counterAt (entryFields e).counter).isNone then
          s.trapUniform { kind := 5, detail := 7 }
        else
          let p := { s.pat with entries := es, head := 0, outstanding := [], bubbles := [], ldCore := s.curParty.core, stopped := false
                                header64 := none, gen := s.pat.gen + 1 }
          (State.setFlags { s.forgetHead with pat := p } n.toNat true).advance)

/-- `pat.next` gives two words and goes on. -/
def State.pairOut (s : State) (d : BitVec 6) (a b : W64) : State := ((s.setS d.toNat a).setS (d.toNat + 1) b).advance

/-- `pat.next` takes the head when it is ready and nobody waits for it, or waits (R183, R397). -/
def State.patTake (s : State) (d : BitVec 6) (st : BitVec 2) : State :=
  match s.patHead with
  | none => s.pairOut d (-1) 0
  | some e =>
    if e.kernel = 0 && (s.patUnmet e).isNone && !s.pat.stopped && s.patWaiters.isEmpty then (s.patConsume e).pairOut d e.word0 e.param
    else s.hold (.patNext s.now d.toNat st)

/-- PAT_NEXT (R183): lanes that a handler kept from seeing their pattern discarded learn of it here (R394). -/
def execPatNext (d : BitVec 6) (st : BitVec 2) (s : State) : Result :=
  gate (.patNext d st) s fun s => match s.curWait with
    | .patNext _ _ _ => if s.patServes s.curTeam.asid then s.patTake d st else s.pairOut d (-1) 0
    | _ => s.onPattern (s.patTake d st)

/-- The entry whose launch was refused, which stays outstanding until PATCFG.enable is cleared (R397). -/
def Pattern.isRefused (p : Pattern) (i : Nat) : Bool := p.stopped && i + 1 == p.head

/-- PAT_DONE (R184). DESIGN CHOICE: the access violation of R393 goes before an index that R184 reserves (log 76). DEDUCED: of the entry
whose launch was refused it changes nothing (R397, log 58). -/
def execPatDone (a : BitVec 6) (st : BitVec 2) (s : State) : Result :=
  gate (.patDone a st) s fun s => s.onPattern (
    let x := (s.getS a).toNat
    if 256 ≤ x ∨ s.pat.outstanding.contains x = false then s.illegal true 3
    else if s.pat.isRefused x then s.advance else (s.patRetire x).advance)

/-! ### Stash words (R185, R399) -/

/-- Address of slot i (R393). -/
def State.slotBase (s : State) (i : Nat) : W64 := s.ctrl.patstash + w64 (i * 64 * 2 ^ s.ctrl.ssize.toNat)

/-- Runs a stash word on its tag. DESIGN CHOICE: the access violation of R393 goes before a tag above 255 (log 76). -/
def State.onStash (s : State) (a : BitVec 6) (k : W8 → State) : State :=
  s.onPattern (
    let x := (s.getS a).toNat
    if 256 ≤ x then s.illegal true 3 else k (BitVec.ofNat 8 x))

/-- STASH_PUT (R185, R399). -/
def execStashPut (d a : BitVec 6) (st : BitVec 2) (s : State) : Result :=
  gate (.stashPut d a st) s fun s => s.onStash a fun t =>
    let p := s.pat
    if (p.findSlot (· == .bound t)).isSome then s.putS d (-1)
    else
      let reserved := p.findSlot fun x => match x with | .reserved u _ => u == t | _ => false
      match reserved.or (p.findSlot (· == .free)) with
      | none => s.putS d (-1)
      | some i => State.putS { s with pat := p.setSlot i (.bound t) } d (s.slotBase i)

/-- STASH_GET (R185). -/
def execStashGet (d a : BitVec 6) (st : BitVec 2) (s : State) : Result :=
  gate (.stashGet d a st) s fun s => s.onStash a fun t =>
    match s.pat.findSlot (· == .bound t) with
    | none => s.putS d (-1)
    | some i => s.putS d (s.slotBase i)

/-- The tag records that satisfy p are cleared, each with its pin (R367). -/
def State.clearTags (s : State) (p : TagRecord → Bool) : State :=
  let s' := (s.tags.filter p).foldl (fun (s : State) r => s.addPins r.ring r.step.toNat (-1)) s
  { s' with tags := s.tags.filter fun r => !p r }

/-- STASH_FREE (R185, R399). -/
def execStashFree (a : BitVec 6) (st : BitVec 2) (s : State) : Result :=
  gate (.stashFree a st) s fun s => s.onStash a fun t =>
    match s.pat.findSlot (· == .bound t) with
    | none => s.illegal true 3
    | some i =>
      let asid := s.curTeam.asid
      let s := { s with pat := s.pat.setSlot i .free }.clearTags fun r => r.asid == asid && r.tag == t
      let m := s.ctrl.upmod.toNat
      (if s.ctrl.upv then s.sendPattern m (·.creditArrives asid) (.credit m asid) else s).advance

end Sys2Proof.Machine
end

