-- ==== Sys2Proof/Machine/Dispatcher.lean ====
section
/-! DEFINITION. The dispatcher: what fits where (R29, R198, R199, R257, R345), which launch is served and where its next team
goes (R215 to R217), pre-emption and its record (R207, R218, R222, R313, R337, R344, R349), retirement (R214) and teardown. -/

namespace Sys2Proof.Machine

open Sys2Proof

/-! ### Limits of a core (R198, R199) -/

/-- Resources of a core in the order of R198. -/
structure Load where
  bytes : Nat := 0
  strands : Nat := 0
  mem : Nat := 0
  tiles : Nat := 0
  bars : Nat := 0
  seqs : Nat := 0
  teams : Nat := 0
  deriving DecidableEq, Repr

/-- Resources of two teams. -/
def Load.add (a b : Load) : Load :=
  { bytes := a.bytes + b.bytes, strands := a.strands + b.strands, mem := a.mem + b.mem, tiles := a.tiles + b.tiles
    bars := a.bars + b.bars, seqs := a.seqs + b.seqs, teams := a.teams + b.teams }

/-- Within every limit of R198. -/
def Load.fits (a : Load) : Bool :=
  decide (a.bytes ≤ 262144) && decide (a.strands ≤ 64) && decide (a.mem ≤ 262144) && decide (a.tiles ≤ 64) && decide (a.bars ≤ 384)
    && decide (a.seqs ≤ 4) && decide (a.teams ≤ 32)

/-- Strands on the lower-numbered core of a team (R199). -/
def Header.lowStrands (h : Header) : Nat := if h.twin then (h.strands + 1) / 2 else h.strands

/-- A team's share of its lower-numbered core, or of the other one (R198, R199). -/
def Header.share (h : Header) (upper : Bool) : Load :=
  let n := if upper then h.strands - h.lowStrands else h.lowStrands
  { bytes := n * (h.width * h.vregs * 4 + 512), strands := n
    mem := if upper then h.localBytes - Nat.min h.localBytes 262144 else Nat.min h.localBytes 262144
    tiles := h.acctiles, bars := if upper then 0 else h.barriers, seqs := b2n h.seq, teams := 1 }

/-- A resident team occupies core c. -/
def Team.occupies (T : Team) (c : Nat) : Bool := T.live && T.resident && (T.core == c || (T.hdr.twin && T.core + 1 == c))

/-- What a team takes of core c. -/
def Team.loadOn (T : Team) (c : Nat) : Load := if T.occupies c then T.hdr.share (T.core != c) else {}

/-- What the resident teams take of core c, the listed ones apart; what a team has freed in this cycle counts from the next (R214,
R219). -/
def State.loadOf (s : State) (c : Nat) (skip : List Nat) : Load :=
  s.cyc.left.foldl (fun (a : Load) T => a.add (T.loadOn c))
    (s.teams.foldl (fun (a : Load) e => if skip.contains e.1 then a else a.add (e.2.loadOn c)) {})

/-- A team with header h fits on core c, or on the twin from c, once the listed teams are gone (R198); none with a sequencer entry on a
service core (R32). -/
def State.fitsAt (s : State) (h : Header) (skip : List Nat) (c : Nat) : Bool :=
  !(h.seq && decide (1536 ≤ c)) && ((s.loadOf c skip).add (h.share false)).fits
    && (!h.twin || (c % 2 == 0 && ((s.loadOf (c + 1) skip).add (h.share true)).fits))

/-! ### Pools (R257, R345) -/

/-- Cores that a team occupies. -/
def Header.cores (h : Header) : Nat := if h.twin then 2 else 1

/-- Bytes of a strand's section in a team record (R345, R349). -/
def Header.strandBytes (h : Header) : Nat := 1024 + 16 * h.width + 4 * h.width * h.vregs

/-- Bytes of a team record (R345). -/
def Header.recordBytes (h : Header) : Nat :=
  4096 * cdiv (4096 + h.strands * h.strandBytes + 36864 * (b2n h.seq * h.cores) + h.localBytes + 12352 * h.acctiles * h.cores) 4096

/-- Offsets at which n bytes fit beside the reservations (offset, length) of a pool: its start and the end of each. -/
def poolStarts (used : List (Nat × Nat)) (total n : Nat) : List Nat :=
  (0 :: used.map fun u => u.1 + u.2).filter fun o =>
    decide (o + n ≤ total) && used.all fun u => decide (o + n ≤ u.1) || decide (u.1 + u.2 ≤ o)

/-- A place in a pool, which one being left open where there are several (log 18). -/
def poolPlace (free : Nat) (used : List (Nat × Nat)) (total n : Nat) : Option Nat :=
  match poolStarts used total n with
  | [] => none
  | [a] => some a
  | starts => starts[Config.poolPick free % starts.length]?

/-- Reservations that a new team of a slot takes: offsets in the save pool and in the stack pool (R257, R345). -/
def State.reserve (s : State) (slot : Nat) (h : Header) : Option (Nat × Nat) :=
  let c := s.ctx slot
  let here := (s.teams.map (·.2) ++ s.cyc.left).filter fun t => t.live && t.slot == slot
  let stack := h.strands * h.stack
  match poolPlace s.free (here.map fun t => (t.saveAt, t.hdr.recordBytes)) c.savebytes.toNat h.recordBytes with
  | none => none
  | some a =>
    if stack = 0 then some (a, 0)
    else (poolPlace s.free ((here.map fun t => (t.stackAt, t.hdr.strands * t.hdr.stack)).filter (·.2 != 0)) c.stackbytes.toNat stack).map
      fun b => (a, b)

/-! ### Which launch is served (R215, R216) -/

/-- What a queue offers next: a saved team that has returned to its head, or the next team of a launch. -/
inductive Offer where
  | saved (team : Nat)
  | fresh (key : Nat)
  deriving DecidableEq, Repr

/-- Launch k. -/
def State.launch (s : State) (k : Nat) : Option Launch := FMap.get none s.disp.launches k
/-- Writes launch k. -/
def State.setLaunch (s : State) (k : Nat) (l : Option Launch) : State :=
  { s with disp := { s.disp with launches := FMap.set none s.disp.launches k l } }

/-- Teams of a launch (R173). -/
def Launch.count (l : Launch) : Nat := l.word.toNat % 2 ^ 32 + 1

/-- A `ctx.save` of the slot waits for its teams: no team of it is placed meanwhile. -/
def State.beingSaved (s : State) (slot : Nat) : Bool :=
  s.teams.any fun e => e.2.live && e.2.parties.any fun p => p.2.active.any fun l => (p.2.lane l).wait == .saving slot

/-- Saved teams at the head of queue q. -/
def State.returnedTo (s : State) (q : Nat) : List Nat := FMap.get [] s.disp.returned q

/-- What queue q offers (R216, R218). -/
def State.offer (s : State) (q : Nat) : Option Offer :=
  match s.returnedTo q with
  | t :: _ => if s.beingSaved (s.team t).slot then none else some (.saved t)
  | [] => match s.queue q with
    | [] => none
    | k :: _ => match s.launch k with
      | none => none
      | some l => if s.beingSaved l.slot then none else some (.fresh k)

/-- Header, context slot and source of what is offered. -/
def State.offered (s : State) (o : Offer) : Option (Header × Nat × LaunchSrc) :=
  match o with
  | .saved t => (s.launch (s.team t).launchKey).map fun l => ((s.team t).hdr, (s.team t).slot, l.src)
  | .fresh k => (s.launch k).map fun l => (l.hdr, l.slot, l.src)

/-- Queues that offer a team, in the order in which they are served: highest priority first, then round-robin after the queue
served last at that priority (R216). -/
def State.readyQueues (s : State) : List Nat :=
  (List.range 8).reverse.flatMap fun p =>
    let start := FMap.get 0 s.disp.lastQ p
    (List.range 64).filterMap fun i =>
      let q := (start + i) % 64
      if s.queuePrio q = p ∧ (s.offer q).isSome = true then some q else none

/-! ### Where a team goes (R217) -/

/-- Cores of a die that a queue may use (R217, R346). -/
def dieCores (service : Bool) (die : Nat) : List Nat :=
  if service then [1536 + 2 * die, 1537 + 2 * die] else (List.range 192).map fun i => 192 * die + i

/-- Core of the issuing strand of a launch by `launch` or a pattern entry (R217). -/
def LaunchSrc.core : LaunchSrc → Option Nat
  | .word c => some c
  | .pattern _ c _ => some c
  | _ => none

/-- The groups of cores that are tried, in order (R217). -/
def State.groups (s : State) (service : Bool) (src : LaunchSrc) : List (List Nat) :=
  match src.core with
  | some c =>
    let d := dieOf c
    let cluster := if !service && decide (c < 1536) then [(List.range 8).map fun i => c / 8 * 8 + i] else []
    cluster ++ dieCores service d :: ((List.range 8).filter (· != d)).map (dieCores service)
  | none => (List.range 8).map fun i => dieCores service ((s.disp.lastDie + 1 + i) % 8)

/-- What is offered fits at core c once the listed teams are gone; a saved team's copies find their range-scoreboard entries there too
(R198, R256). -/
def State.fitsOffer (s : State) (o : Offer) (h : Header) (skip : List Nat) (c : Nat) : Bool :=
  s.fitsAt h skip c && (match o with | .saved t => s.rangesFit t c | .fresh _ => true)

/-- The core, or lower core of the twin, that receives what is offered: on none of the cores of the teams to `avoid`, and on no die whose
slot is used (R216, R217). -/
def State.coreFor (s : State) (q : Nat) (o : Offer) (h : Header) (src : LaunchSrc) (avoid : List Nat) (used : List Nat := []) :
    Option Nat :=
  (s.groups (decide (56 ≤ q)) src).findSome? fun g => g.find? fun c => !used.contains (dieOf c) && s.fitsOffer o h [] c
    && !(avoid.any fun t => (s.team t).occupies c || (h.twin && (s.team t).occupies (c + 1)))

/-- A saved team has its reservations; a new one needs them (R257, R345). -/
def State.hasRoom (s : State) (o : Offer) (h : Header) (slot : Nat) : Bool :=
  match o with
  | .saved _ => true
  | .fresh _ => (s.reserve slot h).isSome

/-- Where the next team of queue q goes now, on none of the cores of the teams to `avoid` and on no die whose slot is used: what is
offered, and the core. -/
def State.placement (s : State) (q : Nat) (avoid : List Nat := []) (used : List Nat := []) : Option (Offer × Nat) :=
  (s.offer q).bind fun o => (s.offered o).bind fun (h, slot, src) =>
    if s.hasRoom o h slot then (s.coreFor q o h src avoid used).map fun c => (o, c) else none

/-! ### Placing (R4, R42, R119, R197) -/

/-- A strand at its start (R42, R197). -/
def newStrand (l : Launch) (core order : Nat) (sup : Bool) (now : Nat) : Party :=
  { core := core, order := order, priv := sup, stacklim := w32 l.hdr.stack
    s := l.params.zipIdx.foldl (fun (m : FMap W64) e => FMap.set 0 m (56 + e.2) e.1) []
    lanes := (List.range l.hdr.width).map fun i => (i, { pc := l.hdrAddr + l.hdr.entry, exited := false, ready := now + 1 }) }

/-- A sequencer context at its start (R119, R197). -/
def newSequencer (l : Launch) (core order : Nat) (sup : Bool) (now : Nat) : Party :=
  { seq := true, core := core, order := order, priv := sup
    s := l.params.zipIdx.foldl (fun (m : FMap W64) e => FMap.set 0 m (56 + e.2) e.1) []
    lanes := [(0, { pc := l.hdrAddr + l.hdr.seqentry, exited := false, ready := now + 1 })] }

/-- The parties of a new team on its cores (R199, R213). -/
def newParties (l : Launch) (core order : Nat) (sup : Bool) (now : Nat) : FMap Party :=
  (List.range l.hdr.strands).map (fun k =>
    (k, newStrand l (if k < l.hdr.lowStrands then core else core + 1) (128 * order + k) sup now))
  ++ (if l.hdr.seq then (List.range l.hdr.cores).map fun j => (64 + j, newSequencer l (core + j) (128 * order + 64 + j) sup now) else [])

/-- The strands of a team are bound to the issue ports of their cores, alternately in the order of their placement (R206). -/
def State.bindPorts (s : State) (t : Nat) : State :=
  (s.team t).parties.foldl (fun (s : State) e =>
    if e.2.seq then s
    else
      let K := s.core e.2.core
      (s.setParty t e.1 { s.party t e.1 with port := K.portNext }).setCore e.2.core { K with portNext := !K.portNext }) s

/-- Places the next team of launch k on a core (R4, R197). -/
def State.placeFresh (s : State) (k core : Nat) (swap : Bool) : State :=
  match s.launch k with
  | none => s
  | some l => match s.reserve l.slot l.hdr with
    | none => s
    | some (a, b) =>
      let c := s.ctx l.slot
      let d := s.disp
      let T : Team :=
        { live := true, resident := true, slot := l.slot, asid := c.asid, launch := l.id, number := w32 l.placed, launchKey := k
          hdrAddr := l.hdrAddr, hdr := l.hdr, core := core, parties := newParties l core d.nextOrder (c.control.getLsbD 8) s.now
          order := d.nextOrder, lastIssue := s.now, swapIn := if swap then some s.now else none, saveAt := a, stackAt := b }
      let s := (s.setTeam d.nextTeam T).setLaunch k (some { l with placed := l.placed + 1 })
      State.bindPorts { s with disp := { s.disp with
          nextTeam := d.nextTeam + 1, nextOrder := d.nextOrder + 1
          queues := if l.placed + 1 = l.count then FMap.set [] s.disp.queues l.queue ((s.queue l.queue).filter (· != k)) else s.disp.queues } } d.nextTeam

/-- Lanes whose marked word is replayed at placement leave a return record (R336, R439). -/
def State.traceReplays (s : State) (t : Nat) : State :=
  (s.team t).parties.foldl (fun (s : State) e =>
    let ls := e.2.active.filter fun l => (e.2.lane l).marked && (e.2.lane l).wait.isParked
    s.trace t e.1 ls 3 1 (fun l => (e.2.lane l).pc) fun _ => 0) s

/-- A team's skids are over at a debugger's halt: it is halted, sr.fault.skid is recorded, and a record of type 1 and the lanes' records
of type 2 are written (R433, R439). DESIGN CHOICE: the record of such a halt, which no party's trap has caused, names the team's first
party (R334, log 71). -/
def State.haltByDebugger (s : State) (t : Nat) : State :=
  let s := s.endTries t
  let T := s.team t
  let s := s.setTeam t { T with
    halt := .halted, holder := none
    parties := T.parties.map fun (e : Nat × Party) => (e.1, { e.2 with fault := withSkid e.2.fault e.2.skid }) }
  let s := T.parties.foldl (fun (s : State) e =>
    s.trace t e.1 e.2.active 2 1 (fun l => (e.2.lane l).pc) fun _ => (s.party t e.1).fault) s
  s.partyRecord t ((T.parties.head?.map (·.1)).getD 0) 1

/-- A release by the debugger, with the return records of the lanes (R343, R433, R439). -/
def State.releaseByDebugger (s : State) (t : Nat) : State :=
  let s := s.releaseTeam t
  (s.team t).parties.foldl (fun (s : State) e => s.trace t e.1 e.2.active 3 1 (fun l => (e.2.lane l).pc) fun _ => 0) s

/-- A debugger's mark takes effect at placement (R433): a release of a halted team, or a halt of one that runs, or whose handler does,
after a skid of no slots. -/
def State.applyMark (s : State) (t : Nat) : State :=
  let T := s.team t
  let unmarked := fun (T : Team) => s.setTeam t { T with debugMark := none }
  match T.debugMark, T.halt with
  | some false, .halted => (unmarked T).releaseByDebugger t
  | some true, .running | some true, .handler _ =>
    (unmarked { T with parties := T.parties.map fun (e : Nat × Party) => (e.1, { e.2 with skid := 0 }) }).haltByDebugger t
  | _, _ => unmarked T

/-- Places a saved team again: its lanes continue where they stood, and its squashed jobs run (R218, R299, R313, R336). -/
def State.placeSaved (s : State) (t core : Nat) (swap : Bool) : State :=
  let T := s.team t
  let d := s.disp
  let order := d.nextOrder
  let put := fun (k : Nat) (p : Party) =>
    let on := if p.seq then core + (k - 64) else if k < T.hdr.lowStrands then core else core + 1
    { p.mapLanes p.active (fun _ x => { x with ready := s.now + 1, anchorDue := true }) with core := on, order := 128 * order + k, since := none, prefetch := [] }
  let T : Team := { T with
    resident := true, core := core, order := order, lastIssue := s.now, swapIn := if swap then some s.now else none
    parties := T.parties.map fun (e : Nat × Party) => (e.1, put e.1 e.2) }
  let T := if T.halt = .running then T.mapLanes (·.startStale s.now) else T
  let s := { s.setTeam t T with disp := { d with
    nextOrder := order + 1, returned := d.returned.foldl (fun (m : FMap (List Nat)) (e : Nat × List Nat) => FMap.set [] m e.1 (e.2.filter (· != t))) [] } }
  (((s.bindPorts t).unsquash t).applyMark t).traceReplays t

/-- Places what queue q offers on a core (R216). -/
def State.place (s : State) (q : Nat) (o : Offer) (core : Nat) (swap : Bool) : State :=
  let s := { s with
    disp := { s.disp with lastQ := FMap.set 0 s.disp.lastQ (s.queuePrio q) ((q + 1) % 64), lastDie := dieOf core }
    cyc := { s.cyc with placed := dieOf core :: s.cyc.placed } }
  match o with
  | .saved t => s.placeSaved t core swap
  | .fresh k => s.placeFresh k core swap

/-! ### Team records (R349) -/

/-- The wait code of a lane entry (R349). -/
def Wait.code : Wait → Nat
  | .reconv .. => 1 | .crossLane => 2 | .rendezvous => 3 | .stepTeam _ => 3 | .barrier .. => 4 | .arrive .. => 4 | .barInit .. => 4
  | .task .. => 5 | .stepLead _ => 6 | .patNext .. => 7 | .clauseHeader => 8 | _ => 0

/-- A lane entry (R349). -/
def Lane.entry (x : Lane) : Nat :=
  x.pc.toNat + 2 ^ 64 * (x.depth % 2 ^ 16) + 2 ^ 80 * x.c.toNat + 2 ^ 84 * x.fflags.toNat + 2 ^ 89 * b2n x.exited
    + 2 ^ 90 * b2n x.wait.isParked + 2 ^ 91 * b2n x.marked + 2 ^ 92 * x.wait.code

/-- A team that stands halted, its handler running or not (R186, R338). -/
def Team.isHalted (T : Team) : Bool := T.halt != .running

/-- The team header of a record, bytes 0x00 to 0x1F (R349). -/
def Team.recordHeader (T : Team) : Nat :=
  T.number.toNat + 2 ^ 32 * T.launch.toNat + 2 ^ 64 * T.hdrAddr.toNat + 2 ^ 128 * T.step.toNat + 2 ^ 160 * b2n T.isHalted
    + 2 ^ 192 * T.hdr.recordBytes

/-- A barrier's 32 bytes, in a record and in an image (R347, R349; the places of the fields are the model's, log 18). -/
def Barrier.image (b : Barrier) : Nat :=
  let home := match b.home with | none => 0 | some h => 1 + 2 ^ 8 * h.1 + 2 ^ 16 * h.2
  b.e % 2 ^ 32 + 2 ^ 32 * (b.a % 2 ^ 32) + 2 ^ 64 * (b.n % 2 ^ 64) + 2 ^ 128 * (b.phase % 2 ^ 64) + 2 ^ 192 * home

/-- The barrier of 32 bytes. -/
def barrierOfImage (v : Nat) : Barrier :=
  let h := bits v 255 192
  { e := bits v 31 0, a := bits v 63 32, n := bits v 127 64, phase := bits v 191 128
    home := if h = 0 then none else some (bits h 15 8, h / 2 ^ 16) }

/-- Entries of a list, each `step` bytes after the one before from an offset on. -/
def fieldsFrom (base step n : Nat) (vs : List Nat) : List (Nat × Nat × Nat) := vs.zipIdx.map fun e => (base + step * e.2, n, e.1)

/-- The shape slots of a party as 32-byte records. -/
def Party.shapeWords (p : Party) : List Nat := (List.range 8).map fun i => ((FMap.get none p.shapes i).getD 0).toNat

/-- The special registers of a party and, of what its trap saved, the part that is not a lane's, as 8-byte words (R349; their places are
the model's, log 18). -/
def Party.specialWords (p : Party) : List Nat :=
  [p.round.toNat, p.stacklim.toNat, p.fault.toNat, b2n p.priv, p.index, b2n p.save.isSome
  , b2n ((p.save.map (·.priv)).getD false)]

/-- Where a lane stands in its clause or its long word: words to the trailer, units performed, the word's units, the wait code, the
breakpoint pass bit, and whether it stands in a clause (R39, R132, R349, R432). -/
def laneStand (pc : W64) (clause : Option W64) (unit : Nat × Nat) (wait : Wait) (pass : Bool) : Nat :=
  let left := match clause with | none => 0 | some a => (a - pc).toNat / 4 % 32
  left + 2 ^ 8 * (unit.1 % 2 ^ 16) + 2 ^ 24 * (unit.2 % 2 ^ 16) + 2 ^ 40 * wait.code + 2 ^ 44 * b2n pass + 2 ^ 45 * b2n clause.isSome

/-- What the trap of a party saved of a lane, or where there is none what it has: program counter, stand, t0 to t7 (R187, R340, R349). -/
def Party.trapEntry (p : Party) (l : Nat) : Nat :=
  let x := p.lane l
  let temps := fun (t : FMap W32) => (List.range 8).map fun i => (FMap.get 0 t i).toNat
  let packed := fun (pc : W64) (stand : Nat) (t : FMap W32) =>
    pc.toNat + 2 ^ 64 * stand + 2 ^ 128 * packBytes 4 (temps t)
  match p.save with
  | none => packed x.pc (laneStand x.pc x.clause (x.unit, x.units) x.wait x.pass) x.t
  | some v =>
    let pc := FMap.get 0 v.pcs l
    packed pc (laneStand pc (FMap.get none v.clauses l) (FMap.get (0, 0) v.units l) (FMap.get .none v.waits l) (FMap.get false v.passes l))
      ((FMap.slice v.temps (8 * l) 8).map fun (e : Nat × W32) => (e.1 - 8 * l, e.2))

/-- The party whose trap save a record holds lane by lane: the one that runs its handler, or that stands halted by its trap. -/
def Team.trapParty (T : Team) : Option Party :=
  ((T.parties.find? fun (e : Nat × Party) => e.2.save.isSome).or (T.holder.map fun k => (k, T.party k))).map (·.2)

/-- The section of a strand (R349). -/
def Party.strandFields (p : Party) (h : Header) (base : Nat) : List (Nat × Nat × Nat) :=
  fieldsFrom base 8 8 p.specialWords ++ fieldsFrom (base + 256) 32 32 p.shapeWords
    ++ fieldsFrom (base + 512) 8 8 ((List.range 64).map fun i => (p.sreg i).toNat)
    ++ fieldsFrom (base + 1024) 16 16 ((List.range h.width).map fun l => (p.lane l).entry)
    ++ (List.range h.width).flatMap fun l =>
      fieldsFrom (base + 1024 + 16 * h.width + 4 * h.vregs * l) 4 4 ((List.range h.vregs).map fun i => ((p.lane l).reg i).toNat)

/-- The codes of a weight bank, each as wide as its format has it, and its block scales as two numbers, and its flags. -/
def Bank.numbers (b : Bank) : Nat × Nat × Nat :=
  let n := fmtBits b.fmt.toNat
  ((b.w.map fun (e : Nat × W32) => e.2.toNat % 2 ^ n * 2 ^ (n * e.1)).sum, (b.scales.map fun (e : Nat × W8) => e.2.toNat * 2 ^ (8 * e.1)).sum
  , b2n b.loaded + 2 * b2n b.scaled + 4 * b.fmt.toNat)

/-- The section of a sequencer context: weight codes, block scales, uniform registers, shape slots, special registers, the lane entry and
the state of the banks (R349; their places are the model's, log 18). -/
def Party.sequencerFields (p : Party) (base : Nat) : List (Nat × Nat × Nat) :=
  let a := p.w0.numbers
  let b := p.w1.numbers
  [(base, 16384, a.1), (base + 16384, 16384, b.1), (base + 32768, 1024, a.2.1), (base + 33792, 1024, b.2.1)
  , (base + 35648, 16, (p.lane 0).entry), (base + 35664, 8, a.2.2 + 2 ^ 16 * b.2.2 + 2 ^ 32 * b2n p.cur)]
    ++ fieldsFrom (base + 34816) 8 8 ((List.range 64).map fun i => (p.sreg i).toNat)
    ++ fieldsFrom (base + 35328) 32 32 p.shapeWords ++ fieldsFrom (base + 35584) 8 8 p.specialWords

/-- A tile's 12,352 bytes: 64 of its anchor and flags, then its entries of 12 bytes each (R349; their places are the model's, log 18). -/
def Tile.fields (x : Tile) (base : Nat) : List (Nat × Nat × Nat) :=
  [(base, 64, b2n x.allocated + 2 * b2n x.nan + 4 * b2n x.inexact + 8 * b2n x.sat + 2 ^ 8 * x.anchor.toNat)
  , (base + 64, 12288, (x.e.map fun (e : Nat × BitVec 96) => e.2.toNat * 2 ^ (96 * e.1)).sum)]

/-- The parts of a team record: offset, bytes, value (R349). The strand header has no room for the trap save of a strand's lanes, 48 bytes
each; the bytes from 0x400, which the manual gives to no section, hold it (log 18). -/
def Team.recordFields (T : Team) : List (Nat × Nat × Nat) :=
  let h := T.hdr
  let seqAt := 0x1000 + h.strands * h.strandBytes
  let localAt := seqAt + 36864 * (b2n h.seq * h.cores)
  let trap := match T.trapParty with | none => [] | some p => p.active.map p.trapEntry
  (0, 32, T.recordHeader) :: fieldsFrom 0x400 48 48 trap ++ fieldsFrom 0x100 32 32 ((List.range 24).map fun i => (FMap.get {} T.bars i : Barrier).image)
    ++ (T.parties.flatMap fun (e : Nat × Party) =>
      if e.2.seq then e.2.sequencerFields (seqAt + 36864 * (e.1 - 64)) else e.2.strandFields h (0x1000 + e.1 * h.strandBytes))
    ++ [(localAt, h.localBytes, Mem.read T.mem 0 h.localBytes)]
    ++ (List.range h.cores).flatMap fun j => (List.range h.acctiles).flatMap fun i =>
      (FMap.get {} T.tiles (64 * j + i) : Tile).fields (localAt + h.localBytes + 12352 * (h.acctiles * j + i))

/-- The record's address in the save pool (R345). -/
def State.recordAt (s : State) (T : Team) : Nat := (s.ctx T.slot).savebase.toNat + T.saveAt

/-- Writes a team's record to its reservation (R344, R349). -/
def State.writeRecord (s : State) (T : Team) : State :=
  T.recordFields.foldl (fun (s : State) f => (s.writeAs T.slot (s.recordAt T + f.1) f.2.1 f.2.2 f.2.1).1) s

/-! ### Pre-emption (R207, R313, R344) -/

/-- Queue of a team's launch. -/
def State.teamQueue (s : State) (T : Team) : Nat := ((s.launch T.launchKey).map (·.queue)).getD 0

/-- A saved team returns to the head of its launch's queue (R218). -/
def State.returnTeam (s : State) (t : Nat) : State :=
  let q := s.teamQueue (s.team t)
  { s with disp := { s.disp with returned := FMap.set [] s.disp.returned q (t :: (s.returnedTo q).filter (· != t)) } }

/-- The cores of a team count their idle interval from now (R222). -/
def State.busyNow (s : State) (t : Nat) : State :=
  let T := s.team t
  if T.live && T.resident then
    (List.range T.hdr.cores).foldl (fun (s : State) j => s.setCore (T.core + j) { s.core (T.core + j) with idleFrom := s.now }) s
  else s

/-- Pre-emption of a resident team begins: issue stops, its `bar.try` words end, its parked jobs are squashed (R300, R313, R344). -/
def State.preempt (s : State) (t : Nat) (parked : Bool) : State :=
  let T := s.team t
  if !T.live || !T.resident || T.drainFrom.isSome then s
  else
    let s := s.endTries t
    let s := s.setTeam t { s.team t with drainFrom := some s.now, parkedOut := parked }
    s.squash t (· == .parked)

/-- Requests of a team's own words are still unanswered (R344, step 2). -/
def State.teamAsks (s : State) (t : Nat) : Bool :=
  s.cores.any fun (e : Nat × Core) => e.2.chans.any fun (c : Nat × Channel) =>
    (c.2.out ++ c.2.waiting).any fun o => o.team == t && o.tag != 0

/-- Requests of the context in a slot, its teams', its drained lines' and its jobs', are still unanswered: `ctx.save` waits for them (R344,
R429, R461). -/
def State.slotAsks (s : State) (slot : Nat) : Bool :=
  s.cores.any fun (e : Nat × Core) => e.2.chans.any fun (c : Nat × Channel) =>
    (c.2.out ++ c.2.waiting).any fun o => o.req.asid == (s.ctx slot).asid

/-- A pre-empted team can be saved: no skid runs, no clause is open where it issues, its words have completed and its jobs have
drained (R207, R219, R313, R344). -/
def State.mayBeSaved (s : State) (t : Nat) : Bool :=
  let T := s.team t
  T.live && T.resident && T.drainFrom.isSome
    && (match T.halt with | .skid _ _ | .debugSkid _ => false | _ => true)
    && (T.parties.all fun (e : Nat × Party) => !(T.mayIssue e.1 && e.2.inClause))
    && !s.teamAsks t && !s.draining t

/-- The cached entries of lane l of the issuing party go to their backing (R258); one that cannot be written is lost with it. -/
def State.spillLane (s : State) (l : Nat) : State :=
  let x := s.curParty.lane l
  x.stack.zipIdx.foldl (fun (s : State) e => match s.spill l (x.depth - 1 - e.2) e.1 with
    | .ok s => s
    | .error e => e.1) s

/-- The cached stack entries of a team's lanes go to their backing (R258, R344). -/
def State.spillTeam (s : State) (t : Nat) : State :=
  let r := (s.team t).parties.foldl (fun (s : State) e =>
    e.2.active.foldl State.spillLane { s with cur := { s.cur with team := t, party := e.1 } }) s
  { r with cur := s.cur }

/-- A lane as it is saved: every result is written (R208, R341, R344), and of its stack only the depth is kept (R258). -/
def Lane.saved (x : Lane) : Lane :=
  { x with
    pend := [], stack := [], ready := 0
    wait := match x.wait with | .exported _ => .none | w => w }

/-- Saves a drained team: its stores drain, its record is written, and its resources are free (R288, R344). -/
def State.saveTeam (s : State) (t : Nat) : State :=
  let s := (List.range (s.team t).hdr.cores).foldl (fun (s : State) j =>
    s.drain ((s.team t).core + j) fun w => w.parties.any fun q => q.1 == t) s
  let s := s.spillTeam t
  let T := s.team t
  let T := { T.mapLanes Lane.saved with resident := false, drainFrom := none, swapIn := none }
  let T := { T with parties := T.parties.map fun (e : Nat × Party) => (e.1, { e.2 with fetchBuf := [], prefetch := [], peerBuf := [], refused := [] }) }
  let s := (s.setTeam t T).writeRecord T
  (List.range T.hdr.cores).foldl (fun (s : State) j => s.setCore (T.core + j) { s.core (T.core + j) with idleFrom := s.now }) s

/-- A launch may have its next team placed on a core (R217). -/
def State.mayUse (s : State) (q : Nat) (src : LaunchSrc) (core : Nat) : Bool :=
  (s.groups (decide (56 ≤ q)) src).any fun g => g.contains core

/-- What the swap rule places: the head launch's next team, its queue and core, when it may be placed at the core on which the rule acted,
and fits there (R217, R222). -/
def State.swapIn (s : State) (core : Nat) : Option (Nat × Offer × Nat) :=
  s.readyQueues.head?.bind fun q => (s.offer q).bind fun o => (s.offered o).bind fun (h, slot, src) =>
    let at_ := if h.twin then core / 2 * 2 else core
    if s.mayUse q src core && s.hasRoom o h slot && s.fitsOffer o h [] at_ then some (q, o, at_) else none

/-- A swap on a core is under way: the team that it removes drains, or the waiting team has not yet taken its place (R222). -/
def State.swapsOn (s : State) (core : Nat) : Bool := s.disp.swapping.any fun e => e.2 == core || (s.team e.1).occupies core

/-- A team that a swap has removed is saved: the waiting team takes its place, as soon as its die has a slot in a cycle, before it
returns to its queue (R216, R222). -/
def State.finishSwap (s : State) (t core : Nat) : State :=
  let done := State.returnTeam { s with disp := { s.disp with swapping := s.disp.swapping.filter (·.1 != t) } } t
  match s.swapIn core with
  | none => done
  | some (q, o, c) =>
    if s.cyc.placed.contains (dieOf c) then s
    else State.returnTeam ({ s with disp := { s.disp with swapping := s.disp.swapping.filter (·.1 != t) } }.place q o c true) t

/-- Saves every pre-empted team that can be saved; those not switched out for parked lanes return to their queues, a team that a swap
removes once the waiting team has its place (R218, R222, R337). DESIGN CHOICE: of several teams of one queue that are saved at one event, the
one of the highest key stands first at its head (log 79). -/
def State.finishSaves (s : State) : State :=
  let s := (s.teams.map (·.1)).foldl (fun (s : State) t =>
    if s.mayBeSaved t then
      let s := s.saveTeam t
      if (s.team t).parkedOut || s.disp.swapping.any (·.1 == t) then s else s.returnTeam t
    else s) s
  s.disp.swapping.foldl (fun (s : State) e => if (s.team e.1).resident then s else s.finishSwap e.1 e.2) s

/-! ### Choosing teams to pre-empt (R218) -/

/-- Sublists of n elements, those of earlier elements first. -/
def choices {α : Type} : Nat → List α → List (List α)
  | 0, _ => [[]]
  | _ + 1, [] => []
  | n + 1, x :: xs => (choices n xs).map (x :: ·) ++ choices (n + 1) xs

/-- Priority of a team's queue. -/
def State.teamPrio (s : State) (T : Team) : Nat := s.queuePrio (s.teamQueue T)

/-- The rank of a team as a victim: lowest priority first, then the most recently placed (R218). -/
def State.victimKey (s : State) (t : Nat) : Nat × Int := (s.teamPrio (s.team t), -((s.team t).order : Int))

/-- One victim ranks before another. -/
def keyLess (a b : Nat × Int) : Bool := decide (a.1 < b.1) || (a.1 == b.1 && decide (a.2 < b.2))

/-- Lists of ranks compared: fewest first, then element by element. -/
def keysLess : List (Nat × Int) → List (Nat × Int) → Bool
  | [], _ => false
  | _ :: _, [] => false
  | a :: as, b :: bs => keyLess a b || (a == b && keysLess as bs)

/-- Inserts a team into a list in rank order. -/
def State.insertVictim (s : State) (t : Nat) : List Nat → List Nat
  | [] => [t]
  | u :: us => if keyLess (s.victimKey t) (s.victimKey u) then t :: u :: us else u :: s.insertVictim t us

/-- Resident teams of lower priority on core c or the twin from it, in rank order. -/
def State.victims (s : State) (h : Header) (prio c : Nat) : List Nat :=
  (s.teams.filter fun e => (e.2.occupies c || (h.twin && e.2.occupies (c + 1))) && decide (s.teamPrio e.2 < prio)).foldl
    (fun l e => s.insertVictim e.1 l) []

/-- The fewest teams whose removal lets the team fit at core c, of the best ranks (R218). -/
def State.removal (s : State) (o : Offer) (h : Header) (prio c : Nat) : Option (List Nat) :=
  let vs := s.victims h prio c
  if s.fitsOffer o h vs c then
    (List.range (vs.length + 1)).findSome? fun n => (choices n vs).find? fun x => s.fitsOffer o h x c
  else none

/-- The teams to pre-empt for the next team of queue q, over every core that it may use (R218). -/
def State.toPreempt (s : State) (q : Nat) : Option (List Nat) :=
  (s.offer q).bind fun o => (s.offered o).bind fun (h, slot, src) =>
    if !s.hasRoom o h slot then none
    else ((s.groups (decide (56 ≤ q)) src).flatMap id).foldl (fun (best : Option (List Nat)) c =>
      match s.removal o h (s.queuePrio q) c, best with
      | none, b => b
      | some x, none => some x
      | some x, some b =>
        if x.length < b.length ∨ (x.length = b.length ∧ keysLess (x.map s.victimKey) (b.map s.victimKey) = true) then some x else some b) none

/-! ### Events of the dispatcher -/

/-- The teams that the ready launch of highest priority pre-empts, when it is blocked (R216, R218). -/
def State.duePreemption (s : State) : Option (List Nat) :=
  s.readyQueues.head?.bind fun q => if (s.placement q).isNone then s.toPreempt q else none

/-- The teams that R218 names are pre-empted, unless they already are, and their cores' idle counts start anew (R218, R219). -/
def State.startPreemption (s : State) : State :=
  match s.duePreemption with
  | none => s
  | some ts =>
    if ts.all fun t => (s.team t).drainFrom.isSome then s
    else (ts.foldl (fun (s : State) t => (s.busyNow t).preempt t false) s).finishSaves

/-- Of ready launches in the order of service, the first whose next team goes to a die, when the cores of the teams in `kept` are not
offered. A launch whose team fits there but goes to a die that R217 names before comes back for this slot with its next team: no later
launch has it meanwhile. -/
def State.slotFor (s : State) (die : Nat) (kept : List Nat) : List Nat → Option (Nat × Offer × Nat)
  | [] => none
  | q :: qs => match s.placement q kept s.cyc.placed with
    | none => s.slotFor die kept qs
    | some (o, c) =>
      if dieOf c = die then some (q, o, c)
      else if (s.placement q kept ((List.range 8).filter (· != die))).isSome then none
      else s.slotFor die kept qs

/-- What takes the slot of a die in this cycle; the cores that a blocked launch of highest priority has had vacated are kept for it (R216,
R218). -/
def State.dieOffer (s : State) (die : Nat) : Option (Nat × Offer × Nat) := s.slotFor die (s.duePreemption.getD []) s.readyQueues

/-- TEAM_PLACE (R216 to R218): when the ready launch of highest priority is blocked, the teams that R218 names are pre-empted first; then
the first ready launch whose next team goes to this die takes its slot of the cycle. -/
def execTeamPlace (die : Nat) (s : State) : Result :=
  event s fun s =>
    let s := s.startPreemption
    if s.cyc.placed.contains die then s
    else match s.dieOffer die with
      | some (q, o, c) => s.place q o c false
      | none => s

/-- The interval N of R221. -/
def State.swapCycles (s : State) : Nat := s.ctrl.dswapCycles.toNat

/-- No resident team on a core has issued for N cycles (R222). -/
def State.coreIdle (s : State) (c : Nat) : Bool :=
  let here := s.teams.filter fun e => e.2.occupies c
  !here.isEmpty && decide ((s.core c).idleFrom + s.swapCycles ≤ s.now)
    && here.all fun e => decide (e.2.lastIssue + s.swapCycles ≤ s.now)

/-- The team that the swap rule removes from a core: of the resident teams whose removal lets the waiting team in, the one whose
last issue is oldest (R222). -/
def State.swapVictim (s : State) (core : Nat) : Option Nat :=
  match s.readyQueues.head? with
  | none => none
  | some q => (s.offer q).bind fun o => (s.offered o).bind fun (h, slot, src) =>
    let at_ := if h.twin then core / 2 * 2 else core
    if !s.ctrl.dswapEnable || s.swapsOn core || !s.coreIdle core || !s.hasRoom o h slot || (s.coreFor q o h src []).isSome
        || !s.mayUse q src core then none
    else
      let can := s.teams.filter fun e => e.2.occupies core && e.2.drainFrom.isNone && s.fitsOffer o h [e.1] at_
        && (match e.2.swapIn with | none => true | some c => decide (c + s.swapCycles ≤ s.now))
      (can.foldl (fun (b : Option (Nat × Team)) e => match b with
        | none => some e
        | some f => if e.2.lastIssue < f.2.lastIssue then some e else some f) none).map (·.1)

/-- A pre-emption by priority is due on a core (R219). -/
def State.preemptionDueOn (s : State) (core : Nat) : Bool :=
  (s.duePreemption.getD []).any fun t => (s.team t).occupies core

/-- DISPATCH_SWAP (R222); a priority pre-emption that is due on the core goes first (R219). -/
def execDispatchSwap (core : Nat) (s : State) : Result :=
  event s fun s =>
    match s.swapVictim core with
    | none => s
    | some t =>
      if s.preemptionDueOn core then s
      else State.finishSaves ({ s with disp := { s.disp with swapping := s.disp.swapping ++ [(t, core)] } }.preempt t false)

/-- Parked and non-exited lanes of the teams of a context on a core; a sequencer context counts as one lane (R337). -/
def State.parkedShare (s : State) (slot core : Nat) : Nat × Nat :=
  s.teams.foldl (fun (a : Nat × Nat) e =>
    if e.2.occupies core && e.2.slot == slot then
      e.2.parties.foldl (fun (a : Nat × Nat) p =>
        (a.1 + (p.2.active.filter fun l => (p.2.lane l).wait.isParked).length, a.2 + p.2.active.length)) a
    else a) (0, 0)

/-- The share of R337 is reached. -/
def State.shareReached (s : State) (slot core : Nat) : Bool :=
  let r := s.parkedShare slot core
  let thresh := bits (s.ctx slot).control.toNat 7 4
  thresh != 0 && decide (0 < r.1) && decide (thresh * r.2 ≤ 16 * r.1)

/-- PARKED_SHARE_SWITCH (R337). -/
def execParkedShareSwitch (slot core : Nat) (s : State) : Result :=
  event s fun s =>
    if !s.shareReached slot core then s
    else (((s.teams.filter fun e => e.2.occupies core && e.2.slot == slot).map (·.1)).foldl
      (fun (s : State) t => s.preempt t true) s).finishSaves

/-- ENGDRAIN_EXPIRY (R313). -/
def execEngdrainExpiry (team : Nat) (s : State) : Result :=
  event s fun s =>
    if !s.drainOver team then s else (s.squash team (· == .running)).finishSaves

/-! ### Retirement and teardown (R214, R301, R317) -/

/-- A sequencer context stands at a word boundary: no long word of it is under way; a word at which it waits is abandoned (R214). -/
def Party.atBoundary (p : Party) : Bool := p.index == 0 || (p.lane 0).wait != .none

/-- Every lane of every strand has exited, the team is neither halted nor away, and its sequencer contexts have come to a word
boundary (R214). -/
def Team.mayRetire (T : Team) : Bool :=
  T.live && T.resident && T.halt == .running && T.isOver
    && T.parties.all fun (e : Nat × Party) => !e.2.seq || e.2.atBoundary

/-- Stores and requests of a team, or jobs on its local window, are still under way (R95, R214). -/
def State.teamBusy (s : State) (t : Nat) : Bool :=
  s.cores.any (fun (e : Nat × Core) => e.2.chans.any fun (c : Nat × Channel) =>
    (c.2.out ++ c.2.waiting).any fun o => (o.team == t && o.tag != 0) || o.carried.any fun q => q.1 == t && q.2.1 != jobParty)
  || s.tasks.any fun k => s.namesLocal k t

/-- The last team of a launch has retired: its counter, its task or its pattern entry learns so (R173, R214, R305, R397). -/
def State.launchDone (s : State) (k : Nat) (l : Launch) : State :=
  let s := s.setLaunch k none
  let w := l.word.toNat
  let s := if bit w 50 then (match (s.ctx l.slot).counterAt (bits w 49 38) with | some i => s.decCounter i | none => s) else s
  match l.src with
  | .task n => s.later (.jobComplete n)
  | .pattern e _ g => if s.pat.gen = g ∧ s.pat.outstanding.contains e = true then s.patRetire e else s
  | _ => s

/-- A team of launch k has retired. -/
def State.countRetired (s : State) (k : Nat) : State :=
  match s.launch k with
  | none => s
  | some l =>
    let l := { l with retired := l.retired + 1 }
    if l.retired = l.count then s.launchDone k l else s.setLaunch k (some l)

/-- TEAM_RETIRE (R214). -/
def execTeamRetire (team : Nat) (s : State) : Result :=
  event s fun s =>
    let T := s.team team
    if !T.mayRetire then s
    else
      let s := (List.range T.hdr.cores).foldl (fun (s : State) j =>
        s.drain (T.core + j) fun w => w.parties.any fun q => q.1 == team) s
      if s.teamBusy team then s
      else (State.countRetired { s.setTeam team {} with cyc := { s.cyc with left := T :: s.cyc.left } } T.launchKey).updateStep

/-- Requests of the teams of a slot that still wait for a slot are dropped. -/
def Core.forget (c : Core) (gone : Nat → Bool) : Core :=
  { c with chans := c.chans.map fun (e : Nat × Channel) => (e.1, { e.2 with waiting := e.2.waiting.filter fun o => !(gone o.team && o.tag != 0) }) }

/-- Numbers of the collective handles of a slot. -/
def State.handlesOf (s : State) (slot : Nat) : List Nat := (s.colls.filter fun (e : Nat × Coll) => e.2.isOpen && e.2.slot == slot).map (·.1)

/-- An event of a collective handle of this device. -/
def handleOf : Turn → Option Nat
  | .event (.collContributionArrival h _ _) | .event (.partialArrival h _ _) | .event (.collCloseReceive h _) => some h
  | _ => none

/-- A context that is saved or torn down loses its collective handles with all that they hold: its contributions, the partials of its
combining windows, its gauge lists, its pending verdicts, and what of them is sent and not acknowledged (R371, R386). -/
def State.dropColls (s : State) (slot : Nat) : State :=
  let hs := s.handlesOf slot
  let asid := (s.ctx slot).asid
  { s with
    colls := s.colls.foldl (fun (m : FMap Coll) e => FMap.set {} m e.1 (if e.2.slot = slot then {} else e.2)) []
    fab := { s.fab with
      combining := s.fab.combining.filter fun w => !hs.contains w.handle
      unacked := s.fab.unacked.filter fun u => u.asid != some asid }
    agenda := s.agenda.filter fun t => (match handleOf t with | some h => !hs.contains h | none => true)
    tide := { s.tide with verdicts := s.tide.verdicts.filter fun v => v.1 != asid } }

/-- The teams, tasks, graph instances and launches of a slot leave the device; no counter moves. -/
def State.clearSlot (s : State) (slot : Nat) : State :=
  let ts := (s.teams.filter fun e => e.2.slot == slot).map (·.1)
  let s := ((s.tasks.filter fun t => t.slot == slot).map (·.n)).foldl (fun (s : State) n => (s.freeRange n).orphan n) (s.dropColls slot)
  State.updateStep { s.setCtx slot {} with
    teams := s.teams.filter fun e => e.2.slot != slot
    tasks := s.tasks.filter fun t => t.slot != slot
    instances := s.instances.filter fun i => i.slot != slot
    disp := { s.disp with
      launches := s.disp.launches.filter fun e => !(match e.2 with | some l => l.slot == slot | none => false)
      queues := s.disp.queues.foldl (fun (m : FMap (List Nat)) e => FMap.set [] m e.1 (e.2.filter fun k =>
        !(match s.launch k with | some l => l.slot == slot | none => false))) []
      returned := s.disp.returned.foldl (fun (m : FMap (List Nat)) e => FMap.set [] m e.1 (e.2.filter fun t => !ts.contains t)) []
      swapping := s.disp.swapping.filter fun e => !ts.contains e.1 } }

/-- The busy bits of the instance slots of a context's graph objects are cleared (R316, R317). -/
def State.freeInstances (s : State) (slot : Nat) : State :=
  (s.instances.filter fun i => i.slot == slot).foldl (fun (s : State) i =>
    s.patchByte i.slot (i.object.toNat + 7) fun v => v - v / 2 ^ (4 + i.index) % 2 * 2 ^ (4 + i.index)) s

/-! ### Launch windows (R450) -/

/-- Launch window q. -/
def State.window (s : State) (q : Nat) : Window := FMap.get {} s.host.windows q
/-- Writes launch window q. -/
def State.setWindow (s : State) (q : Nat) (w : Window) : State :=
  { s with host := { s.host with windows := FMap.set {} s.host.windows q w } }

/-- The submission of window q ends: busy clears with a result, and its vector is raised (R447, R450). -/
def State.endWindow (s : State) (q code : Nat) : State :=
  let s := s.setWindow q { s.window q with busy := false, result := BitVec.ofNat 2 code, header64 := none }
  (s.forgetHeader q).raiseVector (16 + q % 48)

/-- The submissions of the windows of a context that is torn down end with result 0, and their launches enter the teardown report
(R219, R451). -/
def State.dropRung (s : State) (slot : Nat) : State :=
  let c := s.ctx slot
  (s.host.windows.filter fun (e : Nat × Window) => e.2.busy && c.holdsQueue e.1).foldl (fun (s : State) e =>
    State.endWindow { s with disp := { s.disp with report := s.disp.report ++ [(c.asid, e.2.rung.1, e.2.rung.2.1)] } } e.1 0) s

/-- CONTEXT_TEARDOWN (R219, R301, R317, R367, R371, R394): teams, tasks, launches, wide barriers, handles and tag records of the
context are discarded; no counter moves; its launches, and those that its windows are submitting, enter the teardown report. -/
def execContextTeardown (slot : Nat) (s : State) : Result :=
  event s fun s =>
    let c := s.ctx slot
    if !c.resident then s
    else
      let ts := (s.teams.filter fun e => e.2.slot == slot).map (·.1)
      let ls := s.disp.launches.filterMap fun e => e.2.bind fun l => if l.slot = slot then some (c.asid, l.hdrAddr, l.word) else none
      let s := (s.dropRung slot).freeInstances slot
      let s := if s.ctrl.patEnable && s.ctrl.patAsid == c.asid then
          { s.patOff with ctrl := { s.ctrl with patEnable := false } } else s
      let s := (s.clearTags fun r => r.asid == c.asid).clearSlot slot
      { s with
        cores := s.cores.map fun e => (e.1, e.2.forget ts.contains)
        disp := { s.disp with report := s.disp.report ++ ls } }

/-- TEAM_HALT (R338, R340, R342, R433): the skid of a trap or of a debugger's halt ends. A debugger's halt records the skids and a
record of type 1. -/
def execTeamHalt (team : Nat) (s : State) : Result :=
  event s fun s =>
    match (s.team team).halt with
    | .skid p _ => s.enterHandler team p
    | .debugSkid _ => s.haltByDebugger team
    | _ => s

end Sys2Proof.Machine
end

