-- ==== Sys2Proof/Machine/Privileged.lean ====
section
/-! DEFINITION. The words of major 0x3F (R188 to R190): page tables and their caches (R324 to R328), the fault queue (R335),
`resume` (R336), and the context image with `ctx.save` and `ctx.rest` (R314, R347 to R350, R386). -/

namespace Sys2Proof.Machine

open Sys2Proof

/-! ### Page tables -/

/-- Levels that remain below the one that an entry's size names (R324, R326). -/
def entryStop (e : Nat) : Nat := if bits e 7 6 = 3 then 0 else bits e 7 6

/-- Where a walk of an ASID's tables places the entry of an address, when it can be written (R188). -/
def State.entryAt (s : State) (slot va stop : Nat) : Option Place :=
  match s.entryPlace va stop 5 (s.ctx slot).root.toNat with
  | some (.near a) => if (s.physCheck true a).isNone then some (.near a) else none
  | some (.far a k) => if (s.physCheck false a).isNone && s.hasKey 0 then some (.far a k) else none
  | _ => none

/-- The ASID that an operand names (R188). -/
def asidOf (x : W64) : BitVec 16 := x.setWidth 16

/-- MAP (R188). -/
def execMap (d a b : BitVec 6) (st : BitVec 2) (s : State) : Result :=
  gate (.map d a b st) s fun s =>
    let va := (s.getS a).toNat
    let e := (s.rdS (a.toNat + 1)).toNat
    let asid := asidOf (s.getS b)
    if !entryOk e then s.illegal true 3
    else match s.slotOf asid with
      | none => s.putS d 2
      | some slot => match s.entryAt slot va (entryStop e) with
        | none => s.putS d 1
        | some p =>
          let n := leafBytes (entryStop e)
          ((s.writePlace p 8 e).dropLeaves asid (va / n * n) n).putS d 0

/-- The entry that ends a walk of an address as a leaf: its level's remaining steps and its place (R188, R324). -/
def State.leafPlace (s : State) (slot va : Nat) : Option (Nat × Place) :=
  [2, 1, 0].findSome? fun stop => match s.entryAt slot va stop with
    | none => none
    | some p => if 2 ≤ s.readPlace p 8 % 4 then some (stop, p) else none

/-- UNMAP (R188): an absent entry is left absent; without a resident context only the invalidation takes place. -/
def execUnmap (a b : BitVec 6) (st : BitVec 2) (s : State) : Result :=
  gate (.unmap a b st) s fun s =>
    let va := (s.getS a).toNat
    let asid := asidOf (s.getS b)
    match (s.slotOf asid).bind fun slot => s.leafPlace slot va with
    | none => (s.dropLeaves asid va 1).advance
    | some (stop, p) =>
      let n := leafBytes stop
      ((s.writePlace p 8 0).dropLeaves asid (va / n * n) n).advance

/-- TLBINV (R188). -/
def execTlbinv (a b : BitVec 6) (st : BitVec 2) (s : State) : Result :=
  gate (.tlbinv a b st) s fun s =>
    let va := (s.getS a).toNat
    let x := s.getS b
    match bits x.toNat 17 16 with
    | 0 => (s.dropLeaves (asidOf x) va 1).advance
    | 1 => (State.advance { s with tlb := s.tlb.filter fun e => e.asid != asidOf x })
    | 2 => State.advance { s with tlb := [] }
    | _ => s.illegal true 3

/-- FQ_POP (R188, R335). DEDUCED: a record in uncorrectable error is an access violation at its near address, and stays (R351, log
59). -/
def execFqPop (d : BitVec 6) (n st : BitVec 2) (s : State) : Result :=
  gate (.fqPop d n st) s fun s =>
    if s.fq.count ≠ 0 ∧ s.isBad (.near s.oldestRecord) 32 = true then s.violateUniform 4 s.oldestRecord .read
    else match s.popFaultRecord with
    | none => (s.setFlags n.toNat false).advance
    | some (v, s) =>
      (((List.range 4).foldl (fun (s : State) i => s.setS (d.toNat + i) (w64 (v / 2 ^ (64 * i)))) s).setFlags n.toNat true).advance

/-! ### `resume` (R336) -/

/-- The page of an address under an ASID: the leaf that a walk finds, else the 64 KiB granule (R336). -/
def State.pageOf (s : State) (asid : BitVec 16) (va : Nat) : Nat × Nat :=
  let granule := (va / 2 ^ 16 * 2 ^ 16, 2 ^ 16)
  if 2 ^ 57 ≤ va then granule
  else match (s.slotOf asid).map fun slot => s.walkFrom va 5 (s.ctx slot).root.toNat with
    | some (.ok (_, n)) => (va / n * n, n)
    | _ => granule

/-- A parked address lies in a page. -/
def inPage (page : Nat × Nat) (a : W64) : Bool := decide (page.1 ≤ a.toNat) && decide (a.toNat < page.1 + page.2)

/-- The lane is parked on the page. -/
def Lane.parkedIn (x : Lane) (page : Nat × Nat) : Bool :=
  match x.wait with
  | .parked a _ => inPage page a
  | _ => false

/-- The word is performed again at once where the party runs; else, and for a version's sake, it is marked (R336). -/
def Lane.resumed (x : Lane) (runs : Bool) : Lane :=
  match x.wait with
  | .parked _ false => if runs then { x with wait := .none } else { x with marked := true }
  | .parked _ true => { x with marked := true }
  | _ => x

/-- Whether a parked lane of party k runs as a resident party does: its team runs, or it parked in the handler that its party
runs (R336, R340). -/
def Team.laneRuns (T : Team) (k l : Nat) : Bool :=
  T.resident && T.drainFrom.isNone
    && (match T.halt with
        | .running => true
        | .handler p => p == k && (T.party k).laneParked l
        | _ => false)

/-- The effect of `resume` on a team. -/
def Team.resume (T : Team) (page : Nat × Nat) : Team :=
  { T with parties := T.parties.map fun (e : Nat × Party) =>
      (e.1, e.2.mapLanes (e.2.active.filter fun l => (e.2.lane l).parkedIn page) fun l x => x.resumed (T.laneRuns e.1 l)) }

/-- A lane of the team is parked on the page. -/
def Team.parkedIn (T : Team) (page : Nat × Nat) : Bool :=
  T.parties.any fun e => e.2.active.any fun l => (e.2.lane l).parkedIn page

/-- `resume` on team t: its lanes, and its place in its queue when it was switched out for parked lanes (R336, R337). -/
def State.resumeTeam (s : State) (t : Nat) (page : Nat × Nat) : State :=
  let T := s.team t
  if !T.parkedIn page then s
  else
    let s := T.parties.foldl (fun (s : State) e =>
      let ls := e.2.active.filter fun l => (e.2.lane l).parkedIn page && T.laneRuns e.1 l
      s.trace t e.1 ls 3 1 (fun l => (e.2.lane l).pc) fun _ => 0) s
    let s := s.setTeam t { (s.team t).resume page with parkedOut := false }
    if T.parkedOut && !T.resident then s.returnTeam t else s

/-- `resume` of an address under an ASID (R190, R336). -/
def State.resume (s : State) (va : Nat) (asid : BitVec 16) : State :=
  let page := s.pageOf asid va
  let s := ((s.teams.filter fun e => e.2.live && e.2.asid == asid).map (·.1)).foldl (fun (s : State) t => s.resumeTeam t page) s
  let mark := fun (T : Team) => if T.parkedIn page then { T.resume page with parkedOut := false } else T
  { s with
    tasks := s.tasks.map fun t =>
      if t.asid == asid && t.state == .parked && inPage page t.parkedAt then { t with state := .running, quiet := false } else t
    images := s.images.map fun e => if e.2.asid = asid then (e.1, { e.2 with teams := e.2.teams.map fun (p : Nat × Team) => (p.1, mark p.2) }) else e }

/-- RESUME (R188, R190, R336). -/
def execResume (a b : BitVec 6) (st : BitVec 2) (s : State) : Result :=
  gate (.resume a b st) s fun s =>
    let va := (s.getS a).toNat
    let asid := asidOf (s.getS b)
    let s := s.resume va asid
    State.advance { s with cyc := { s.cyc with resumed := (asid, va) :: s.cyc.resumed } }

/-- At the end of a cycle each `resume` of it acts on what has parked in the cycle since (R190). -/
def State.resumeAgain (s : State) : State := s.cyc.resumed.foldl (fun (s : State) e => s.resume e.2 e.1) s

/-! ### Context images (R347) -/

/-- Places in an image: team entries, task entries, launch entries, length; the last 8 bytes hold its serial number (R347, log 18). -/
def imagePlaces (teams tasks launches : Nat) : Nat × Nat × Nat × Nat :=
  let t := 0x300
  let k := 64 * cdiv (t + 16 * teams) 64
  let l := 128 * cdiv (k + 64 * tasks) 128
  (t, k, l, 4096 * cdiv (l + 128 * launches + 8) 4096)

/-- A launch's 128 bytes (R347). -/
def Launch.image (l : Launch) : Nat :=
  l.hdrAddr.toNat + 2 ^ 64 * l.word.toNat + 2 ^ 128 * packBytes 8 (l.params.map (·.toNat))

/-- The code of a task's state in its entry. -/
def TaskState.code : TaskState → Nat
  | .waiting => 0 | .ready => 1 | .running => 2 | .parked => 3 | .squashed => 4

/-- A task's 64 bytes: number, state, P, and the edges, as many as there is room for (R314, R347; their places are the model's, log
18). -/
def Task.image (t : Task) : Nat :=
  t.n + 2 ^ 16 * t.state.code + 2 ^ 32 * t.edges.length + 2 ^ 64 * t.prog
    + 2 ^ 128 * ((t.edges.take 24).zipIdx.map fun e => e.1 * 2 ^ (16 * e.2)).sum

/-- A launch has unplaced teams. -/
def Launch.queued (l : Launch) : Bool := decide (l.placed < l.count)

/-- Teams of a slot: those that wait at the heads of their queues first, in order. -/
def State.teamsInOrder (s : State) (slot : Nat) : List (Nat × Team) :=
  let back := s.disp.returned.flatMap (·.2)
  let mine := s.teams.filter fun e => e.2.live && e.2.slot == slot
  (back.filterMap fun t => mine.find? fun e => e.1 == t) ++ mine.filter fun e => !back.contains e.1

/-- The counters of a task, moved from one grant to another. -/
def Task.rebase (t : Task) (f : Nat → Nat) : Task := { t with gate := t.gate.map f, done := t.done.map f }

/-- A task as an image holds it: running and parked jobs are squashed, but a job of kind 2 whose teams run; a copy has no entry of the
range scoreboard until its team is placed again (R256, R313, R314). -/
def Task.saved (t : Task) : Task :=
  let t := { t with range := none, sent := false }
  if (t.state == .running || t.state == .parked) && t.launched.isNone then { t with state := .squashed, buf := [], quiet := false } else t

/-- What `ctx.save` keeps of a context beside the bytes of its image (R257, R314, R347, R349). -/
def State.imageOf (s : State) (slot : Nat) : Image :=
  let c := s.ctx slot
  let rel := fun (i : Nat) => i - bits c.cgrant.toNat 11 0
  { asid := c.asid, teams := s.teamsInOrder slot, wide := c.wide, nextLaunch := c.nextLaunch, hidden := s.stackExtents slot
    tasks := (s.tasks.filter fun t => t.slot == slot && t.entry).map fun t => t.saved.rebase rel
    instances := (s.instances.filter fun i => i.slot == slot).map fun i => { i with done := i.done.map rel }
    launches := s.disp.launches.filterMap fun e => e.2.bind fun l =>
      if l.slot = slot then some (e.1, { l with queue := l.queue - bits c.qgrant.toNat 5 0 }) else none }

/-- The queued launches of an image, in its order. -/
def Image.queue (i : Image) : List (Nat × Launch) := i.launches.filter fun e => e.2.queued

/-- The parts of the image that `ctx.save` writes for the context in a slot: offset, bytes, value (R347). -/
def State.imageFields (s : State) (slot : Nat) : List (Nat × Nat × Nat) :=
  let c := s.ctx slot
  let i := s.imageOf slot
  let p := imagePlaces i.teams.length i.tasks.length i.queue.length
  let header := [0x1_5854_4347, p.2.2.2, c.control.toNat, c.root.toNat, c.asid.toNat, c.cgrant.toNat, c.qgrant.toNat, c.prio.toNat
    , c.stackbase.toNat, c.stackbytes.toNat, c.savebase.toNat, c.savebytes.toNat, c.handler.toNat, c.seqhandler.toNat
    , p.1 + 2 ^ 32 * i.teams.length, p.2.1 + 2 ^ 32 * i.tasks.length, p.2.2.1 + 2 ^ 32 * i.queue.length]
  [(0, 0x100, packBytes 8 header), (0x100, 0x200, packBytes 32 ((List.range 16).map fun j => (FMap.get {} c.wide j : Barrier).image))]
    ++ fieldsFrom p.1 16 16 (i.teams.map fun e => s.recordAt e.2) ++ fieldsFrom p.2.1 64 64 (i.tasks.map (·.image))
    ++ fieldsFrom p.2.2.1 128 128 (i.queue.map fun e => e.2.image) ++ [(p.2.2.2 - 8, 8, s.free + 1)]

/-- Stores parts of a record from address A on by the issuing word. -/
def State.writeFields (s : State) (A : Nat) : List (Nat × Nat × Nat) → Except (Nat × Got) State
  | [] => .ok s
  | f :: rest => match s.writeSpan (A + f.1) f.2.1 f.2.2 f.2.1 with
    | .error e => .error e
    | .ok s => s.writeFields A rest

/-- Stores of a uniform word that cannot be made; a store to a peer window meets detail 5 where the device would wait. -/
def State.stopWrite (s : State) (e : Nat × Got) : State :=
  match e.2 with
  | .peer _ _ => s.violateUniform 5 e.1 .write
  | g => s.missUniform g e.1 8 .write

/-- CTX_SAVE (R188, R189, R314, R344, R350): the teams of the context are pre-empted, the image is written, and the slot is
free; each halted team leaves a record of type 3, which names the party whose trap halted it. DESIGN CHOICE: of a team halted by the
debugger, without such a party, it names the first party (R350, log 71). -/
def execCtxSave (a b : BitVec 6) (st : BitVec 2) (s : State) : Result :=
  gate (.ctxSave a b st) s fun s =>
    let slot := (s.getS a).toNat % 64
    let A := (s.getS b).toNat
    if slot = s.curTeam.slot ∨ (s.ctx slot).resident = false ∨ A % 4096 ≠ 0 then s.illegal true 3
    else match s.writeFields A (s.imageFields slot) with
      | .error e => s.stopWrite e
      | .ok written =>
        let away := (s.teams.filter fun e => e.2.live && e.2.resident && e.2.slot == slot).map (·.1)
        if !away.isEmpty || s.slotAsks slot then
          (away.foldl (fun (s : State) t => s.preempt t (s.team t).parkedOut) s).hold (.saving slot)
        else
          let img := s.imageOf slot
          let s := img.teams.foldl (fun (s : State) e =>
            if e.2.isHalted then s.partyRecord e.1 (e.2.holder.getD ((e.2.parties.head?.map (·.1)).getD 0)) 3 else s) written
          State.advance ({ s with images := FMap.set {} s.images (s.free + 1) img }.clearSlot slot)

/-! ### Restoring (R350) -/

/-- The control block of an image header as a resident context. -/
def ctxOf (v : Nat) : Ctx :=
  let w := fun i => w64 (v / 2 ^ (64 * i))
  { resident := true, asid := BitVec.ofNat 16 (v / 2 ^ 256), root := w 3, control := w 2, cgrant := w 5, qgrant := w 6, prio := w 7
    stackbase := w 8, stackbytes := w 9, savebase := w 10, savebytes := w 11, handler := w 12, seqhandler := w 13 }

/-- Two ranges have a number in common. -/
def rangesMeet (a n b m : Nat) : Bool := decide (0 < n) && decide (0 < m) && decide (a < b + m) && decide (b < a + n)

/-- A context's grants overlap another's. -/
def Ctx.grantsMeet (c d : Ctx) : Bool :=
  rangesMeet (bits c.cgrant.toNat 11 0) (bits c.cgrant.toNat 24 12) (bits d.cgrant.toNat 11 0) (bits d.cgrant.toNat 24 12)
    || rangesMeet (bits c.qgrant.toNat 5 0) (bits c.qgrant.toNat 12 6) (bits d.qgrant.toNat 5 0) (bits d.qgrant.toNat 12 6)

/-- An image header of 0x100 bytes that R350 refuses, for the resident contexts given. -/
def headerRefused (ctxs : FMap Ctx) (v : Nat) : Bool :=
  let c := ctxOf v
  let cg := c.cgrant.toNat
  let qg := c.qgrant.toNat
  bits v 31 0 != 0x58544347 || bits v 47 32 != 1 || bits v 63 48 != 0 || bits v 2047 1088 != 0
    || bits c.control.toNat 63 56 != 0 || bits c.control.toNat 29 9 != 0 || bits c.control.toNat 2 0 != 0
    || bits v 319 272 != 0 || bits cg 63 25 != 0 || bits qg 63 13 != 0
    || ((List.range 16).any fun i => bit c.prio.toNat (4 * i + 3))
    || decide (4096 < bits cg 11 0 + bits cg 24 12) || decide (16 < bits qg 12 6) || decide (64 < bits qg 5 0 + bits qg 12 6)
    || (rangesMeet (bits qg 5 0) (bits qg 12 6) 56 8 && !c.control.getLsbD 8)
    || ctxs.any fun e => e.2.resident && (e.2.asid == c.asid || e.2.grantsMeet c)

/-- Counts of teams, tasks and launches in an image header (R347). -/
def imageCounts (v : Nat) : Nat × Nat × Nat := (bits v 959 928, bits v 1023 992, bits v 1087 1056)

/-- What the bytes of an image say: its header, its wide barriers, serial number, the addresses of its team records, the numbers of its
tasks, and its launch entries (R347). -/
structure Bytes where
  header : Nat
  wide : List Nat
  serial : Nat
  records : List Nat
  tasks : List Nat
  launches : List Nat
  deriving DecidableEq, Repr

/-- The word goes on with the bytes of the image at A, or stops at one that cannot be read (R350). -/
def State.withImage (s : State) (A : Nat) (k : State → Bytes → State) : State :=
  s.withRecord A 96 fun s w =>
    let v := w % 2 ^ 2048
    let n := imageCounts v
    let length := bits v 127 64
    if n = (0, 0, 0) ∧ w / 2 ^ 2048 = 0 then
      k s { header := v, wide := [], serial := 0, records := [], tasks := [], launches := [] }
    else s.withRecord (A + length - 8) 1 fun s serial =>
      s.withSpan (A + bits v 927 896) (16 * n.1) fun s ts =>
        s.withSpan (A + bits v 991 960) (64 * n.2.1) fun s ks =>
          s.withSpan (A + bits v 1055 1024) (128 * n.2.2) fun s ls =>
            k s { header := v, wide := numbersOf (w / 2 ^ 2048) 32 16, serial := serial
                  records := (numbersOf ts 16 n.1).map (· % 2 ^ 64), tasks := (numbersOf ks 64 n.2.1).map (· % 2 ^ 16)
                  launches := numbersOf ls 128 n.2.2 }

/-- What the model keeps of the image with a serial number; nothing of one that the device has not written. -/
def State.imageFor (s : State) (serial : Nat) : Image := FMap.get {} s.images serial

/-- The saved team of the record at an address: that which the record's first bytes name (R349), or where they cannot be read, that
whose reservation it is. -/
def State.savedTeam (s : State) (slot a : Nat) (i : Image) : Option (Nat × Team) :=
  match s.readAs slot a 8 8 with
  | .ok v => i.teams.find? fun e => e.2.number.toNat + 2 ^ 32 * e.2.launch.toNat == v
  | .error _ => i.teams.find? fun e => s.recordAt { e.2 with slot := slot } == a

/-- A team as its record gives it back: the halted bit may have been changed (R343, R349). -/
def State.restoreTeam (s : State) (slot a : Nat) (T : Team) : Team :=
  let c := s.ctx slot
  let T := { T with slot := slot, asid := c.asid, saveAt := a - c.savebase.toNat }
  match s.readAs slot (a + 0x10) 8 8 with
  | .error _ => T
  | .ok v =>
    if bit v 32 && T.halt == .running then { T with halt := .halted }
    else if !bit v 32 && T.halt == .halted then T.release
    else T

/-- The new number of one that has been renamed. -/
def renamed (names : List (Nat × Nat)) (n : Nat) : Nat := ((names.find? fun e => e.1 == n).map (·.2)).getD n

/-- A region of a local window whose team has a new key. -/
def Region.rename (r : Region) (ts : List (Nat × Nat)) : Region := { r with team := r.team.map (renamed ts) }

/-- A saved task of a team that has a new key: its own name of it and that of each of its regions (R256, R308, R313). -/
def Task.rename (t : Task) (ts : List (Nat × Nat)) : Task :=
  { t with
    team := renamed ts t.team
    regions := t.regions.map (·.rename ts)
    job := match t.job with
      | .list ps => .list (ps.map fun p => (p.1.rename ts, p.2.rename ts))
      | .fill rs => .fill (rs.map (·.rename ts))
      | j => j }

/-- Saved tasks are received in their receipt order under new numbers; `ts` are the new keys of their teams, `ls` those of their
launches (R310, R314). -/
def State.receiveSaved (s : State) (slot : Nat) (ts ls : List (Nat × Nat)) (ks : List Task) : State :=
  let c := s.ctx slot
  let names := (ks.map (·.n)).zip ((List.range (s.tasks.length + ks.length)).filter fun n => (s.task n).isNone)
  let put := fun (t : Task) =>
    let t := { t.rename ts with slot := slot, asid := c.asid }
    { t.rebase (· + bits c.cgrant.toNat 11 0) with
      n := renamed names t.n, edges := t.edges.map (renamed names)
      launched := t.launched.map (renamed ls)
      state := if t.state == .squashed && !s.namesLocal t t.team then .running else t.state }
  let new := ks.map put
  let s := { s with
    tasks := s.tasks ++ new
    disp := { s.disp with launches := s.disp.launches.map fun e => (e.1, e.2.map fun l => match l.src with
      | .task n => if l.slot = slot then { l with src := .task (renamed names n) } else l
      | _ => l) } }
  new.foldl (fun (s : State) t => match t.gate with | some g => s.examineCounter g | none => s) s

/-- The launch of an image's entry whose bytes are these, where the image's context had queued a launch: its header address, word and
parameters are the entry's, a word that the launch did not have before names its queue, and a header that it did not have is read now; none
when R173 refuses it (R347). DESIGN CHOICE: it goes on with the teams that have been placed of the saved launch (log 18). -/
def State.entryLaunch (s : State) (slot : Nat) (old : Launch) (entry : Nat) : Option Launch :=
  let H := entry % 2 ^ 64
  let word := w64 (entry / 2 ^ 64)
  let hdr := if w64 H = old.hdrAddr then some old.hdr else match s.readAs slot H 64 64 with
    | .ok v => parseHeader H v
    | .error _ => none
  match hdr with
  | none => none
  | some h =>
    let q := if word = old.word then old.queue else bits word.toNat 37 32
    let l := { old with hdrAddr := w64 H, hdr := h, word := word, queue := q, params := wordsOf (entry / 2 ^ 128) h.params }
    match (s.ctx slot).queueAt q with
    | none => none
    | some n => if (s.ctx slot).badLaunchWord word.toNat || (decide (56 ≤ n) && h.seq) || !l.queued then none else some l

/-- A launch entry of an image: the launch that the image's context had queued there, as the entry's bytes now describe it, else one that
software has written, whose header is read now and which R173 may refuse (R347). -/
def State.restoreLaunch (s : State) (slot : Nat) (i : Image) (j entry : Nat) : State × Option (Nat × Nat) :=
  let c := s.ctx slot
  let put := fun (l : Launch) =>
    let k := s.disp.nextLaunch
    let q := l.queue + bits c.qgrant.toNat 5 0
    ({ s with disp := { s.disp with
        launches := FMap.set none s.disp.launches k (some { l with slot := slot, queue := q })
        queues := FMap.set [] s.disp.queues q (s.queue q ++ [k]), nextLaunch := k + 1 } }, k)
  match i.queue[j]? with
  | some e => match s.entryLaunch slot e.2 entry with
    | some l => let r := put l; (r.1, some (e.1, r.2))
    | none => (s, none)
  | none =>
    let word := w64 (entry / 2 ^ 64)
    ((s.launchAs slot (entry % 2 ^ 64) word (c.queueAt (bits word.toNat 37 32)) 8 (fun n => wordsOf (entry / 2 ^ 128) n) (.host 0) 0 0 false).1
    , none)

/-- Launches of an image whose last team has been placed, for the restored teams' sake. -/
def State.restorePlaced (s : State) (slot : Nat) (i : Image) (keep : Nat → Bool) : State × List (Nat × Nat) :=
  (i.launches.filter fun e => !e.2.queued && keep e.1).foldl (fun (r : State × List (Nat × Nat)) e =>
    let k := r.1.disp.nextLaunch
    let q := e.2.queue + bits (r.1.ctx slot).qgrant.toNat 5 0
    ({ r.1 with disp := { r.1.disp with
        launches := FMap.set none r.1.disp.launches k (some { e.2 with slot := slot, queue := q }), nextLaunch := k + 1 } }
    , (e.1, k) :: r.2)) (s, [])

/-- Puts a restored team behind the others at the head of its queue, unless it waits for a `resume` (R337, R350). -/
def State.restoreAt (s : State) (t : Nat) (T : Team) : State :=
  let s := s.setTeam t T
  let q := s.teamQueue T
  if T.parkedOut then s else { s with disp := { s.disp with returned := FMap.set [] s.disp.returned q (s.returnedTo q ++ [t]) } }

/-- The wide barriers of an image, with the parties of those that nobody has changed (R299, R347). -/
def Bytes.barriers (b : Bytes) (i : Image) (ts : List (Nat × Nat)) : FMap Barrier :=
  b.wide.zipIdx.foldl (fun (m : FMap Barrier) e =>
    let old : Barrier := FMap.get {} i.wide e.2
    let phi := old.phi.foldl (fun (p : FMap Nat) x => FMap.set 0 p (128 * renamed ts (x.1 / 128) + x.1 % 128) x.2) []
    FMap.set {} m e.2 (if old.image = e.1 then { old with phi := phi } else barrierOfImage e.1)) []

/-- An image whose context is on the device again: its return stacks and its jobs' frames are those of the restored teams and tasks (R257,
R293). -/
def Image.taken (i : Image) : Image := { i with hidden := [], tasks := i.tasks.map fun t => { t with frames := [] } }

/-- Puts the context of an image into a slot: barriers, launches on their queues, teams at the heads of their queues, tasks (R350). -/
def State.restoreImage (s : State) (slot : Nat) (b : Bytes) : State :=
  let i := s.imageFor b.serial
  let s := if (FMap.get {} s.images b.serial : Image) = {} then s else { s with images := FMap.set {} s.images b.serial i.taken }
  let first := s.disp.nextTeam
  let s := s.setCtx slot { ctxOf b.header with nextLaunch := i.nextLaunch }
  let found := dedup (b.records.filterMap fun a => (s.savedTeam slot a i).map fun e => (e.1, s.restoreTeam slot a e.2))
  let ts := found.zipIdx.map fun e => (e.1.1, first + e.2)
  let s := s.setCtx slot { s.ctx slot with wide := b.barriers i ts }
  let r := b.launches.zipIdx.foldl (fun (r : State × List (Nat × Nat)) e =>
    let q := r.1.restoreLaunch slot i e.2 e.1
    (q.1, q.2.toList ++ r.2)) (s, [])
  let p := r.1.restorePlaced slot i fun k => found.any fun e => e.2.launchKey == k
  let ls := p.2 ++ r.2
  let s := { p.1 with disp := { p.1.disp with nextTeam := first + found.length } }
  let s := found.foldl (fun (s : State) e => s.restoreAt (renamed ts e.1) { e.2 with launchKey := renamed ls e.2.launchKey }) s
  let cg := bits (s.ctx slot).cgrant.toNat 11 0
  let s := { s with instances := s.instances ++ i.instances.map fun (x : Instance) =>
    { x with slot := slot, asid := (s.ctx slot).asid, team := renamed ts x.team, done := x.done.map (· + cg) } }
  s.receiveSaved slot ts ls (b.tasks.filterMap fun n => i.tasks.find? fun t => t.n == n)

/-- CTX_REST (R188, R189, R314, R350): the header is checked before the slot changes; the restore waits while task entries are
short. -/
def execCtxRest (a b : BitVec 6) (st : BitVec 2) (s : State) : Result :=
  gate (.ctxRest a b st) s fun s =>
    let slot := (s.getS a).toNat % 64
    let A := (s.getS b).toNat
    if (s.ctx slot).resident ∨ A % 4096 ≠ 0 then s.illegal true 3
    else s.withRecord A 32 fun s v =>
      if headerRefused s.ctxs v then s.illegal true 3
      else s.withImage A fun s b =>
        if s.freeEntries < b.tasks.length then s.hold (.restoring b.tasks.length)
        else State.advance (State.updateStep { s.restoreImage slot b with ctrl := { s.ctrl with mcfgFixed := true } })

end Sys2Proof.Machine
end

