-- ==== Sys2Proof/Machine/Links.lean ====
section
/-! DEFINITION. What reaches the module from its peers and its links: drained write-combining lines (R288, R289), requests at
the target (R296, R329, R416, R417, R423), responses and acknowledgements (R406, R461), link states (R422, R426) and
unreachable modules (R424). -/

namespace Sys2Proof.Machine

open Sys2Proof

/-! ### The write-combining buffer -/

/-- WCB_AGE_DRAIN (R288). -/
def execWcbAgeDrain (core : Nat) (s : State) : Result :=
  event s fun s => s.drain core fun l => decide (l.since + s.ctrl.wcbAge.toNat ≤ s.now)

/-- Drains every line of every core (R289). -/
def State.flushAll (s : State) : State := (s.cores.map (·.1)).foldl (fun (s : State) c => s.drain c fun _ => true) s

/-- WCB_FLUSH (R289). -/
def execWcbFlush (s : State) : Result := event s State.flushAll

/-! ### Requests at the target -/

/-- One lane of a request, performed at its home under the tables of the context in a slot: the value it returns; or the detail with
which it is refused, and whether a unit in uncorrectable error is why (R351, R416). A store may bring some low bits of a byte (R156,
log 86). -/
def State.serveLane (s : State) (slot : Nat) (r : PeerReq) (p : PeerLane) : Except (Nat × Bool) (State × Nat) :=
  let acc : Acc := match r.op with | .load | .ldv => .read | .store => .write | .atom | .red => .atomic
  let refused := fun (m : Miss) => Except.error (5, m == .bad 4)
  let fetched := fun (q : Place) (k : Nat → State × Nat) => match s.fetchPlace q p.size with
    | .ok v => .ok (k v)
    | .error m => refused m
  match s.locate slot 0 acc p.addr.toNat p.size with
  | .ok (.phys q) => match r.op with
    | .load | .ldv => fetched q fun v => (s, v)
    | .store => .ok (s.storePlace q p.size (if p.y = 0 then p.x else lowBits p.y (s.readPlace q p.size) p.x), 0)
    | .atom => fetched q fun v => (s.storePlace q p.size (atomNew r.code r.ty p.size v p.x p.y), v)
    | .red => fetched q fun v => (s.storePlace q p.size (redNew r.code r.ty p.size v p.x), 0)
  | .ok (.ring npa off) =>
    if r.op != .load then .error (6, false)
    else match s.readLoc [] (.ring npa off) p.size with
      | .ok v => .ok (s, v)
      | .error m => refused m
  | .ok _ => .error (5, false)
  | .error m => refused m

/-- The lanes of a request one after another, each walk leaving what R328 keeps of it; or the address at which it is refused, with
why. -/
def State.serveRequest (s : State) (slot : Nat) (r : PeerReq) : List PeerLane → Except ((Nat × Bool) × W64) (State × List Nat)
  | [] => .ok (s, [])
  | p :: rest => match (s.keepLeaf slot p.addr.toNat).serveLane slot r p with
    | .error d => .error (d, p.addr)
    | .ok (s, v) => match s.serveRequest slot r rest with
      | .error e => .error e
      | .ok (s, vs) => .ok (s, v :: vs)

/-- Lowest lane number of a request. -/
def lowestLane (r : PeerReq) : Nat := (r.lanes.head?.map (·.lane)).getD 0

/-- A request performed or refused: a refusal changes nothing but what its walks leave cached (R328), the violation log, and the error
count where it meets a unit in uncorrectable error (R329, R331, R458, R461). -/
def State.perform (s : State) (r : PeerReq) : State × PeerAnswer :=
  let refuse := fun (s : State) (d : Nat) (a : W64) =>
    (s.logViolation a.toNat (violationWord r.asid d (match r.op with | .load | .ldv => 0 | .store => 1 | _ => 2) r.src r.core r.strand
      (lowestLane r) false) 0, PeerAnswer.error d)
  match s.slotOf r.asid with
  | none => refuse s 5 ((r.lanes.head?.map (·.addr)).getD 0)
  | some slot => match s.serveRequest slot r r.lanes with
    | .error e =>
      let s := ((r.lanes.map (·.addr)).takeWhile (· != e.2) ++ [e.2]).foldl (fun (s : State) a => s.keepLeaf slot a.toNat) s
      refuse (if e.1.2 then s.countUncorrected else s) e.1.1 e.2
    | .ok (s, vs) => (s, .data (if r.op = .store ∨ r.op = .red then [] else vs))

/-- The answer goes back to the requesting core on the response class (R411, R417). -/
def State.answer (s : State) (r : PeerReq) (a : PeerAnswer) : State :=
  if r.src ≠ s.module then (s.transmit (1024 * s.pod + r.src) .response (.response r.src r.core r.seq a)).1
  else match r.op with
    | .store | .red => s.later (.peerAckLand r.core r.dst r.seq (match a with | .error d => some d | .data _ => none))
    | _ => s.later (.peerResponseLand r.core r.dst r.seq a)

/-- What the target keeps of the channel of a requesting core. -/
def State.ingressOf (s : State) (r : PeerReq) : Ingress := FMap.get {} s.fab.ingress (2048 * r.src + r.core)

/-- Writes what the target keeps of a channel. -/
def State.setIngress (s : State) (r : PeerReq) (g : Ingress) : State :=
  { s with fab := { s.fab with ingress := FMap.set {} s.fab.ingress (2048 * r.src + r.core) g } }

/-- The next request of a channel is performed and answered; the response of another module's is kept, under a number of its own, until
that module acknowledges it (R417, R423). -/
def State.deliver (s : State) (r : PeerReq) : State :=
  let q := s.perform r
  let g := q.1.ingressOf r
  if r.src = s.module then (q.1.setIngress r { g with next := g.next + 1 }).answer r q.2
  else
    let u := q.1.nextUnit (1024 * s.pod + r.src) 1
    (u.2.setIngress r { g with next := g.next + 1, stored := g.stored ++ [(r.seq, u.1, q.2)] }).answer r q.2

/-- The reorder buffer gives up the requests whose turn has come (R417, R423). -/
def State.deliverAhead (s : State) (r : PeerReq) : Nat → State
  | 0 => s
  | n + 1 =>
    let g := s.ingressOf r
    match g.ahead.find? fun q => q.seq == g.next with
    | none => s
    | some q => ((s.setIngress r { g with ahead := g.ahead.filter fun p => p.seq != q.seq }).deliver q).deliverAhead r n

/-- PEER_REQUEST_RECEIVE (R417, R423): a channel's requests are performed in sequence order; one that is ahead waits in the reorder
buffer; a duplicate has its stored response sent again. -/
def execPeerRequestReceive (r : PeerReq) (s : State) : Result :=
  event s fun s =>
    let g := s.ingressOf r
    if r.dst ≠ s.module then s
    else if g.next < r.seq then
      if g.ahead.any fun q => q.seq == r.seq then s else s.setIngress r { g with ahead := g.ahead ++ [r] }
    else if r.seq < g.next then
      match g.stored.find? fun e => e.1 == r.seq with
      | none => s
      | some e => s.answer r e.2.2
    else (s.deliver r).deliverAhead r g.ahead.length

/-! ### Responses and acknowledgements -/

/-- Takes the outstanding request of a sequence number off its channel: its slot and response line are free. -/
def State.takeOutstanding (s : State) (core module seq : Nat) : Option (Outstanding × State) :=
  let K := s.core core
  let ch := K.chan module
  match ch.out.find? fun o => o.req.seq == seq with
  | none => none
  | some o => some (o, s.setCore core (K.setChan module { ch with out := ch.out.filter fun p => p.req.seq != seq }))

/-- A landing value in one destination register of a lane, if the request's entry still stands (R212, R406). -/
def Lane.landReg (x : Lane) (tag : Nat) (r : RegRef) (v : Nat) : Lane :=
  if x.pend.any fun e => e.reg == r && e.tag == tag then (match r with
    | .v n => x.setReg n (w32 v)
    | _ => x) else x

/-- The scoreboard entries of a word's destinations are written (R212, R406). -/
def Lane.landPend (x : Lane) (tag : Nat) (rs : List RegRef) : Lane :=
  { x with pend := x.pend.map fun e => if e.tag == tag && rs.contains e.reg then { e with written := true } else e }

/-- A landing value in a lane's destinations, lowest register lowest (R25, R406). -/
def Lane.land (x : Lane) (tag : Nat) (rs : List RegRef) (v : Nat) : Lane :=
  (rs.zipIdx.foldl (fun (x : Lane) e => x.landReg tag e.1 (v / 2 ^ (32 * e.2))) x).landPend tag rs

/-- A landing value in the destinations of one carried lane: its own registers, or the strand's uniform register if the lane's
entry still stands (R24, R125, R406). -/
def Party.landPart (P : Party) (tag : Nat) (p : Nat × List RegRef × Nat × W64) : Party :=
  let x := P.lane p.1
  (p.2.1.foldl (fun (P : Party) r => match r with
    | .s n => if x.pend.any fun e => e.reg == r && e.tag == tag then P.setSreg n (w64 p.2.2.1) else P
    | _ => P) P).setLane p.1 (x.land tag p.2.1 p.2.2.1)

/-- The lane numbers of a request with their destinations, values and addresses. -/
def Outstanding.parts (o : Outstanding) (vs : List Nat) : List (Nat × List RegRef × Nat × W64) :=
  o.carried.zipIdx.map fun e => (e.1.2.2.1, (o.dests[e.2]?).getD [], (vs[e.2]?).getD 0, e.1.2.2.2)

/-- A response of a word's requests is still to come, for some lane of the party, and the word's lanes issue nothing before (R17,
R204, R406, R419). -/
def Party.owed (p : Party) (tag : Nat) : Bool :=
  p.active.any fun l => (p.lane l).pend.any fun e => e.holds && !e.written && e.tag == tag

/-- Once the last response of a word under stall count 0b11 has landed, its destinations leave the scoreboard (R17, R212). -/
def Party.landed (p : Party) (tag : Nat) : Party :=
  if p.owed tag then p
  else p.mapLanes p.active fun _ x => { x with pend := x.pend.filter fun e => !(e.tag == tag && e.full) }

/-- Lanes of a request that still stand at its word: its requests have not all left, or it fetches (R406). -/
def State.standingAt (s : State) (o : Outstanding) : List Nat :=
  o.lanes.filter fun l => ((s.party o.team o.party).lane l).wait == .slots o.tag

/-- A trap in lanes that stand at a word of a running team, for one cause after another: the lowest lane's is recorded (R332, R461). -/
def State.trapStanding (s : State) (o : Outstanding) (cs : List (List Nat × Nat × Cause)) : State :=
  cs.foldl (fun (s : State) c => s.takeTrap c.1 c.2.1 c.2.2)
    { s with cur := { team := o.team, party := o.party, lanes := s.standingAt o } }

/-- Party k of the team takes a trap now: the team runs, or its skid began in this cycle, or the party runs its handler (R338, R339). -/
def Team.takesTraps (T : Team) (k now : Nat) : Bool :=
  T.live && T.resident && (match T.halt with
    | .running => true
    | .skid _ since | .debugSkid since => since == now
    | .handler p => p == k
    | _ => false)

/-- Access of a request as in the violation log (R333). -/
def accessOf (op : PeerOp) : Nat := match op with | .load | .ldv => 0 | .store => 1 | .atom | .red => 2

/-- The error that a request leaves with a lane whose access at an address it carried (R461). -/
def Outstanding.fault (o : Outstanding) (d : Nat) (next : Bool) (regs : List RegRef) (a : W64) : PeerFault :=
  { detail := d, info := w32 a.toNat, write := false, acc := accessOf o.req.op, regs := regs, next := next }

/-- A word of the free-value count `stamp` was issued before the handler that the party runs. -/
def Party.beforeHandler (p : Party) (stamp : Nat) : Bool := match p.save with | none => false | some v => decide (stamp ≤ v.free)

/-- The error is kept for the word that R461 names: of one issued before the handler that the party runs, until its return. -/
def Party.keepError (p : Party) (o : Outstanding) (l : Nat) (e : PeerFault) : Party :=
  if (p.lane l).exited then p
  else p.setLane l { (p.lane l).landPend o.tag e.regs with errors := (p.lane l).errors ++ [{ e with held := p.beforeHandler o.tag }] }

/-- Lanes at their word that do not trap now keep the error for it: they stand there until their team runs (R338, R461). -/
def Party.keepStanding (p : Party) (T : Team) (o : Outstanding) (d : Nat) (l : Nat) (a : W64) : Party :=
  let w : Wait := match T.halt with | .skid _ _ | .debugSkid _ => .stopped | _ => .none
  (p.keepError o l (o.fault d true [] a)).mapLanes [l] fun _ x => x.hold w

/-- A part of a failed request: the lane, its destinations, and the address at which it failed. A uniform word's fetch fails in every
lane that stands at it. -/
def Outstanding.failed (o : Outstanding) : List (Nat × List RegRef × W64) :=
  (o.parts []).map fun p => (p.1, p.2.1, p.2.2.2)

/-- Bytes that a uniform word or a job fetched (R143, R170). -/
def bytesAt (m : FMap (Option W8)) (va n v : Nat) : FMap (Option W8) :=
  (List.range n).foldl (fun (m : FMap (Option W8)) i => FMap.set none m (va + i) (some (BitVec.ofNat 8 (v / 2 ^ (8 * i))))) m

/-- Address and size of a fetch. -/
def Outstanding.span (o : Outstanding) : Nat × Nat :=
  (((o.carried.head?.map fun q => q.2.2.2.toNat).getD 0), ((o.req.lanes.head?.map (·.size)).getD 0))

/-- Lanes that stand at a uniform word go on to run it again (R143, R159). -/
def State.wakeFetch (s : State) (o : Outstanding) (f : Party → Party) : State :=
  let P := s.party o.team o.party
  s.setParty o.team o.party ((f (P.mapLanes (s.standingAt o) fun _ x => x.hold .none)).wakeSaved o.tag o.lanes none)

/-- An error answer to a read-like request: taken at the word while its lanes stand there, by a team that takes traps; else kept for
the word that R461 names; one that a `launch` reports is left to it (R173). -/
def State.failRead (s : State) (o : Outstanding) (d : Nat) : State :=
  let T := s.team o.team
  if !T.live then s
  else if o.report then s.wakeFetch o fun P => { P with refused := o.span.1 :: P.refused }
  else
    let P := T.party o.party
    let stand := s.standingAt o
    let full := (o.word.map stallOf) == some 3
    let saved := fun (l : Nat) => match P.save with | none => false | some v => FMap.get Wait.none v.waits l == .slots o.tag && o.lanes.contains l
    let hit := o.failed.filter fun p => stand.contains p.1
    let gone := o.failed.filter fun p => !stand.contains p.1
    let P' := gone.foldl (fun (P : Party) p =>
      P.keepError o p.1 (o.fault d (full || P.seq || saved p.1) p.2.1 p.2.2)) P
    let P' := (P'.landed o.tag).wakeSaved o.tag (gone.map (·.1)) none
    if T.takesTraps o.party s.now then
      let s := s.setParty o.team o.party P'
      s.trapStanding o (if o.fetch then
          (hit.take 1).map fun p => (stand, 0xFF, { kind := 5, detail := d, info := p.2.2.toNat % 2 ^ 32 })
        else hit.map fun p => ([p.1], p.1, { kind := 5, detail := d, info := p.2.2.toNat % 2 ^ 32, acc := accessOf o.req.op }))
    else s.setParty o.team o.party (hit.foldl (fun (P : Party) p => P.keepStanding T o d p.1 p.2.2) P')

/-- The header of a launch window, or 65: of the pattern's head, has come, or cannot be read (R173, R451, R464). -/
def State.landWindow (s : State) (q : Nat) (a : PeerAnswer) : State :=
  let h := some (match a with | .data vs => some (vs.head?.getD 0) | .error _ => none)
  let w := s.window q
  if q = 65 then { s with pat := { s.pat with header64 := h } }
  else if !w.busy then s
  else s.setWindow q { w with header64 := h }

/-- An answer to a job's request; the device that holds the home has logged its refusal (R331). -/
def State.landTask (s : State) (o : Outstanding) (n : Nat) (a : PeerAnswer) : State :=
  match s.task n, a with
  | none, _ => s
  | some k, .error _ => s.setTask { k with failed := some (w64 o.span.1) }
  | some k, .data vs => s.setTask { k with buf := bytesAt k.buf o.span.1 o.span.2 (vs.head?.getD 0) }

/-- A response's data reach their place (R406). -/
def State.landData (s : State) (o : Outstanding) (vs : List Nat) : State :=
  let P := s.party o.team o.party
  if (s.team o.team).live = false then s
  else if o.fetch then
    s.wakeFetch o fun P => { P with peerBuf := bytesAt P.peerBuf o.span.1 o.span.2 (vs.head?.getD 0) }
  else
    s.setParty o.team o.party (((o.parts vs).foldl (fun (P : Party) p => P.landPart o.tag p) P).landed o.tag)

/-- PEER_RESPONSE_LAND (R406, R461): the destinations are written, or the error is kept or taken; the slot and the buffer space
are free, and waiting requests leave. -/
def execPeerResponseLand (core module seq : Nat) (answer : PeerAnswer) (s : State) : Result :=
  event s fun s =>
    match s.takeOutstanding core module seq with
    | none => s
    | some (o, s') =>
      if !o.reads then s
      else
        let s := match o.window, o.task, answer with
          | some q, _, a => s'.landWindow q a
          | none, some n, a => s'.landTask o n a
          | none, none, .data vs => s'.landData o vs
          | none, none, .error d => s'.failRead o d
        s.pumpAll core

/-- The stores of one lane that a write-like request carried, with the free-value count at each: its own, or those of a drained
line's. -/
def Outstanding.storesOf (o : Outstanding) (t k l : Nat) : List (W64 × Nat) :=
  let stamps := if o.stamps.isEmpty then o.carried.map fun _ => o.tag else o.stamps
  ((o.carried.zip stamps).filter fun q => q.1.1 == t && q.1.2.1 == k && q.1.2.2.1 == l).map fun q => (q.1.2.2.2, q.2)

/-- The failure of a write-like request is kept once for each lane whose stores it carried: for one that runs, until the handler that it
runs returns if all of them were made before it; for one that has exited, in the violation log (R461). -/
def State.failWrite (s : State) (o : Outstanding) (d : Nat) : State :=
  (dedup (o.carried.map fun q => (q.1, q.2.1, q.2.2.1))).foldl (fun (s : State) q =>
    let P := s.party q.1 q.2.1
    let x := P.lane q.2.2
    let stores := o.storesOf q.1 q.2.1 q.2.2
    let a := (stores.head?.map (·.1)).getD 0
    if (s.team q.1).live = false ∨ x.exited = true then
      s.logViolation a.toNat (violationWord o.req.asid d (accessOf o.req.op) s.module o.req.core o.req.strand q.2.2 false) (dieOf o.req.core)
    else s.setLane q.1 q.2.1 q.2.2 { x with errors := x.errors ++
      [{ detail := d, info := w32 a.toNat, write := true, acc := accessOf o.req.op, regs := [], next := false
         held := stores.all fun e => P.beforeHandler e.2 }] }) s

/-- PEER_ACK_LAND (R417, R461). -/
def execPeerAckLand (core module seq : Nat) (err : Option Nat) (s : State) : Result :=
  event s fun s =>
    match s.takeOutstanding core module seq with
    | none => s
    | some (o, s') =>
      if o.reads then s
      else
        let s := match o.task, err with
          | _, none => s'
          | some n, some d => s'.landTask o n (.error d)
          | none, some d => if o.party = jobParty then s' else s'.failWrite o d
        s.pumpAll core

/-! ### Links (R422, R426) -/

/-- Writes port p; vector 3 is raised when its state changes (R447). The cycle in which it leaves is kept (R422). -/
def State.setPort (s : State) (p : Nat) (x : Port) : State :=
  let was := s.port p
  let x := if was.up && !x.up then { x with left := s.now } else x
  let t : State := { s with fab := { s.fab with ports := FMap.set none s.fab.ports p (some x) } }
  if was.state != x.state then t.raiseVector 3 else t

/-- One more, saturating at 65,535 (R426). -/
def satInc (n : BitVec 16) : BitVec 16 := BitVec.ofNat 16 (satAdd 65535 n.toNat 1)

/-- A unit went over a port, or found no route: it goes again (R423). -/
def goesAgain (port : Option Nat) (p : Nat) : Bool := port.isNone || port == some p

/-- Requests to other modules that satisfy p, of a module and the port over which they went, go again in sequence order (R422, R423). -/
def State.requestsAgain (s : State) (p : Nat → Option Nat → Bool) : State :=
  (s.cores.flatMap fun (e : Nat × Core) => e.2.chans.flatMap fun (c : Nat × Channel) => c.2.out.map fun o => (e.1, c.1, o)).foldl
    (fun (s : State) x =>
      let m := 1024 * s.pod + x.2.1
      if p m x.2.2.port && x.2.1 != s.module && !s.lost m then
        let r := s.transmit m .request (.request x.2.2.req)
        let K := r.1.core x.1
        let ch := K.chan x.2.1
        r.1.setCore x.1 (K.setChan x.2.1 { ch with out := ch.out.map fun o => if o.req.seq = x.2.2.req.seq then { o with port := r.2 } else o })
      else s) s

/-- What port p carried goes over the ports that still give a route, and what had none over a new one (R422, R423). -/
def State.reroute (s : State) (p : Nat) : State :=
  (s.requestsAgain fun _ q => goesAgain q p).sendAgain fun u => goesAgain u.port p

/-- What went to a module over no port, or over one that no longer gives a route to it, goes over one that does (R422, R423). -/
def State.rerouteTo (s : State) (module : Nat) : State :=
  let ports := s.routePorts module
  let off := fun (q : Option Nat) => match q with | none => true | some p => !ports.contains p
  if ports.isEmpty then s
  else (s.requestsAgain fun m q => m == module && off q).sendAgain fun u => u.module == module && off u.port

/-- A port begins to train (R422, R426). -/
def Port.train (x : Port) : Port := { x with state := 1, retrains := satInc x.retrains, recent := [] }

/-- LINK_REPLAY (R422): counted; a UALink port whose replays within 65,536 cycles exceed FABCTL.errthr begins to train. -/
def execLinkReplay (port : Nat) (s : State) : Result :=
  event s fun s =>
    if 28 ≤ port then s
    else
      let x := s.port port
      let recent := s.now :: x.recent.filter fun c => decide (s.now < c + 65536)
      let x := { x with replays := satInc x.replays, recent := recent }
      if port < 24 ∧ s.ctrl.errthr.toNat < recent.length ∧ x.up = true then (s.setPort port x.train).reroute port
      else s.setPort port x

/-- The width code of a trained width ×4, ×2 or ×1, and whether FABCTL.minw allows it (R422, R425). -/
def widthOk (minw : BitVec 2) (w : Nat) : Bool := (w == 4 || w == 2 || w == 1) && decide (2 ^ minw.toNat ≤ w)

/-- A channel starts from sequence 0, at once or after its last error response has come (R424). -/
def Channel.anew (c : Channel) : Channel := if c.out.isEmpty then { c with nextSeq := 0 } else { c with restart := true }

/-- A system module is reachable again: the channels to it and from it start from sequence 0 (R424). DEDUCED: so do the numbers of the
messages and bulk units, of which those not acknowledged were discarded (R423, log 62). -/
def State.regain (s : State) (m : Nat) : State :=
  let here := m / 1024 == s.pod
  let s := s.renumber (· == m)
  let s := { s with
    fab := { s.fab with
      unreachable := FMap.set false s.fab.unreachable m false
      routeless := FMap.set 0 s.fab.routeless m 0
      ingress := s.fab.ingress.filter fun e => !(here && e.1 / 2048 == m % 1024) }
    cores := s.cores.map fun (e : Nat × Core) =>
      if here && e.2.chans.any fun (c : Nat × Channel) => c.1 == m % 1024 then (e.1, e.2.setChan (m % 1024) (e.2.chan (m % 1024)).anew) else e }
  s.raiseVector 3

/-- Reachability is tested again at a retrain: a module to which a route is found is reachable (R412, R424). -/
def State.testRoutes (s : State) : State :=
  ((s.fab.unreachable.filter fun e => e.2 && !(s.routePorts e.1).isEmpty).map (·.1)).foldl State.regain s

/-- LINK_RETRAIN (R422): a port that trains ends it at a width, degraded or not, or is lost; an Ethernet port is up at its one width or
lost (R426). At any other port its partner has asked for a retrain: the port begins to train, its traffic goes over other ports, and a
later turn ends it. -/
def execLinkRetrain (port width : Nat) (s : State) : Result :=
  event s fun s =>
    if 28 ≤ port then s
    else
      let x := s.port port
      if x.state = 1 then
        let ok := if port < 24 then widthOk s.ctrl.minw width else width == 4
        let s := s.setPort port { x with
          state := if !ok then 4 else if width = 4 then 2 else 3, width := if ok then BitVec.ofNat 3 width else 0 }
        s.testRoutes.reroute port
      else ((s.setPort port x.train).reroute port).later (.linkRetrain port width)

/-! ### Unreachable modules (R424) -/

/-- Requests to a module of the pod that are outstanding or waiting, by core. -/
def State.requestsTo (s : State) (m : Nat) : List (Nat × Outstanding) :=
  s.cores.flatMap fun e => ((e.2.chan m).out).map fun o => (e.1, o)

/-- Messages and bulk to the system modules that satisfy p are discarded, the pattern's messages counted, and the connections to them
closed (R402, R424). -/
def State.discardTo (s : State) (p : Nat → Bool) : State :=
  let dropped := (s.fab.unacked.filter fun u => p u.module && (match u.packet with | .signal .. | .credit .. => true | _ => false)).length
  let s := { s with fab := { s.fab with
    unacked := s.fab.unacked.filter fun u => !p u.module
    conns := s.fab.conns.filter fun e => !p e.1, routeless := s.fab.routeless.filter fun e => !p e.1 } }
  (List.range dropped).foldl (fun (s : State) _ => s.dropMessage) s

/-- Traffic to an unreachable module ends: pattern messages are counted, requests end with errors, and checkpoint streams fail (R424). -/
def State.loseModule (s : State) (module : Nat) : State :=
  let drained := fun (c : Ckpt) => s.ckptBytes c
  let s := State.raiseVector { s with fab := { s.fab with unreachable := FMap.set false s.fab.unreachable module true } } 3
  let s := s.discardTo (· == module)
  let s := if module / 1024 = s.pod then
      (s.requestsTo (module % 1024)).foldl (fun (s : State) e => s.later (requestError e.2.req 5)) s else s
  s.ckpts.foldl (fun (s : State) e =>
    if e.2.state = 1 ∧ e.2.destination s.pod = module then
      State.later { s with ckpts := FMap.set {} s.ckpts e.1 { s.ckpt e.1 with broken := true, bytes := drained e.2 } } (.ckptDrainEnd e.1 true)
    else s) s

/-- A system module of another pod. Endpoints of sinks are none (R362, R414). -/
def State.beyondPod (s : State) (m : Nat) : Bool := decide (m < 2 ^ 17) && m / 1024 != s.pod

/-- UEPT is written (R415): with valid 0 every module of another pod is unreachable, and what waits for acknowledgement from one is
discarded; with valid 1 again, numbering to and from them starts anew (R424). DEDUCED: either change raises vector 3 (log 72). -/
def State.writeUept (s : State) (v : Nat) : State :=
  let was := s.ctrl.ueptValid
  let s := { s with ctrl := { s.ctrl with ueptBase := BitVec.ofNat 11 (bits v 31 21), ueptValid := bit v 0 } }
  if was = bit v 0 then s
  else State.raiseVector (if was then s.discardTo s.beyondPod else s.renumber s.beyondPod) 3

/-- Ports that serve a system module when they are up: in the pod the planes that serve it, beyond it those that its endpoint entry permits
(R412, R414). -/
def State.servingPorts (s : State) (m : Nat) : List Nat :=
  if m / 1024 = s.pod then (List.range 24).filter fun p => !Config.planeDown s.free p (m % 1024) else etherPorts (s.connection m)

/-- No route to a module has remained for FABCTL.lossto units: since a look or a unit first found none, or since the last of the ports
that serve it left (R422, R425). -/
def State.lossDue (s : State) (module : Nat) : Bool :=
  let c := FMap.get 0 s.fab.routeless module
  let ports := s.servingPorts module
  let due := fun (since : Nat) => decide (since + 1024 * s.ctrl.lossto.toNat ≤ s.now)
  (c != 0 && due (c - 1)) || (!ports.isEmpty && ports.all fun p => !(s.port p).up && due (s.port p).left)

/-- MODULE_UNREACHABLE (R422, R424): the device looks for a route to the module; where there is one, what lacks its route goes over it;
when none has remained for FABCTL.lossto units, traffic to it ends with errors, and so does what leaves later. -/
def execModuleUnreachable (module : Nat) (s : State) : Result :=
  event s fun s =>
    if s.lost module then s
    else
      let mark := fun (n : Nat) => { s with fab := { s.fab with routeless := FMap.set 0 s.fab.routeless module n } }
      if !(s.routePorts module).isEmpty then (mark 0).rerouteTo module
      else if s.lossDue module then s.loseModule module
      else if FMap.get 0 s.fab.routeless module = 0 then mark (s.now + 1) else s

/-- Modules of which the device looks whether a route remains: those that have had none, and those to which something is not yet
acknowledged or answered. -/
def State.routed (s : State) : List Nat :=
  dedup (s.fab.routeless.map (·.1) ++ s.fab.unacked.map (·.module)
    ++ s.cores.flatMap fun (e : Nat × Core) => (e.2.chans.filter fun c => c.1 != s.module && !c.2.out.isEmpty).map fun c => 1024 * s.pod + c.1)

end Sys2Proof.Machine
end

