-- ==== Sys2Proof/Machine/Issue.lean ====
section
/-! DEFINITION. Who may issue: eligible lanes (R200), the head of a strand (R201), the lanes that issue a word together
(R39, R206), the issue ports (R206), the order of what meets in one cycle, and the events that a party meets in place of a word: an
illegal word (R33), a failed fetch (R93), a unit of a long word (R157), and a late register write (R209, R212). -/

namespace Sys2Proof.Machine

open Sys2Proof

/-! ### Eligibility (R200) -/

/-- An exported register of a list is still to be written in the lane (R130). -/
def Lane.owes (x : Lane) (rs : List RegRef) : Bool := x.pend.any fun e => e.exported && !e.written && rs.contains e.reg

/-- A waiting lane of party k of team t may issue its word again. Lanes that wait together for exports go on together (R204). -/
def State.waitOver (s : State) (t k : Nat) (x : Lane) : Bool :=
  let T := s.team t
  let P := T.party k
  match x.wait with
  | .none | .expired _ _ => true
  | .range off n => !s.rangeBusy t off n
  | .entry => decide (0 < s.freeEntries)
  | .rangeSlot off => decide ((s.core (T.coreAt off)).range.length < 32)
  | .restoring n => decide (n ≤ s.freeEntries)
  | .tiles h n => !s.tilesBusy t k h n
  | .reconv .. | .crossLane | .rendezvous | .clauseHeader => P.gathered
  | .barrier wide b target _ => decide (target < (s.barrierOf t wide b).phase)
  | .arrive wide b => !(s.barrierOf t wide b).ahead (if wide then 128 * t + k else k)
  | .barInit wide b => (s.barrierOf t wide b).a == 0 && (s.barrierOf t wide b).n == 0
  | .task x take => (match (s.ctx T.slot).counterAt x with | none => true | some i => s.counterReady take i)
  | .stepLead step => if P.seq then decide (step.toNat ≤ T.step.toNat) else s.leadOk T.asid step
  | .stepTeam _ => T.stepMet
  | .coll h step => (match s.openHandle T.asid h with | none => true | some C => (C.closeWord step).isSome)
  | .exported rs => P.active.all fun l => !((P.lane l).pc == x.pc && (P.lane l).wait == x.wait) || !(P.lane l).owes rs
  | .release => !s.peerBusy t k P.active
  | .saving slot => (s.teams.all fun e => !(e.2.live && e.2.resident && e.2.slot == slot)) && !s.slotAsks slot
  | .trace => let d := s.traceDie (dieOf P.core); decide (d.buffer.length + b2n (d.lost != 0) < traceCapacity)
  | .patNext _ _ _ => !s.patServes T.asid
  | .parked _ _ | .slots _ | .stopped => false

/-- A parked lane that is to perform its word again, and was not parked before the handler that its party runs (R336, R340). -/
def Party.replays (p : Party) (l : Nat) : Bool :=
  (p.lane l).marked && (p.lane l).wait.isParked
    && (match p.save with | none => true | some v => !(FMap.get Wait.none v.waits l).isParked)

/-- Lane l of party k of team t is eligible (R17, R200); while the team is pre-empted only inside a clause (R207). -/
def State.laneEligible (s : State) (t k l : Nat) : Bool :=
  let T := s.team t
  let P := T.party k
  let x := P.lane l
  !x.exited && (T.drainFrom.isNone || x.clause.isSome) && decide (x.ready ≤ s.now)
    && !(x.pend.any fun e => e.holds && P.owed e.tag) && (s.waitOver t k x || P.replays l)

/-- Eligible lanes of a party; while a run stands inside a clause, only its lanes (R39). -/
def State.eligible (s : State) (t k : Nat) : List Nat :=
  let T := s.team t
  let P := T.party k
  if !T.mayIssue k then []
  else
    let ls := P.active.filter fun l => s.laneEligible t k l
    if P.active.any fun l => (P.lane l).clause.isSome && (P.lane l).wait != .stopped then
      ls.filter fun l => (P.lane l).clause.isSome
    else ls

/-- The lane that the head rule serves: of the lowest program counter, unless a lane has been passed over 256 times (R201). -/
def Party.headLane (p : Party) (ls : List Nat) : Option Nat :=
  let most := ls.foldl (fun (b : Option Nat) l => match b with
    | none => some l
    | some m => if (p.lane m).skipped < (p.lane l).skipped then some l else some m) none
  match most with
  | none => none
  | some m =>
    if 256 ≤ (p.lane m).skipped then some m
    else ls.foldl (fun (b : Option Nat) l => match b with
      | none => some l
      | some h => if (p.lane l).pc.toNat < (p.lane h).pc.toNat then some l else some h) none

/-- Waits after which a lane performs its word from its start, as one that arrives at it does. -/
def Wait.plain : Wait → Bool
  | .none | .range _ _ | .tiles _ _ | .entry | .rangeSlot _ | .restoring _ | .exported _ | .release | .saving _ | .trace
  | .parked _ _ => true
  | _ => false

/-- Lanes that issue with lane h: those at its word that have come to the same point of it, and have performed as many units of a
long word (R117, R157). -/
def Party.runOf (p : Party) (ls : List Nat) (h : Nat) : List Nat :=
  ls.filter fun l => (p.lane l).pc == (p.lane h).pc && (p.lane l).unit == (p.lane h).unit && (p.lane l).units == (p.lane h).units
    && (((p.lane l).wait.plain && (p.lane h).wait.plain) || (p.lane l).wait == (p.lane h).wait)

/-- The lanes for which a party issues next: those that are to perform their parked word again go first (R336). -/
def State.nextRun (s : State) (t k : Nat) : List Nat :=
  let all := s.eligible t k
  let again := all.filter fun l => (s.party t k).replays l
  let ls := if again.isEmpty then all else again
  match (s.party t k).headLane ls with
  | none => []
  | some h => (s.party t k).runOf ls h

/-! ### The order of what meets in one cycle -/

/-- Ranks of what one cycle may hold, where the manual orders it (R190, R214, R219, R301, R308, R317, R374, R385, R403):
0 what arrives, starts, completes or retires; 1 words that arrive, publish, free or signal; 2 publications, closes, beacons,
hand-outs and `bar.init`; 3 words that look at what the former leave, and submissions; 5 `resume`; 6 placement and pre-emption; 7 the
swap rule; 8 the clearing of PATCFG.enable, `ctx.save` and teardown. None: not ordered, but before rank 5. -/
def rankOf (i : Instr) : Option Nat :=
  match i with
  | .teamRetire _ | .jobComplete _ | .taskStart _ | .replayInstanceStart _ | .peerRequestReceive _ | .peerResponseLand .. | .peerAckLand .. | .collContributionArrival ..
  | .partialArrival .. | .collCloseReceive .. | .gaugeDigestReceive .. | .patternSignalReceive .. | .creditReceive _ => some 0
  | .barArr .. | .barAw .. | .stashFree .. | .patDone .. | .stepPub .. | .taskSigAdd .. | .taskSigSet .. => some 1
  | .framePublish .. | .collTimerClose .. | .combineWindowExpiry .. | .tideBeaconSend | .tideBeaconReceive .. | .patternHandout | .patNext ..
  | .barInit .. => some 2
  | .barWait .. | .barTry .. | .stashPut .. | .ldvTag .. | .ckptFreeze .. | .stepEnter ..
  | .copy .. | .copyt .. | .taskSub .. | .replay .. | .launch .. | .collPut .. => some 3
  | .resume .. => some 5
  | .teamPlace _ | .parkedShareSwitch .. => some 6
  | .dispatchSwap _ => some 7
  | .patcfgDisable _ | .ctxSave .. | .contextTeardown _ => some 8
  | .registerWrite _ .control off v => if off = 0x3100 ∧ bit v.toNat 0 = false then some 8 else none
  | _ => none

/-- Place a stands before place b: lower rank, then lower core, then lower strand, sequencer contexts last (R301, R308). -/
def earlier (a b : Nat × Nat × Nat) : Bool :=
  decide (a.1 < b.1 ∨ (a.1 = b.1 ∧ (a.2.1 < b.2.1 ∨ (a.2.1 = b.2.1 ∧ a.2.2 < b.2.2))))

/-- A write that takes the semaphore for port 1 where it is free (R452). -/
def takesSem (i : Instr) : Bool :=
  match i with
  | .mgmtsemAcquire 1 => true
  | .registerWrite 1 .control off v => off == 0x1000 && v.getLsbD 2
  | _ => false

/-- Something of instruction i at a core and party would come too late in this cycle. Of two acquires of the semaphore the PCIe port's
goes first (R452). -/
def State.tooLate (s : State) (i : Instr) (core party : Nat) : Bool :=
  (match rankOf i with
    | some r => earlier (r, core, party) (s.cyc.rank, s.cyc.core, s.cyc.party)
    | none => decide (5 ≤ s.cyc.rank))
  || (match i with
    | .collContributionArrival h c _ => s.cyc.closed.contains (h, c)
    | i => takesSem i && s.cyc.semTaken)

/-- The cycle has come to instruction i at a core and party. -/
def State.noteRank (s : State) (i : Instr) (core party : Nat) : State :=
  match rankOf i with
  | some r => { s with cyc := { s.cyc with rank := r, core := core, party := party } }
  | none => s

/-! ### Ports (R206) -/

/-- Bit 31 of the word at which lane l of a party stands: a U word (R14). -/
def State.uniformAt (s : State) (t k l : Nat) : Bool :=
  match s.fetchWord t k ((s.party t k).lane l).pc.toNat with
  | .ok v => bit v 31
  | .error _ => false

/-- The issue port of a party's next run: its own, or the uniform pipe (2) for a sequencer context and for a run at a U word. -/
def State.portOf (s : State) (t k : Nat) : Nat :=
  let P := s.party t k
  if P.seq then 2
  else match s.nextRun t k with
    | [] => b2n P.port
    | l :: _ => if s.uniformAt t k l then 2 else b2n P.port

/-- The port of a party's next run may issue now: it is free, and the party has issued nothing in this cycle. -/
def State.portFree (s : State) (t k : Nat) : Bool :=
  decide (FMap.get 0 (s.core (s.party t k).core).freeFrom (s.portOf t k) ≤ s.now) && !s.cyc.issued.contains (t, k)

/-- Parties with a run to issue and a port that may issue it: placement order, team and party. -/
def State.readyParties (s : State) : List (Nat × Nat × Nat) :=
  s.teams.flatMap fun e => e.2.parties.filterMap fun p =>
    if (s.nextRun e.1 p.1).isEmpty || !s.portFree e.1 p.1 then none else some (p.2.order, e.1, p.1)

/-- From when a party has had a run to issue. -/
def State.readySince (s : State) (t k : Nat) : Nat := (s.party t k).since.getD s.now

/-- Of ready parties those whose run became ready first. -/
def State.longestReady (s : State) (ps : List (Nat × Nat × Nat)) : List (Nat × Nat × Nat) :=
  ps.filter fun p => ps.all fun q => decide (s.readySince p.2.1 p.2.2 ≤ s.readySince q.2.1 q.2.2)

/-- The entry of least order. -/
def leastOrder (xs : List (Nat × Nat × Nat)) : Option (Nat × Nat × Nat) :=
  xs.foldl (fun b x => match b with | none => some x | some y => if x.1 < y.1 then some x else some y) none

/-- Of ready parties that share a port the one it takes: the longest ready, and on a tie, or at the uniform pipe, the next in rotation by
placement order. DESIGN CHOICE: R202 lets two strands of a team fuse their runs into one slot of an L word where the device finds them at
one program counter; here a port takes one strand per cycle and never fuses (log 69). DESIGN CHOICE: a strand inside a clause keeps no
precedence: in a cycle in which its stall counts let it issue, a strand of the port whose run became eligible earlier goes first (R39, R129,
log 74). -/
def State.takenFrom (s : State) (core port : Nat) (ps : List (Nat × Nat × Nat)) : Option (Nat × Nat) :=
  let ps := if port = 2 then ps else s.longestReady ps
  ((leastOrder (ps.filter fun p => decide (FMap.get 0 (s.core core).served port ≤ p.1))).or (leastOrder ps)).map (·.2)

/-- The party that the port of party k of team t takes next; that party itself when none is ready. -/
def State.chosen (s : State) (t k : Nat) : Nat × Nat :=
  let core := (s.party t k).core
  let port := s.portOf t k
  (s.takenFrom core port (s.readyParties.filter fun p =>
    (s.party p.2.1 p.2.2).core == core && s.portOf p.2.1 p.2.2 == port)).getD (t, k)

/-- Cycles for which a word occupies its port: 2 with a .f64 operand and lanes of more than 4 octets (R206). -/
def occupancy (i : Instr) (ls : List Nat) : Nat :=
  if hasF64 i && decide (4 < (dedup (ls.map (· / 8))).length) then 2 else 1

/-- The word at which a party's next run stands, if it is one. -/
def State.nextWord (s : State) (t k : Nat) : Option Instr := (s.nextRun t k).head?.bind fun l => s.wordAt t k l

/-- The port of a party's next run is taken for its word, and the cycle comes to that word. -/
def State.claim (s : State) (t k : Nat) : State :=
  let P := s.party t k
  let K := s.core P.core
  let port := s.portOf t k
  let n := match s.nextWord t k with | some i => occupancy i (s.nextRun t k) | none => 1
  let c := { (s.setParty t k { P with since := none }).setCore P.core
    { K with freeFrom := FMap.set 0 K.freeFrom port (s.now + n), served := FMap.set 0 K.served port (P.order + 1) } with
    cyc := { s.cyc with issued := (t, k) :: s.cyc.issued } }
  match s.nextWord t k with
  | some i => c.noteRank i P.core k
  | none => c

/-! ### In place of a word -/

/-- The issuing lanes stand at a U word. -/
def State.standsAtUniform (s : State) : Bool := s.uniformAt s.cur.team s.cur.party s.firstLane

/-- ILLEGAL_INSTRUCTION (R33): the issuing lanes stand at a word that is no instruction. -/
def execIllegalInstruction (detail : Nat) (s : State) : Result :=
  gate (.illegalInstruction detail) s fun s => s.illegal s.standsAtUniform detail

/-- INSTRUCTION_FETCH_FAULT (R93): the issuing lanes park at a word without translation, or take the access violation of the
fetch; one in the peer window is not logged. -/
def execInstructionFetchFault (how : FetchFail) (addr : W64) (s : State) : Result :=
  gate (.instructionFetchFault how addr) s fun s =>
    let s := s.keepLeaf s.curTeam.slot addr.toNat
    match how with
    | .missing =>
      let pc := (s.curParty.lane s.firstLane).pc
      if s.curParty.seq then s.parkUniform addr.toNat .fetch false
      else (s.hold (.parked addr false)).parkRecords (s.cur.lanes.map fun l => (l, addr.toNat)) pc .fetch
    | .violation d =>
      (s.logFor s.cur.team s.cur.party (if s.curParty.seq then 0 else s.firstLane) addr.toNat d .fetch).trapAll s.firstLane
        { kind := 5, detail := d, info := addr.toNat }

/-! ### Units of long words (R117, R157) -/

/-- The long word at which a party's next run stands, with the state in which the run performs one unit of it. -/
def State.unitTurn (s : State) (t k : Nat) : Option (Instr × State) :=
  match s.nextRun t k with
  | [] => none
  | l :: ls => (s.wordAt t k l).bind fun i =>
    if longWord i then some (i, { s with cur := { team := t, party := k, lanes := l :: ls, units := some 1 } }) else none

/-- The meaning of a long word. -/
def longEffect (i : Instr) (s : State) : Result :=
  match i with
  | .wload d a b c w st => execWload d a b c w st s
  | .mma h a b st => execMma h a b st s
  | .mmac h g b st => execMmac h g b st s
  | .accRd h a b z st => execAccRd h a b z st s
  | .tld k a b st => execTld k a b st s
  | .tst k a b st => execTst k a b st s
  | .tcon d a u t m st => execTcon d a u t m st s
  | _ => .next s

/-- Party k of team t may begin a long word now: its port is free, and the port takes it before any other (R206). -/
def State.mayBegin (s : State) (t k : Nat) : Bool := s.portFree t k && s.chosen t k == (t, k)

/-- One unit of a long word in a state that `State.unitTurn` gives (R157). -/
def unitEffect (i : Instr) (c : State) : State :=
  match longEffect i c with
  | .next u =>
    let r : State := { u with cur := { u.cur with units := none } }
    if r.curParty.lastIssue = r.now then r.busyNow r.cur.team else r
  | _ => c

/-- The word at an address has been fetched for a party (R166, R298). -/
def State.keepFetched (s : State) (t k va : Nat) : State :=
  match s.fetchWord t k va with
  | .ok v => s.keepWord t k va v
  | .error _ => s

/-- LONG_WORD_UNIT_COMPLETE (R117, R157): the run that a party issues next performs one unit of its long word, and moves on after
the last. The first unit is the word's issue, which takes a cycle of the uniform pipe (R206). Nothing for a party that stands at no long
word or may not issue. -/
def execLongWordUnitComplete (team party : Nat) (s : State) : Result :=
  event s fun s =>
    match s.unitTurn team party with
    | none => s
    | some p =>
      if (p.2.curParty.lane p.2.firstLane).units != 0 then unitEffect p.1 p.2
      else if s.mayBegin team party then
        let pc := (p.2.curParty.lane p.2.firstLane).pc.toNat
        unitEffect p.1 ({ s.claim team party with cur := p.2.cur }.keepFetched team party pc)
      else s

/-- PENDING_REGISTER_WRITE (R130, R209, R212): a value whose word has issued is now in its register; an export leaves the
scoreboard. A value that a peer still owes lands with its response. -/
def execPendingRegisterWrite (team party lane : Nat) (reg : RegRef) (s : State) : Result :=
  event s fun s =>
    if (s.team team).live = false then s
    else
      let x := (s.party team party).lane lane
      let due := fun (e : Pend) => e.reg == reg && (e.tag == 0 || e.written)
      s.setLane team party lane { x with
        pend := (x.pend.filter fun e => !(due e && e.exported)).map fun e => if due e then { e with written := true } else e }

end Sys2Proof.Machine
end

