-- ==== Sys2Proof/Machine/Debugging.lean ====
section
/-! DEFINITION. Sampling (R408, R435 to R437, R463), trace frames and overflow (R440, R441), the debugger's halt, release and
data access (R433, R434), freeze (R443) and the JTAG port (R444). -/

namespace Sys2Proof.Machine

open Sys2Proof

/-! ### Stall samples -/

/-- The channel of the next request to leave of the word whose requests bear a number (R406, R408). -/
def Core.waitingChan (c : Core) (tag : Nat) : Option Channel :=
  ((c.chans.flatMap fun (e : Nat × Channel) => (e.2.waiting.filter fun o => o.tag == tag).map fun o => (o.index, e.2)).foldl
    (fun (b : Option (Nat × Channel)) x => match b with
      | none => some x
      | some y => if x.1 < y.1 then some x else some y) none).map (·.2)

/-- Lane l of a party has issued in this cycle, or begun a long word in it: the party has, and has not passed the lane over. -/
def State.issuedNow (s : State) (t k l : Nat) : Bool :=
  let P := s.party t k
  s.cyc.issued.contains (t, k) && P.lastIssue == s.now && (P.lane l).skipped == 0

/-- The range-scoreboard entry at which n bytes of a team's window wait (R255). -/
def State.rangeAt (s : State) (t off n : Nat) : Option RangeEntry :=
  (s.cores.flatMap fun (e : Nat × Core) => e.2.range).find? fun r => r.team == t && decide (off < r.hi) && decide (r.lo < off + n)

/-- A lane's reason where no wait keeps it: a pending register, its stall count, or the port (R437). -/
def State.readyReason (s : State) (P : Party) (x : Lane) : Nat × W64 :=
  match x.pend.find? fun e => e.holds && P.owed e.tag with
  | some e => (6, e.producer)
  | none => if s.now < x.ready then (7, x.lastPc) else (14, x.pc)

/-- The reason and the blame program counter of a lane, in the order of R437. A request waits for response space alone when its channel
has a free slot and the core no free line (R406, R408). DESIGN CHOICE: a word whose fetch from a peer has left waits for no slot; its reason
is 13 in a sequencer context and 6 in a strand (log 78). -/
def State.stallReason (s : State) (t k l : Nat) : Nat × W64 :=
  let T := s.team t
  let P := T.party k
  let x := P.lane l
  let K := s.core P.core
  if s.issuedNow t k l then (0, if x.units != 0 then x.pc else x.lastPc)
  else if x.wait == .stopped || (T.isHalted && !T.mayIssue k) then (1, x.pc)
  else if P.seq && T.isOver && P.atBoundary then (15, x.pc)
  else match (if !x.wait.isParked && s.waitOver t k x then .none else x.wait) with
  | .parked _ _ => (2, x.pc)
  | .slots tag => match K.waitingChan tag with
    | some ch =>
      let lines := decide (ch.out.length < 8) && decide (64 ≤ K.lines) && (match ch.waiting with | o :: _ => o.reads | [] => false)
      (if lines then 4 else 3, (ch.out.head?.map (·.pc)).getD x.pc)
    | none => (if P.seq then 13 else 6, x.pc)
  | .range off n => (5, ((s.rangeAt t off n).map (·.pc)).getD x.pc)
  | .exported rs => (6, ((x.pend.find? fun e => e.exported && rs.contains e.reg).map (·.producer)).getD x.pc)
  | .reconv .. | .crossLane | .rendezvous | .clauseHeader | .stepTeam _ => (8, x.pc)
  | .barrier .. | .arrive .. | .barInit .. => (9, x.pc)
  | .task .. => (10, x.pc)
  | .stepLead _ => (11, x.pc)
  | .patNext .. => (12, x.pc)
  | .tiles _ _ => (13, x.pc)
  | .release | .saving _ | .restoring _ => (15, x.pc)
  | .entry | .rangeSlot _ => (16, x.pc)
  | .coll .. => (17, x.pc)
  | .trace => (18, x.pc)
  | .none | .stopped | .expired _ _ => s.readyReason P x

/-- A sample record (R436). -/
def sampleRecord (reason lane strand core : Nat) (seq : Bool) (asid : BitVec 16) (cycle pc blame : W64) : Nat :=
  2 ^ 16 * asid.toNat + 2 ^ 35 * b2n seq + 2 ^ 36 * (lane % 64) + 2 ^ 42 * (strand % 64) + 2 ^ 48 * (core % 2048) + 2 ^ 59 * (reason % 32)
    + 2 ^ 64 * cycle.toNat + 2 ^ 128 * pc.toNat + 2 ^ 192 * blame.toNat

/-- Resident parties of a core with lanes that have not exited, those under pre-emption left out (R445): placement order, team, party. -/
def State.partiesOn (s : State) (c : Nat) : List (Nat × Nat × Nat) :=
  s.teams.flatMap fun e =>
    if e.2.occupies c && e.2.drainFrom.isNone then
      (e.2.parties.filter fun (p : Nat × Party) => p.2.core == c && !p.2.active.isEmpty).map fun p => (p.2.order + 1, e.1, p.1)
    else []

/-- The party that a core samples next: the one placed next after the last sampled, rotating (R436). -/
def State.sampleParty (s : State) (c : Nat) : Option (Nat × Nat × Nat) :=
  let ps := s.partiesOn c
  (leastOrder (ps.filter fun x => decide ((s.core c).sampled < x.1))).or (leastOrder ps)

/-- Writes a sample into the ring (R435, R463). -/
def State.pushSample (s : State) (r : Nat) : State :=
  let d := s.dbg
  let full := (d.sampNext - d.sampRead).toNat == 65535
  let s := s.nearWrite (d.sampBase.toNat * 2 ^ 21 + 32 * d.sampNext.toNat) 32 r
  let lost := BitVec.ofNat 12 (satAdd 4095 d.sampLost.toNat 1)
  let s := { s with dbg := { d with
    sampNext := d.sampNext + 1
    sampRead := if full then d.sampRead + 1 else d.sampRead
    sampLost := if full then lost else d.sampLost } }
  if full ∧ lost ≠ d.sampLost then s.raiseVector 9 else s

/-- The lane of a party that a sample names: the lowest that has issued in this cycle, else the lowest of the run that issues next, else
the lowest that has not exited (R436). -/
def State.sampledLane (s : State) (t k : Nat) : Nat :=
  let P := s.party t k
  (((P.active.find? fun l => s.issuedNow t k l).or (s.nextRun t k).head?).or P.active.head?).getD 0

/-- One core's sample (R436). -/
def State.sampleCore (s : State) (c : Nat) : State :=
  match s.sampleParty c with
  | none => s
  | some (order, t, k) =>
    let P := s.party t k
    let l := s.sampledLane t k
    let q := s.stallReason t k l
    (s.setCore c { s.core c with sampled := order }).pushSample
      (sampleRecord q.1 (if P.seq then 0 else l) (partyIndex k) c P.seq (s.team t).asid (s.dieCycle (dieOf c))
        (if q.1 = 0 then q.2 else (P.lane l).pc) q.2)

/-- The samples that are due: one of each core that has a resident party, every N cycles; they are taken in this cycle, at its end at the
latest (R436). -/
def State.takeSamples (s : State) : State :=
  if s.dbg.sampEnable && decide (s.dbg.sampAt ≤ s.now) then
    (dedup (s.teams.flatMap fun e => e.2.parties.map fun (p : Nat × Party) => p.2.core)).foldl (fun (s : State) c => s.sampleCore c)
      { s with dbg := { s.dbg with sampAt := s.now + s.dbg.sampInterval.toNat } }
  else s

/-- SAMPLE_TICK (R436). -/
def execSampleTick (s : State) : Result := event s State.takeSamples

/-! ### Trace frames (R440) -/

/-- One bit step of the reflected ISO 3309 remainder. -/
def crcStep (c : W32) : W32 := if c.getLsbD 0 then (c >>> 1) ^^^ 0xEDB88320#32 else c >>> 1

/-- The remainder after n bytes of v, lowest first. -/
def crcBytes (c : W32) (v : Nat) : Nat → W32
  | 0 => c
  | n + 1 =>
    let x := c ^^^ BitVec.ofNat 32 (v % 256)
    crcBytes (crcStep (crcStep (crcStep (crcStep (crcStep (crcStep (crcStep (crcStep x)))))))) (v / 256) n

/-- CRC-32 of a record's four words (R440; its bit order is that of ISO 3309, log 20). -/
def frameCrc (r : BitVec 256) : W32 := ~~~ crcBytes 0xFFFFFFFF#32 r.toNat 32

/-- The header block of a frame (R440). -/
def frameHeader (die : Nat) (seq : BitVec 24) (r : BitVec 256) : W64 :=
  w64 (die % 8 + 2 ^ 8 * seq.toNat + 2 ^ 32 * (frameCrc r).toNat)

/-- TRACE_FRAME_SEND (R440): the oldest record of a die's buffer leaves in a frame. -/
def execTraceFrameSend (die : Nat) (s : State) : Result :=
  event s fun s =>
    let d := s.traceDie die
    match d.buffer with
    | [] => s
    | r :: rest => (s.setTraceDie die { d with buffer := rest, frame := d.frame + 1 }).send (.trace die (frameHeader die d.frame r) r)

/-- TRACE_OVERFLOW_RECORD (R440): when space has returned, a record with the count of those lost enters the buffer first. -/
def execTraceOverflowRecord (die : Nat) (s : State) : Result := event s (·.reportLost die)

/-! ### Halt and release by the debugger (R433) -/

/-- The team that DBGHALT's words name, if it is resident or saved by pre-emption. -/
def State.named (s : State) (value : W64) : Option Nat :=
  (s.teams.find? fun e => e.2.live && e.2.asid.toNat == bits value.toNat 63 48 && e.2.number.toNat == s.dbg.halt0.toNat % 2 ^ 32
    && e.2.launch.toNat == s.dbg.halt0.toNat / 2 ^ 32).map (·.1)

/-- A team that `ctx.save` saved and DBGHALT names, marked; the images of such contexts, if there is one. -/
def State.markSaved (s : State) (value : W64) (m : Bool) : Option State :=
  let named := fun (T : Team) => T.asid.toNat == bits value.toNat 63 48 && T.number.toNat == s.dbg.halt0.toNat % 2 ^ 32
    && T.launch.toNat == s.dbg.halt0.toNat / 2 ^ 32
  let mark := fun (p : Nat × Team) => if named p.2 then (p.1, { p.2 with debugMark := some m }) else p
  if s.images.any (fun e => e.2.teams.any fun p => named p.2) then
    some { s with images := s.images.map fun e => (e.1, { e.2 with teams := e.2.teams.map mark }) }
  else none

/-- The word's stored field, with err as its write-one-to-clear bit says (R13, R433). -/
def State.storeHalt (s : State) (value : W64) : State :=
  { s with dbg := { s.dbg with haltAsid := BitVec.ofNat 16 (bits value.toNat 63 48), haltErr := s.dbg.haltErr && !value.getLsbD 0 } }

/-- DBGHALT.err is set, with vector 10 (R433, R447). -/
def State.haltFailed (s : State) : State := State.raiseVector { s with dbg := { s.dbg with haltErr := true } } 10

/-- Halts the named team as a skid does; a saved team is marked; a team that has trapped or is halted is left (R433, R445). -/
def State.debugHalt (s : State) (value : W64) : State :=
  let s := s.storeHalt value
  match s.named value with
  | none => match s.markSaved value true with
    | some s => s
    | none => s.haltFailed
  | some t =>
    let T := s.team t
    if !T.resident then s.setTeam t { T with debugMark := some true }
    else match T.halt with
      | .running | .handler _ => s.setTeam t { T with
          halt := .debugSkid s.now, parties := T.parties.map fun (e : Nat × Party) => (e.1, { e.2 with skid := 0 }) }
      | _ => s

/-- Releases the named team as R343 gives; a saved team is marked (R433). -/
def State.debugRelease (s : State) (value : W64) : State :=
  let s := s.storeHalt value
  match s.named value with
  | none => match s.markSaved value false with
    | some s => s
    | none => s.haltFailed
  | some t =>
    let T := s.team t
    if !T.resident then s.setTeam t { T with debugMark := some false }
    else if T.halt = .halted then s.releaseByDebugger t
    else s

/-- A write of DBGHALT word 1; with both bits it is reserved and ignored (R433). In a frozen module, whose teams do not run, it names a
team alone (log 22). -/
def State.writeHalt (s : State) (value : W64) : State :=
  if s.host.frozen then s.storeHalt value else
  match value.getLsbD 47, value.getLsbD 46 with
  | true, true => s
  | true, false => s.debugRelease value
  | false, true => s.debugHalt value
  | false, false => s.storeHalt value

/-- DEBUG_HALT (R433). -/
def execDebugHalt (value : W64) (s : State) : Result :=
  event s fun s => if value.getLsbD 46 && !value.getLsbD 47 then s.debugHalt value else s

/-- DEBUG_RELEASE (R433). -/
def execDebugRelease (value : W64) (s : State) : Result :=
  event s fun s => if value.getLsbD 47 && !value.getLsbD 46 then s.debugRelease value else s

/-! ### DBGSEL and DBGDATA (R434) -/

/-- Fields of DBGSEL: class, core, party key, lane, index. -/
structure Sel where
  cls : Nat
  core : Nat
  party : Nat
  lane : Nat
  index : Nat
  deriving DecidableEq, Repr

/-- The fields of a value of DBGSEL. -/
def selOf (v : Nat) : Sel :=
  { cls := bits v 39 32, core := bits v 31 21, party := bits v 20 15 + 64 * bits v 14 14, lane := bits v 13 8, index := bits v 7 0 }

/-- DBGSEL's fields. -/
def State.selection (s : State) : Sel := selOf s.dbg.sel.toNat

/-- The team is the one that DBGHALT's fields name. -/
def State.haltNames (s : State) (T : Team) : Bool :=
  T.asid == s.dbg.haltAsid && T.number.toNat == s.dbg.halt0.toNat % 2 ^ 32 && T.launch.toNat == s.dbg.halt0.toNat / 2 ^ 32

/-- A resident team whose state is served: it is halted, its handler running or not, or the module is frozen (R434). -/
def State.serves (s : State) (T : Team) : Bool :=
  T.live && T.resident && (s.host.frozen || (match T.halt with | .halted | .handler _ => true | _ => false))

/-- The team that holds the selected state. Where several that are served have such a party on the core, it is the one that DBGHALT
names, or else the one placed first: DBGSEL itself names no team (R434, log 22). -/
def State.selectedTeam (s : State) (q : Sel) : Option Nat :=
  let ok := s.teams.filter fun e => e.2.occupies q.core && s.serves e.2
    && e.2.parties.any fun (p : Nat × Party) => p.1 == q.party && p.2.core == q.core
  let first := (leastOrder (ok.map fun e => (e.2.order, e.1, 0))).map fun x => x.2.1
  ((ok.find? fun e => s.haltNames e.2).map (·.1)).or first

/-- The word address of classes 4 to 6: the last write of DBGDATA, and the index in words behind it (R434). -/
def Sel.addr (q : Sel) (data : W64) : Nat := (data.toNat + 8 * q.index) % 2 ^ 64

/-- Tile key and entry of a word address of class 5: two words for each entry, entries of one tile after those of the one before
(R434, log 22). -/
def tileWord (T : Team) (core a : Nat) : Nat × Nat × Bool :=
  let w := a / 8
  (64 * (core - T.core) + w / 2048, w / 2 % 1024, w % 2 == 1)

/-- The selected item, or none when the access is refused (R434). -/
def State.readSelected (s : State) : Option W64 :=
  let q := s.selection
  if q.cls = 6 then
    let a := q.addr s.dbg.data
    if a % 8 = 0 ∧ a + 8 ≤ 3 * 2 ^ 30 then some (w64 (Mem.read s.near a 8)) else none
  else (s.selectedTeam q).bind fun t =>
    let T := s.team t
    let P := T.party q.party
    let x := P.lane q.lane
    let laneOk := decide (q.lane < (if P.seq then 1 else T.hdr.width))
    match q.cls with
    | 0 =>
      if P.seq || !laneOk then none
      else if q.index < T.hdr.vregs then some ((x.reg q.index).setWidth 64)
      else if 120 ≤ q.index ∧ q.index < 128 then some (if x.clause.isSome then (x.reg q.index).setWidth 64 else 0)
      else none
    | 1 => if q.index < 64 then some (P.sreg q.index) else none
    | 2 => if laneOk && decide (q.index < 2) then some (w64 (x.entry / 2 ^ (64 * q.index))) else none
    | 3 => if q.index < 16 ∧ laneOk = true ∧ (P.seq && srNotSeq q.index) = false then some (s.specialReg t q.party q.lane q.index) else none
    | 4 =>
      let a := q.addr s.dbg.data
      if a % 8 = 0 ∧ a + 8 ≤ T.alloc then some (w64 (Mem.read T.mem a 8)) else none
    | 5 =>
      let e := tileWord T q.core (q.addr s.dbg.data)
      let tile : Tile := FMap.get {} T.tiles e.1
      if tile.allocated then some (w64 ((FMap.get 0 tile.e e.2.1).toNat / 2 ^ (if e.2.2 then 64 else 0))) else none
    | _ => none

/-- An item of classes 0 to 5 of team t written at a word address, or none when the write is refused (R434). A lane whose program counter
changes waits no more. -/
def State.writeItem (s : State) (t : Nat) (q : Sel) (a : Nat) (v : W64) : Option State :=
  let T := s.team t
  let P := T.party q.party
  let x := P.lane q.lane
  let laneOk := decide (q.lane < (if P.seq then 1 else T.hdr.width))
  match q.cls with
  | 0 =>
    if P.seq || !laneOk then none
    else if q.index < T.hdr.vregs ∨ (120 ≤ q.index ∧ q.index < 128 ∧ x.clause.isSome = true) then
      some (s.setLane t q.party q.lane (x.setReg q.index (v.setWidth 32)))
    else none
  | 1 => if q.index < 64 then some (s.setParty t q.party (P.setSreg q.index v)) else none
  | 2 =>
    if !laneOk then none
    else if q.index = 0 then
      if v.toNat % 4 ≠ 0 then none else some (s.setLane t q.party q.lane (if x.pc = v then x else x.goTo v))
    else if q.index = 1 then some (s.setLane t q.party q.lane { x with c := BitVec.ofNat 4 (bits v.toNat 19 16) })
    else none
  | 3 =>
    if srWritable q.index true ∧ laneOk = true ∧ (P.seq && srNotSeq q.index) = false then
      s.writeSpecial t q.party [q.lane] P.active q.index fun _ => v
    else none
  | 4 => if a % 8 = 0 ∧ a + 8 ≤ T.alloc then some (s.writeLocal t a 8 v.toNat) else none
  | 5 =>
    let e := tileWord T q.core a
    let tile : Tile := FMap.get {} T.tiles e.1
    let old := (FMap.get 0 tile.e e.2.1).toNat
    let new := if e.2.2 then old % 2 ^ 64 + 2 ^ 64 * (v.toNat % 2 ^ 32) else old / 2 ^ 64 * 2 ^ 64 + v.toNat
    if tile.allocated then
      some (s.setTeam t { T with tiles := FMap.set {} T.tiles e.1 { tile with e := FMap.set 0 tile.e e.2.1 (BitVec.ofNat 96 new) } })
    else none
  | _ => none

/-- The selected item written, or none when the access is refused. A write to a team's state is kept until the team is released
(R434). -/
def State.writeSelected (s : State) (v : W64) : Option State :=
  let q := s.selection
  let a := q.addr s.dbg.data
  if q.cls = 6 then
    if a % 8 = 0 ∧ a + 8 ≤ 3 * 2 ^ 30 then some (s.writePlace (.near a) 8 v.toNat) else none
  else (s.selectedTeam q).bind fun t => (s.writeItem t q a v).map fun _ =>
    let T := s.team t
    s.setTeam t { T with edits := T.edits ++ [(s.dbg.sel, s.dbg.data, v)] }

/-- The debugger's writes to a team that has been released take effect, in order (R434). -/
def State.applyEdits (s : State) (t : Nat) : State :=
  let T := s.team t
  if T.edits.isEmpty || !(T.editsDue || T.halt == .running) then s
  else T.edits.foldl (fun (s : State) e => (s.writeItem t (selOf e.1.toNat) ((selOf e.1.toNat).addr e.2.1) e.2.2).getD s)
    (s.setTeam t { T with edits := [], editsDue := false })

/-- The debugger's writes to all teams that have been released. -/
def State.applyAllEdits (s : State) : State := s.teams.foldl (fun (s : State) e => s.applyEdits e.1) s

/-- DBGSEL.err is set, with vector 10 (R434, R447). -/
def State.selFailed (s : State) : State := State.raiseVector { s with dbg := { s.dbg with selErr := true } } 10

/-- A read of DBGDATA: the value, 0 when it is refused (R434). -/
def State.readData (s : State) : State × W64 :=
  match s.readSelected with
  | some v => (s, v)
  | none => (s.selFailed, 0)

/-- A write of DBGDATA: the item, and the address that classes 4 to 6 use from then on (R434, log 22). -/
def State.writeData (s : State) (v : W64) : State :=
  let s' := match s.writeSelected v with
    | some s => s
    | none => s.selFailed
  { s' with dbg := { s'.dbg with data := v } }

/-- A write of DBGSEL (R434). -/
def State.writeSel (s : State) (v : W64) : State :=
  { s with dbg := { s.dbg with sel := v.setWidth 40, selErr := s.dbg.selErr && !v.getLsbD 63 } }

/-- DBGSEL as it reads. -/
def State.selWord (s : State) : W64 := w64 (s.dbg.sel.toNat + 2 ^ 63 * b2n s.dbg.selErr)

/-- The meaning of an access of the debugger: served in a frozen module (R434), unless its power is gone (R460). -/
def eventDebug (s : State) (effect : State → State) : Result :=
  eventAlways s fun s => if s.host.powerOff then s else effect s

/-- DBGDATA_READ (R434). -/
def execDbgdataRead (s : State) : Result :=
  eventDebug s fun s => let r := s.readData; r.1.send (.debugData r.2)

/-- DBGDATA_WRITE (R434). -/
def execDbgdataWrite (value : W64) (s : State) : Result := eventDebug s fun s => s.writeData value

/-! ### Freeze and JTAG (R443, R444) -/

/-- The module freezes (R443). -/
def State.freeze (s : State) : State := { s with host := { s.host with frozen := true } }

/-- FREEZE_PIN (R443). -/
def execFreezePin (s : State) : Result := eventAlways s State.freeze

/-- MGMT_FREEZE (R443): from management port 1 or 2. -/
def execMgmtFreeze (port : Nat) (s : State) : Result :=
  eventAlways s fun s => if port = 1 ∨ port = 2 then s.freeze else s

/-- The JTAG instruction register (R444). -/
def State.jtagSelect (s : State) (ir : W8) : State := { s with host := { s.host with jtagIR := ir } }

/-- JTAG_EXTEST (R444): the boundary-scan register captures the pins and drives them with what is shifted in. -/
def execJtagExtest (bits : List Bool) (s : State) : Result :=
  eventAlways s fun s =>
    let s := (s.jtagSelect 0x00).send (.jtag s.host.pins)
    { s with host := { s.host with boundary := bits, pins := bits } }

/-- JTAG_IDCODE (R444). -/
def execJtagIdcode (s : State) : Result :=
  eventAlways s fun s => (s.jtagSelect 0x01).send (.jtag ((List.range 32).map fun i => Config.idcode.getLsbD i))

/-- JTAG_SAMPLE_PRELOAD (R444): the pins are sampled, and the boundary-scan register is loaded without driving them. -/
def execJtagSamplePreload (bits : List Bool) (s : State) : Result :=
  eventAlways s fun s =>
    let s := (s.jtagSelect 0x02).send (.jtag s.host.pins)
    { s with host := { s.host with boundary := bits } }

/-- JTAG_FREEZE (R444). -/
def execJtagFreeze (bit : Bool) (s : State) : Result :=
  eventAlways s fun s => let s := s.jtagSelect 0x10; if bit then s.freeze else s

/-- JTAG_DSEL (R444). -/
def execJtagDsel (value : W64) (s : State) : Result :=
  eventDebug s fun s => ((s.jtagSelect 0x11).send (.jtagWord s.selWord)).writeSel value

/-- JTAG_DDATA (R444): a read, or a write with a value. -/
def execJtagDdata (value : Option W64) (s : State) : Result :=
  eventDebug s fun s =>
    let s := s.jtagSelect 0x12
    match value with
    | some v => s.writeData v
    | none => let r := s.readData; r.1.send (.jtagWord r.2)

/-- JTAG_BYPASS (R444): one bit of delay. -/
def execJtagBypass (bit : Bool) (s : State) : Result :=
  eventAlways s fun s => (s.jtagSelect 0xFF).send (.jtag [false, bit])

end Sys2Proof.Machine
end

