-- ==== Sys2Proof/Machine/Digest.lean ====
section
/-! DEFINITION. The cryptography that the manual names by its standards (R455, R456): SHA-512 (FIPS 180-4), and the verification of an
RSASSA-PSS signature with MGF1 over SHA-512 and a 64-byte salt (RFC 8017). -/

namespace Sys2Proof.Machine

open Sys2Proof

/-! ### SHA-512 -/

/-- The round constants of SHA-512. -/
def shaRounds : List W64 :=
  [0x428A2F98D728AE22, 0x7137449123EF65CD, 0xB5C0FBCFEC4D3B2F, 0xE9B5DBA58189DBBC
    , 0x3956C25BF348B538, 0x59F111F1B605D019, 0x923F82A4AF194F9B, 0xAB1C5ED5DA6D8118
    , 0xD807AA98A3030242, 0x12835B0145706FBE, 0x243185BE4EE4B28C, 0x550C7DC3D5FFB4E2
    , 0x72BE5D74F27B896F, 0x80DEB1FE3B1696B1, 0x9BDC06A725C71235, 0xC19BF174CF692694
    , 0xE49B69C19EF14AD2, 0xEFBE4786384F25E3, 0x0FC19DC68B8CD5B5, 0x240CA1CC77AC9C65]
  ++ [0x2DE92C6F592B0275, 0x4A7484AA6EA6E483, 0x5CB0A9DCBD41FBD4, 0x76F988DA831153B5
    , 0x983E5152EE66DFAB, 0xA831C66D2DB43210, 0xB00327C898FB213F, 0xBF597FC7BEEF0EE4
    , 0xC6E00BF33DA88FC2, 0xD5A79147930AA725, 0x06CA6351E003826F, 0x142929670A0E6E70
    , 0x27B70A8546D22FFC, 0x2E1B21385C26C926, 0x4D2C6DFC5AC42AED, 0x53380D139D95B3DF
    , 0x650A73548BAF63DE, 0x766A0ABB3C77B2A8, 0x81C2C92E47EDAEE6, 0x92722C851482353B]
  ++ [0xA2BFE8A14CF10364, 0xA81A664BBC423001, 0xC24B8B70D0F89791, 0xC76C51A30654BE30
    , 0xD192E819D6EF5218, 0xD69906245565A910, 0xF40E35855771202A, 0x106AA07032BBD1B8
    , 0x19A4C116B8D2D0C8, 0x1E376C085141AB53, 0x2748774CDF8EEB99, 0x34B0BCB5E19B48A8
    , 0x391C0CB3C5C95A63, 0x4ED8AA4AE3418ACB, 0x5B9CCA4F7763E373, 0x682E6FF3D6B2B8A3
    , 0x748F82EE5DEFB2FC, 0x78A5636F43172F60, 0x84C87814A1F0AB72, 0x8CC702081A6439EC]
  ++ [0x90BEFFFA23631E28, 0xA4506CEBDE82BDE9, 0xBEF9A3F7B2C67915, 0xC67178F2E372532B
    , 0xCA273ECEEA26619C, 0xD186B8C721C0C207, 0xEADA7DD6CDE0EB1E, 0xF57D4F7FEE6ED178
    , 0x06F067AA72176FBA, 0x0A637DC5A2C898A6, 0x113F9804BEF90DAE, 0x1B710B35131C471B
    , 0x28DB77F523047D84, 0x32CAAB7B40C72493, 0x3C9EBE0A15C9BEBC, 0x431D67C49C100D4C
    , 0x4CC5D4BECB3E42B6, 0x597F299CFC657E2A, 0x5FCB6FAB3AD6FAEC, 0x6C44198C4A475817]

/-- The initial hash value of SHA-512. -/
def shaStart : List W64 :=
  [0x6A09E667F3BCC908, 0xBB67AE8584CAA73B, 0x3C6EF372FE94F82B, 0xA54FF53A5F1D36F1
    , 0x510E527FADE682D1, 0x9B05688C2B3E6C1F, 0x1F83D9ABFB41BD6B, 0x5BE0CD19137E2179]

/-- A message padded to a multiple of 128 bytes: 0x80, zeros, and its length in bits as 16 bytes, highest first. -/
def shaPad (m : List W8) : List W8 :=
  m ++ 0x80 :: List.replicate ((239 - m.length % 128) % 128) 0
    ++ (List.range 16).map fun i => BitVec.ofNat 8 (8 * m.length / 2 ^ (8 * (15 - i)))

/-- Bytes as a number, highest first. -/
def bigEndian (bs : List W8) : Nat := bs.foldl (fun v b => 256 * v + b.toNat) 0

/-- A number as n bytes, highest first. -/
def bigBytes (v n : Nat) : List W8 := (List.range n).map fun i => BitVec.ofNat 8 (v / 256 ^ (n - 1 - i))

/-- The next word of a message schedule from its last 16 words, newest first. -/
def shaNext (w : List W64) : W64 :=
  let at_ := fun (i : Nat) => (w[i - 1]?).getD 0
  let s0 := (at_ 15).rotateRight 1 ^^^ (at_ 15).rotateRight 8 ^^^ (at_ 15) >>> 7
  let s1 := (at_ 2).rotateRight 19 ^^^ (at_ 2).rotateRight 61 ^^^ (at_ 2) >>> 6
  s1 + at_ 7 + s0 + at_ 16

/-- The working variables a to h. -/
structure ShaVars where
  a : W64
  b : W64
  c : W64
  d : W64
  e : W64
  f : W64
  g : W64
  h : W64
  deriving DecidableEq, Repr

/-- One round with a constant and a word of the schedule. -/
def ShaVars.round (x : ShaVars) (k w : W64) : ShaVars :=
  let s1 := x.e.rotateRight 14 ^^^ x.e.rotateRight 18 ^^^ x.e.rotateRight 41
  let t1 := x.h + s1 + ((x.e &&& x.f) ^^^ (~~~x.e &&& x.g)) + k + w
  let s0 := x.a.rotateRight 28 ^^^ x.a.rotateRight 34 ^^^ x.a.rotateRight 39
  let t2 := s0 + ((x.a &&& x.b) ^^^ (x.a &&& x.c) ^^^ (x.b &&& x.c))
  { a := t1 + t2, b := x.a, c := x.b, d := x.c, e := x.d + t1, f := x.e, g := x.f, h := x.g }

/-- The rounds of a block: remaining constants, words of the block still to come, and the last words used, newest first. -/
def shaBlock : List W64 → List W64 → List W64 → ShaVars → ShaVars
  | [], _, _, x => x
  | k :: ks, w :: ws, past, x => shaBlock ks ws (w :: past.take 15) (x.round k w)
  | k :: ks, [], past, x => shaBlock ks [] (shaNext past :: past.take 15) (x.round k (shaNext past))

/-- The hash value after a block of 128 bytes. -/
def shaStep (h : ShaVars) (block : List W8) : ShaVars :=
  let ws := (List.range 16).map fun i => BitVec.ofNat 64 (bigEndian ((block.drop (8 * i)).take 8))
  let x := shaBlock shaRounds ws [] h
  { a := h.a + x.a, b := h.b + x.b, c := h.c + x.c, d := h.d + x.d, e := h.e + x.e, f := h.f + x.f, g := h.g + x.g, h := h.h + x.h }

/-- The blocks of a padded message one after another. -/
def shaBlocks (h : ShaVars) (m : List W8) : Nat → ShaVars
  | 0 => h
  | n + 1 => shaBlocks (shaStep h (m.take 128)) (m.drop 128) n

/-- SHA-512 as 64 bytes, highest first. -/
def shaBytes (m : List W8) : List W8 :=
  let v := fun (i : Nat) => (shaStart[i]?).getD 0
  let p := shaPad m
  let x := shaBlocks { a := v 0, b := v 1, c := v 2, d := v 3, e := v 4, f := v 5, g := v 6, h := v 7 } p (p.length / 128)
  [x.a, x.b, x.c, x.d, x.e, x.f, x.g, x.h].flatMap fun w => bigBytes w.toNat 8

/-- SHA-512 as a 512-bit digest; bits 511 to 504 are its first byte. -/
def sha512 (m : List W8) : BitVec 512 := BitVec.ofNat 512 (bigEndian (shaBytes m))

/-! ### RSASSA-PSS -/

/-- b^e mod m, with at least as many steps as e has bits. -/
def powMod (m : Nat) : Nat → Nat → Nat → Nat
  | 0, _, _ => 1 % m
  | n + 1, b, e =>
    let r := powMod m n (b * b % m) (e / 2)
    if e % 2 = 1 then b * r % m else r

/-- The number of bits of a number that has at most n. -/
def bitsOf (v : Nat) : Nat → Nat
  | 0 => 0
  | n + 1 => if 2 ^ n ≤ v then n + 1 else bitsOf v n

/-- MGF1 over SHA-512: n bytes from a seed. -/
def mgf1 (seed : List W8) (n : Nat) : List W8 :=
  ((List.range (n / 64 + 1)).flatMap fun i => shaBytes (seed ++ bigBytes i 4)).take n

/-- EMSA-PSS verification with a 64-byte salt: a digest against an encoded message of `bits` bits. -/
def pssVerifies (digest : List W8) (bits : Nat) (em : List W8) : Bool :=
  let n := (bits + 7) / 8
  let masked := em.take (n - 65)
  let h := (em.drop (n - 65)).take 64
  let spare := 8 * n - bits
  let db := (masked.zip (mgf1 h (n - 65))).map fun e => e.1 ^^^ e.2
  let db := match db with | [] => [] | b :: rest => (b &&& (0xFF#8 >>> spare)) :: rest
  decide (130 ≤ n) && em.length == n && em.getLast? == some 0xBC
    && decide ((((masked.head?).getD 0).toNat) < 2 ^ (8 - spare))
    && db.take (n - 130) == List.replicate (n - 130) 0 && (db.drop (n - 130)).head? == some 1
    && h == shaBytes (List.replicate 8 0 ++ digest ++ db.drop (n - 129))

/-- An RSASSA-PSS signature of a digest under a key (R455). -/
def rsaVerifies (key digest signature : List W8) : Bool :=
  let m := Config.keyModulus key
  let k := bitsOf m 4096
  let s := bigEndian signature
  signature.length == 512 && decide (s < m) && k == 4096
    && pssVerifies digest (k - 1) (bigBytes (powMod m 4096 s (Config.keyExponent key)) 512)

end Sys2Proof.Machine
end

