-- ==== Sys2Proof/Machine/Registers.lean ====
section
/-! DEFINITION. The control window (R449) and the launch windows (R450): what each register reads and what a write of it does,
field by field under the access codes of R13, and the semaphore that gates the management ports (R452). -/

namespace Sys2Proof.Machine

open Sys2Proof

/-- A field after a write-one-to-clear (R13). -/
def w1c {n : Nat} (old v : BitVec n) : BitVec n := old &&& ~~~v

/-- An RW field after a write that a reserved value leaves unchanged (R13). -/
def rwIf {n : Nat} (ok : Bool) (old : BitVec n) (v : Nat) : BitVec n := if ok then BitVec.ofNat n v else old

/-- A read index of a ring of 2^n entries after a write: unchanged when the value lies outside the unread range (R333, R463). -/
def ringRead {n : Nat} (read next v : BitVec n) : BitVec n := if v - read ≤ next - read then v else read

/-! ### Reads -/

/-- Slots of the stash that are bound (R402). -/
def State.boundSlots (s : State) : Nat := (s.pat.slots.filter fun e => match e.2 with | .bound _ => true | _ => false).length

/-- PATSTAT (R402). -/
def State.patstat (s : State) : Nat :=
  let p := s.pat
  p.entries.length + 2 ^ 18 * p.head + 2 ^ 27 * p.outstanding.length + 2 ^ 40 * p.lost + 2 ^ 48 * s.boundSlots + 2 ^ 55 * b2n p.err
    + 2 ^ 56 * p.credit

/-- RSLOT of a core (R407). -/
def State.rslot (s : State) (core : Nat) : Nat :=
  let K := s.core core
  let ch := K.chan K.peerSel.toNat
  ch.out.length + 2 ^ 8 * (ch.out.filter (·.reads)).length + 2 ^ 16 * ch.issued.toNat + 2 ^ 48 * K.peerSel.toNat

/-- Registers in single places of the window (R449). -/
def State.controlAt (s : State) (off : Nat) : Nat :=
  let c := s.ctrl
  let d := s.dbg
  let h := s.host
  match off with
  | 0x0000 => 0x5A38 + 2 ^ 16 * Config.revision.toNat
  | 0x1000 => h.semOwner.toNat
  | 0x1010 => h.straps.toNat
  | 0x1018 => h.rststat.toNat
  | 0x1020 => h.clockSet.toNat + 2 ^ 16 * h.powerCap.toNat
  | 0x1028 => h.temp.toNat + 2 ^ 32 * h.throttle.toNat + 2 ^ 40 * h.trip.toNat
  | 0x2000 => c.dswapCycles.toNat + 2 ^ 32 * b2n c.dswapEnable
  | 0x2008 => c.mcfgShare.toNat
  | 0x2010 => c.wcbAge.toNat
  | 0x2018 => c.engLimit.toNat
  | 0x2020 => c.vlogNext.toNat + 2 ^ 15 * c.vlogBase.toNat + 2 ^ 32 * c.vlogLost.toNat + 2 ^ 48 * c.vlogRead.toNat
  | 0x2028 => 2 ^ 17 * c.fqBase.toNat + 2 ^ 37 * b2n c.fqValid + 2 ^ 38 * c.fqCounter.toNat
  | 0x2030 => s.fq.count + 2 ^ 16 * s.fq.peak + 2 ^ 32 * (s.fq.held.length % 2 ^ 16)
  | 0x2038 => b2n c.ueptValid + 2 ^ 21 * c.ueptBase.toNat
  | 0x2040 => c.minw.toNat + 2 ^ 8 * c.window.toNat + 2 ^ 20 * c.arity.toNat + 2 ^ 32 * c.errthr.toNat + 2 ^ 40 * c.lossto.toNat
  | 0x2048 => h.farwin.toNat
  | 0x3000 => c.lead.toNat + 2 ^ 16 * b2n c.tideEnable + 2 ^ 17 * b2n c.leader + 2 ^ 24 * c.tideAsid.toNat + 2 ^ 40 * c.stale.toNat
  | 0x3008 => c.absent.toNat + 2 ^ 16 * c.late.toNat + 2 ^ 32 * c.beat.toNat
  | 0x3100 => b2n c.patEnable + 2 ^ 12 * c.credit.toNat + 2 ^ 20 * c.ssize.toNat + 2 ^ 27 * c.upmod.toNat + 2 ^ 37 * b2n c.upv
      + 2 ^ 48 * c.patAsid.toNat
  | 0x3108 => c.patstash.toNat
  | 0x3110 => s.patstat
  | 0x4080 => d.halt0.toNat
  | 0x4088 => b2n d.haltErr + 2 ^ 48 * d.haltAsid.toNat
  | 0x4090 => s.selWord.toNat
  | 0x40A0 => b2n d.sampEnable + 2 * d.sampInterval.toNat + 2 ^ 25 * d.sampLost.toNat + 2 ^ 37 * d.sampNext.toNat + 2 ^ 53 * d.sampBase.toNat
  | 0x40A8 => b2n d.trcEnable + 2 * b2n d.trcStall + 4 * d.trcKinds.toNat + 2 ^ 47 * b2n d.trcAll + 2 ^ 48 * d.trcAsid.toNat
  | 0x40B0 => d.sampRead.toNat
  | 0x5000 => h.keySlot.toNat + 2 ^ 63 * b2n h.keyErr
  | 0x6000 => h.eccCorrected.toNat + 2 ^ 32 * h.eccUncorrected.toNat
  | _ => 0

/-- A read of the control window (R449). A read of DBGDATA may set DBGSEL.err (R434). -/
def State.readControl (s : State) (off : Nat) : State × W64 :=
  if off = 0x4098 then s.readData
  else
    (s, w64 (
      if off % 8 ≠ 0 then 0
      else if 0x2100 ≤ off ∧ off < 0x21E0 then
        let p := s.port ((off - 0x2100) / 8)
        p.state.toNat + 2 ^ 8 * p.width.toNat + 2 ^ 16 * p.retrains.toNat + 2 ^ 32 * p.replays.toNat
      else if 0x3140 ≤ off ∧ off < 0x3168 then (FMap.get 0 s.pat.bubbles ((off - 0x3140) / 8)).toNat
      else if 0x4000 ≤ off ∧ off < 0x4080 then
        (FMap.get 0 s.dbg.bp ((off - 0x4000) / 16)).toNat / (if off % 16 = 8 then 2 ^ 64 else 1)
      else if 0x10000 ≤ off ∧ off < 0x20000 then
        let e := s.tideEntry ((off - 0x10000) / 16)
        if off % 16 = 8 then e.heard.toNat else e.word
      else if 0x20000 ≤ off ∧ off < 0x20000 + 8 * coreCount then s.rslot ((off - 0x20000) / 8)
      else s.controlAt off))

/-! ### Writes -/

/-- MGMTSEM written by a port (R452): only the owner frees it, and only a free one is taken. -/
def State.writeSem (s : State) (port : Nat) (v : W64) : State :=
  let h := s.host
  if port ≠ 1 ∧ port ≠ 2 then s
  else if h.semOwner = 0 then
    if v.getLsbD 2 then { s with host := { h with semOwner := BitVec.ofNat 2 port }, cyc := { s.cyc with semTaken := s.cyc.semTaken || port == 2 } }
    else s.send (.mgmtError port)
  else if h.semOwner.toNat ≠ port then s.send (.mgmtError port)
  else if v.getLsbD 3 then { s with host := { h with semOwner := 0 } }
  else s

/-- The clock in force (R459, R460). -/
def HostIf.heldClock (h : HostIf) (set : BitVec 2) : BitVec 2 := if h.throttled && set == 0 then 1 else set

/-- PWRCTL (R459). -/
def State.writePwrctl (s : State) (v : Nat) : State :=
  let h := s.host
  let cap := bits v 29 16
  let set := if bits v 1 0 = 3 then h.clockSet else BitVec.ofNat 2 v
  { s with host := { h with
    powerCap := rwIf (decide (2000 ≤ cap) && decide (cap ≤ 4800)) h.powerCap cap
    clockSet := set
    clockState := if bits v 1 0 = 3 then h.clockState else h.heldClock set } }

/-- What the temperature does, which the device judges as it, throttle or trip changes (R460). At or above throttle the clock is held at P1
or slower, until 5 °C below it the hold is lifted, with vector 4 as the throttle temperature is reached and as the hold is lifted (R447); at
or above trip the module freezes, then power is removed from every die but quay die 0. -/
def State.judgeTemp (s : State) : State :=
  let h := s.host
  let s := if !s.running then s
    else if h.throttle ≤ h.temp then
      let s' := { s with host := { h with throttled := true, clockState := if h.clockState = 0 then 1 else h.clockState } }
      if h.throttled then s' else s'.raiseVector 4
    else if h.throttled && decide (h.temp.toNat + 5 ≤ h.throttle.toNat) then
      State.raiseVector { s with host := { h with throttled := false, clockState := h.clockSet } } 4
    else s
  if h.trip ≤ h.temp then { s with host := { s.host with frozen := true, powerOff := true } } else s

/-- THERM (R460). -/
def State.writeTherm (s : State) (v : Nat) : State :=
  let h := s.host
  let trip := bits v 47 40
  let thr := bits v 39 32
  State.judgeTemp { s with host := { h with
    trip := rwIf (decide (95 ≤ trip) && decide (trip ≤ 115)) h.trip trip
    throttle := rwIf (decide (80 ≤ thr) && decide (thr ≤ 105)) h.throttle thr } }

/-- VLOGCTL (R333). -/
def State.writeVlogctl (s : State) (v : Nat) : State :=
  let c := s.ctrl
  { s with ctrl := { c with
    vlogRead := ringRead c.vlogRead c.vlogNext (BitVec.ofNat 10 (bits v 57 48))
    vlogLost := w1c c.vlogLost (BitVec.ofNat 16 (bits v 47 32))
    vlogBase := BitVec.ofNat 17 (bits v 31 15) } }

/-- FQCTL (R335). -/
def State.writeFqctl (s : State) (v : Nat) : State :=
  let c := s.ctrl
  { s with ctrl := { c with
    fqCounter := BitVec.ofNat 12 (bits v 49 38), fqValid := bit v 37
    fqBase := rwIf (s.fq.count == 0 && s.fq.held.isEmpty) c.fqBase (bits v 31 17) } }

/-- FABCTL (R425). -/
def State.writeFabctl (s : State) (v : Nat) : State :=
  let c := s.ctrl
  { s with ctrl := { c with
    lossto := rwIf (bits v 63 40 != 0) c.lossto (bits v 63 40)
    errthr := rwIf (bits v 39 32 != 0) c.errthr (bits v 39 32)
    arity := rwIf (decide (2 ≤ bits v 23 20)) c.arity (bits v 23 20)
    window := BitVec.ofNat 12 (bits v 19 8)
    minw := rwIf (bits v 1 0 != 3) c.minw (bits v 1 0) } }

/-- SAMPCTL (R435): the first samples are taken N cycles after enable is set or N changes. -/
def State.writeSampctl (s : State) (v : Nat) : State :=
  let d := s.dbg
  let interval := rwIf (decide (256 ≤ bits v 24 1)) d.sampInterval (bits v 24 1)
  { s with dbg := { d with
    sampBase := rwIf (!d.sampEnable) d.sampBase (bits v 63 53)
    sampLost := w1c d.sampLost (BitVec.ofNat 12 (bits v 36 25))
    sampInterval := interval
    sampEnable := bit v 0
    sampAt := if bit v 0 && (!d.sampEnable || interval != d.sampInterval) then s.now + interval.toNat else d.sampAt } }

/-- TRCCTL (R438): once enable is set, every lane writes an anchor before its first record (R441). -/
def State.writeTrcctl (s : State) (v : Nat) : State :=
  let was := s.dbg.trcEnable
  let s := { s with dbg := { s.dbg with
    trcAsid := BitVec.ofNat 16 (bits v 63 48), trcAll := bit v 47, trcKinds := BitVec.ofNat 4 (bits v 5 2), trcStall := bit v 1
    trcEnable := bit v 0 } }
  if bit v 0 && !was then
    { s with teams := s.teams.map fun (e : Nat × Team) => (e.1, e.2.mapLanes fun x => { x with anchorDue := true }) }
  else s

/-- The eight KEYDATA words as a key, word 0 lowest (R457). -/
def HostIf.keyWords (h : HostIf) : BitVec 512 := BitVec.ofNat 512 (packBytes 8 ((List.range 8).map fun i => (FMap.get 0 h.keydata i).toNat))

/-- KEYCTL (R457): refused from BAR 0; a load of slot 0 while a context is resident is refused. -/
def State.writeKeyctl (s : State) (port v : Nat) : State :=
  let h := s.host
  if port = 0 then { s with host := { h with keyErr := true } }
  else
    let slot := bits v 12 0
    let h := { h with keyErr := h.keyErr && !bit v 63, keySlot := BitVec.ofNat 13 slot }
    { s with host :=
      match bits v 15 14 with
      | 1 =>
        if slot == 0 && s.ctxs.any (fun e => e.2.resident) then { h with keyErr := true }
        else { h with keys := FMap.set none h.keys slot (some h.keyWords) }
      | 2 => { h with keys := FMap.set none h.keys slot none, keydata := [] }
      | _ => h }

/-- KEYDATA word i (R457). -/
def State.writeKeydata (s : State) (port i : Nat) (v : W64) : State :=
  let h := s.host
  { s with host := if port = 0 then { h with keyErr := true } else { h with keydata := FMap.set 0 h.keydata i v } }

/-- Word 0 of a tide entry (R362): step, module and agg only while TIDECTL.enable is 0. Silence of a new state counts from the
write (R363). -/
def State.writeTide (s : State) (e v : Nat) : State :=
  let x := s.tideEntry e
  let st := BitVec.ofNat 2 (bits v 63 62)
  let x := if x.state = st then x else { x with state := st, silentFrom := s.now }
  s.setTideEntry e (if s.ctrl.tideEnable then x else
    { x with agg := bit v 61, module := BitVec.ofNat 17 (bits v 48 32), step := w32 v })

/-- Registers in single places of the window (R449). -/
def State.putControl (s : State) (port off : Nat) (value : W64) : State :=
  let c := s.ctrl
  let d := s.dbg
  let v := value.toNat
  match off with
  | 0x1000 => s.writeSem port value
  | 0x1020 => s.writePwrctl v
  | 0x1028 => s.writeTherm v
  | 0x2000 => { s with ctrl := { c with
      dswapEnable := bit v 32, dswapCycles := rwIf (decide (1024 ≤ bits v 31 0)) c.dswapCycles v } }
  | 0x2008 => { s with ctrl := { c with mcfgShare := rwIf (!c.mcfgFixed && bits v 1 0 != 3) c.mcfgShare v } }
  | 0x2010 =>
    let s := { s with ctrl := { c with wcbAge := rwIf (decide (64 ≤ bits v 19 0)) c.wcbAge v } }
    if bit v 20 then s.flushAll else s
  | 0x2018 => { s with ctrl := { c with engLimit := rwIf (bits v 15 0 != 0) c.engLimit v } }
  | 0x2020 => s.writeVlogctl v
  | 0x2028 => s.writeFqctl v
  | 0x2030 => { s with fq := { s.fq with peak := (w1c (BitVec.ofNat 13 s.fq.peak) (BitVec.ofNat 13 (bits v 28 16))).toNat } }
  | 0x2038 => s.writeUept v
  | 0x2040 => s.writeFabctl v
  | 0x2048 => { s with host := { s.host with farwin := BitVec.ofNat 13 v } }
  | 0x3000 => s.writeTidectl value
  | 0x3008 => { s with ctrl := { c with
      beat := rwIf (bits v 47 32 != 0) c.beat (bits v 47 32), late := rwIf (bits v 31 16 != 0) c.late (bits v 31 16)
      absent := BitVec.ofNat 16 v } }
  | 0x3100 => s.writePatcfg value
  | 0x3108 => { s with ctrl := { c with patstash := if c.patEnable then c.patstash else value } }
  | 0x3110 => { s with pat := { s.pat with
      err := s.pat.err && !bit v 55, lost := (w1c (BitVec.ofNat 8 s.pat.lost) (BitVec.ofNat 8 (bits v 47 40))).toNat } }
  | 0x4080 => { s with dbg := { d with halt0 := value } }
  | 0x4088 => s.writeHalt value
  | 0x4090 => s.writeSel value
  | 0x4098 => s.writeData value
  | 0x40A0 => s.writeSampctl v
  | 0x40A8 => s.writeTrcctl v
  | 0x40B0 => { s with dbg := { d with sampRead := ringRead d.sampRead d.sampNext (BitVec.ofNat 16 v) } }
  | 0x5000 => s.writeKeyctl port v
  | 0x6000 => { s with host := { s.host with
      eccCorrected := w1c s.host.eccCorrected (w32 v), eccUncorrected := w1c s.host.eccUncorrected (w32 (v / 2 ^ 32)) } }
  | _ => s

/-- A write of the control window from BAR 0 (port 0) or a management port that holds the semaphore (R449). -/
def State.writeControl (s : State) (port off : Nat) (value : W64) : State :=
  let v := value.toNat
  if off % 8 ≠ 0 then s
  else if 0x2100 ≤ off ∧ off < 0x21E0 then
    let n := (off - 0x2100) / 8
    let p := s.port n
    s.setPort n { p with
      replays := w1c p.replays (BitVec.ofNat 16 (bits v 47 32)), retrains := w1c p.retrains (BitVec.ofNat 16 (bits v 31 16)) }
  else if 0x4000 ≤ off ∧ off < 0x4080 then
    let n := (off - 0x4000) / 16
    let b := (FMap.get 0 s.dbg.bp n).toNat
    let b := if off % 16 = 8 then b % 2 ^ 64 + 2 ^ 64 * (bits v 7 0 + 2 ^ 48 * bits v 63 48) else b / 2 ^ 64 * 2 ^ 64 + v / 4 * 4
    { s with dbg := { s.dbg with bp := FMap.set 0 s.dbg.bp n (BitVec.ofNat 128 b) } }
  else if 0x5008 ≤ off ∧ off < 0x5048 then s.writeKeydata port ((off - 0x5008) / 8) value
  else if 0x10000 ≤ off ∧ off < 0x20000 then (if off % 16 = 8 then s else s.writeTide ((off - 0x10000) / 16) v)
  else if 0x20000 ≤ off ∧ off < 0x20000 + 8 * coreCount then
    let n := (off - 0x20000) / 8
    s.setCore n { s.core n with peerSel := BitVec.ofNat 10 (bits v 57 48) }
  else s.putControl port off value

/-- Registers that answer while the module is frozen: MGMTSEM, DBGSEL and DBGDATA, and DBGHALT, whose fields then name the team that
DBGSEL means (R434, R443, R444, log 22). -/
def alwaysServed (off : Nat) : Bool := off == 0x1000 || off == 0x4080 || off == 0x4088 || off == 0x4090 || off == 0x4098

/-- The control window answers a port: BAR 0 from bring-up step 5 on, a management port from step 1 on (R454, R460). -/
def State.answers (s : State) (port : Nat) : Bool :=
  decide (port ≤ 2) && (port != 0 || (s.host.rststat.toNat % 256 == 5 && !s.host.powerOff))

/-- A control write through BAR 0 or a management port (R449, R452, R454, R460). -/
def State.writeFrom (s : State) (port off : Nat) (value : W64) : State :=
  if !s.answers port then s
  else if off = 0x1000 then s.writeSem port value
  else if port ≠ 0 ∧ s.host.semOwner.toNat ≠ port then s.send (.mgmtError port)
  else if (s.host.frozen && !alwaysServed off) || s.host.powerOff then s
  else s.writeControl port off value

/-- A control read through BAR 0 or a management port; zero where the window does not answer (R449, R452, R454). -/
def State.readFrom (s : State) (port off : Nat) : State × W64 := if s.answers port then s.readControl off else (s, 0)

/-! ### Launch windows (R450, R451) -/

/-- LWSTAT (R450). -/
def Window.stat (w : Window) : W64 := w64 (w.result.toNat + 2 ^ 63 * b2n w.busy)

/-- A read through BAR 4: an RW field as it was written, 0 of the doorbell, and LWSTAT (R13, R450). -/
def State.readLaunch (s : State) (off : Nat) : W64 :=
  let w := s.window (off / 4096)
  let o := off % 4096
  if 64 ≤ off / 4096 ∨ off % 8 ≠ 0 then 0
  else if o = 0x000 then w.header
  else if o = 0x008 then w.launch
  else if 0x010 ≤ o ∧ o < 0x050 then FMap.get 0 w.params ((o - 0x010) / 8)
  else if o = 0x088 then w.stat
  else 0

/-- A doorbell of window q: the window is busy until the launch is judged, in this cycle's end at the earliest; one of a busy window is
ignored (R451, log 27). -/
def State.ring (s : State) (q : Nat) : State :=
  let w := s.window q
  if 64 ≤ q ∨ w.busy = true then s
  else s.setWindow q { w with busy := true, rung := (w.header, w.launch, w.params), header64 := none }

/-- What a busy window submits: of each field as the doorbell found it and as it stands now, one, which one being free (R451). -/
def State.rungFields (s : State) (w : Window) : W64 × W64 × (Nat → W64) :=
  let pick := fun (k : Nat) (old new : W64) => if Config.takesNew s.free k then new else old
  (pick 0 w.rung.1 w.header, pick 1 w.rung.2.1 w.launch, fun i => pick (2 + i) (FMap.get 0 w.rung.2.2 i) (FMap.get 0 w.params i))

/-- The service core on whose channel the device reads a header in a peer window for window q, the first of the module (log 16). -/
def windowCore : Nat := 1536

/-- What the submission of window q ends with. -/
def windowResult (q : Nat) (r : State × LaunchEnd) : State :=
  r.1.endWindow q (match r.2 with | .result n => n | .enqueued _ => 0 | .park _ => 3)

/-- A busy window is judged and its launch enqueued (R451, R464): without a granted context the result is 1; a header in a peer window is
read by a request first. -/
def State.judge (s : State) (q : Nat) : State :=
  let w := s.window q
  let f := s.rungFields w
  let params := fun (n : Nat) => (List.range n).map f.2.2
  match s.queueOwner q with
  | none => s.endWindow q 1
  | some slot => match w.header64 with
    | some none => s.endWindow q 3
    | some (some v) => match (s.ctx slot).launchQueue f.2.1 w.rung.1.toNat (some q) with
      | none => s.endWindow q 1
      | some q' => windowResult q (s.launchHeader slot w.rung.1.toNat q' v f.2.1 8 params (.host q))
    | none =>
      if s.asking q then s
      else match (s.ctx slot).launchQueue f.2.1 f.1.toNat (some q), s.locate slot 0 .read f.1.toNat 8 with
        | some _, .ok (.peer m a) => (s.setWindow q { w with rung := (f.1, w.rung.2) }).askHeader windowCore q slot f.1.toNat m a
        | _, _ => windowResult q (s.launchAs slot f.1.toNat f.2.1 (some q) 8 params (.host q) 0 0 true)

/-- Every busy window is judged. -/
def State.judgeWindows (s : State) : State :=
  (s.host.windows.filter fun (e : Nat × Window) => e.2.busy).foldl (fun (s : State) e => s.judge e.1) s

/-- A write through BAR 4 (R450). -/
def State.writeLaunch (s : State) (off : Nat) (value : W64) : State :=
  let q := off / 4096
  let w := s.window q
  if 64 ≤ q ∨ off % 8 ≠ 0 then s
  else match off % 4096 with
    | 0x000 => s.setWindow q { w with header := value }
    | 0x008 => s.setWindow q { w with launch := value }
    | 0x080 => s.ring q
    | o => if 0x010 ≤ o ∧ o < 0x050 then s.setWindow q { w with params := FMap.set 0 w.params ((o - 0x010) / 8) value } else s

/-- REGISTER_WRITE (R13, R449, R450, R452): port 0 is the host, 1 and 2 are the management ports. -/
def execRegisterWrite (port : Nat) (window : CtrlWindow) (offset : Nat) (value : W64) (s : State) : Result :=
  eventAlways s fun s => match window with
    | .control => s.writeFrom port offset value
    | .launch => if port = 0 ∧ s.running = true then s.writeLaunch offset value else s

end Sys2Proof.Machine
end

