-- ==== Sys2Proof/Machine/HostPort.lean ====
section
/-! DEFINITION. The host and management ports: far memory through BAR 2 (R448), doorbells (R451), MSI-X masks (R447), the
semaphore (R452), bring-up and attestation (R453 to R456), key slots (R457), power and temperature (R459, R460), and what else reaches
the module from outside. -/

namespace Sys2Proof.Machine

open Sys2Proof

/-! ### Far memory through BAR 2 (R448) -/

/-- Why a host access of n bytes at an offset fails: outside far memory, or an empty key slot (R331, R448). -/
def State.hostFails (s : State) (offset n : Nat) : Option Nat :=
  if 3 * 2 ^ 39 < offset + n then some 2 else if s.hasKey s.host.farwin.toNat then none else some 11

/-- Completer Abort with a violation-log entry whose bit 55 is set (R333, R448). -/
def State.abortHost (s : State) (offset detail access : Nat) : State :=
  (s.logViolation offset (violationWord 0 detail access s.module 0 0 0 true) 0).send (.hostAbort offset)

/-- HOST_FAR_READ (R448). A unit in uncorrectable error fails the read as any access (R351). -/
def execHostFarRead (offset n : Nat) (s : State) : Result :=
  event s fun s =>
    match s.hostFails offset n with
    | some d => s.abortHost offset d 0
    | none =>
      let p := Place.far offset s.host.farwin.toNat
      if s.isBad p n then s.countUncorrected.abortHost offset 4 0
      else s.send (.hostRead offset (some (bytesOf (s.readPlace p n) n)))

/-- HOST_FAR_WRITE (R448). -/
def execHostFarWrite (offset : Nat) (bytes : List W8) (s : State) : Result :=
  event s fun s =>
    match s.hostFails offset bytes.length with
    | some d => s.abortHost offset d 1
    | none => s.writePlace (.far offset s.host.farwin.toNat) bytes.length (ofBytes bytes)

/-! ### Doorbells and MSI-X -/

/-- DOORBELL (R451). -/
def execDoorbell (q : Nat) (s : State) : Result := event s fun s => s.ring q

/-- A vector's pending bit is sent once neither its mask nor the function's keeps it (R447). -/
def State.sendPending (s : State) (v : Nat) : State :=
  let h := s.host
  if FMap.get false h.pendingV v && FMap.get false h.unmasked v && !h.maskAll then
    State.send { s with host := { h with pendingV := FMap.set false h.pendingV v false } } (.msix v)
  else s

/-- A vector's mask bit is set or cleared (R447). -/
def State.maskVector (s : State) (v : Nat) (on : Bool) : State :=
  if 64 ≤ v then s else State.sendPending { s with host := { s.host with unmasked := FMap.set false s.host.unmasked v (!on) } } v

/-- The function mask is set or cleared (R447). -/
def State.maskFunction (s : State) (on : Bool) : State :=
  (List.range 64).foldl State.sendPending { s with host := { s.host with maskAll := on } }

/-- MSIX_UNMASK (R447): the vector's mask bit is cleared; one message is sent for a pending bit, unless the function is masked. -/
def execMsixUnmask (vector : Nat) (s : State) : Result := event s fun s => s.maskVector vector false

/-! ### The semaphore (R452) -/

/-- MGMTSEM_ACQUIRE (R452). -/
def execMgmtsemAcquire (port : Nat) (s : State) : Result := eventAlways s fun s => s.writeSem port 4

/-- MGMTSEM_RELEASE (R452). -/
def execMgmtsemRelease (port : Nat) (s : State) : Result := eventAlways s fun s => s.writeSem port 8

/-- The link of a management port goes down, or comes up again (R452). -/
def State.mgmtLink (s : State) (port : Nat) (up : Bool) : State :=
  let down := FMap.get 0 s.host.mgmtDown port
  { s with host := { s.host with mgmtDown := FMap.set 0 s.host.mgmtDown port (if up then 0 else if down = 0 then s.now + 1 else down) } }

/-- Cycles of a link's loss after which its port releases the semaphore (R452). -/
def lossCycles : Nat := 2100000000

/-- MGMT_LINK_LOSS_RELEASE (R452): a port whose link has been down for 2,100,000,000 cycles releases the semaphore. -/
def execMgmtLinkLossRelease (port : Nat) (s : State) : Result :=
  eventAlways s fun s =>
    let down := FMap.get 0 s.host.mgmtDown port
    if port ≠ 0 ∧ s.host.semOwner.toNat = port ∧ down ≠ 0 ∧ down - 1 + lossCycles ≤ s.now then
      { s with host := { s.host with semOwner := 0 } }
    else s

/-! ### Identity, attestation and bring-up -/

/-- IDENTITY (R456). -/
def execIdentity (port : Nat) (s : State) : Result :=
  eventAlways s fun s => if port = 1 ∨ port = 2 then s.send (.mgmtReply port Config.certificate) else s

/-- ATTEST (R456): the signature is over the digest of all that stands before it. -/
def execAttest (port : Nat) (nonce : BitVec 512) (s : State) : Result :=
  eventAlways s fun s =>
    if port ≠ 1 ∧ port ≠ 2 then s
    else
      let h := s.host
      let strapDigest := sha512 (bytesOf h.straps.toNat 8)
      let body := bytesOf nonce.toNat 64 ++ bytesOf Config.romDigest.toNat 64 ++ bytesOf h.fwDigest.toNat 64 ++ bytesOf strapDigest.toNat 64
        ++ bytesOf h.fwVersion.toNat 8 ++ bytesOf h.straps.toNat 8
      s.send (.attestation port nonce Config.romDigest h.fwDigest strapDigest h.fwVersion h.straps
        (Config.identitySign (sha512 body)))

/-- The pins that STRAPS latches (R453): its reserved bits read zero. -/
def latched (straps : W64) : W64 := straps &&& 0x3FEFFFF#64

/-- The ROM's judgement of a firmware image: 0, or the failure code of step 2 (R454, R455). -/
def firmwareCode (rollback : W64) (f : Firmware) : Nat :=
  let known := (List.range 3).any fun i => Config.fusedKey i == sha512 f.key && !Config.fusedRevoked i
  if !known || !rsaVerifies f.key (shaBytes f.image) f.signature then 1
  else if f.version < Config.fusedRollback ∨ f.version < rollback then 2
  else 0

/-- Bring-up from step 2 on with STRAPS as latched: a firmware image that the ROM refuses stops the module at step 2; otherwise it
comes to step 5. Far memory keeps its bytes, which no key slot opens any more (R454, R455). A temperature at or above its limits holds or
stops the module at once (R460). -/
def State.bringUp (s : State) (straps : W64) (firmware : Firmware) : State :=
  let code := firmwareCode s.host.rollback firmware
  State.judgeTemp <| if code ≠ 0 then
    { s with cycles := [], now := 0, cyc := {}
             host := { s.host with straps := straps, rststat := w64 (2 + 256 * code), frozen := false, powerOff := false } }
  else
    { State.reset with
      far := s.far, farZero := s.farZero, bad := s.bad.filter fun u => u % 2 == 1, images := s.images.map fun e => (e.1, e.2.taken)
      agenda := s.agenda, free := s.free, out := s.out
      host := { State.reset.host with
        straps := straps, rollback := s.host.rollback, fwVersion := firmware.version, fwDigest := sha512 firmware.image
        temp := s.host.temp, boundary := s.host.boundary, pins := s.host.pins, jtagIR := s.host.jtagIR } }

/-- BRING_UP (R454): RESET_N rises, and straps are latched; every die counter is zero. -/
def execBringUp (straps : W64) (firmware : Firmware) (s : State) : Result :=
  eventAlways s fun s => s.bringUp (latched straps) firmware

/-- A recovery image over PCIe: with boot value 1 a module that stopped at step 2 goes on with it (R453, R454). -/
def State.recover (s : State) (f : Firmware) : State :=
  if s.host.rststat.toNat % 256 = 2 ∧ bits s.host.straps.toNat 18 17 = 1 ∧ s.host.frozen = false then s.bringUp s.host.straps f else s

/-! ### Key slots (R457) -/

/-- KEY_LOAD (R457): a write of KEYCTL with op 1. -/
def execKeyLoad (port : Nat) (value : W64) (s : State) : Result :=
  event s fun s => if bits value.toNat 15 14 = 1 then s.writeFrom port 0x5000 value else s

/-- KEY_EMPTY (R457): a write of KEYCTL with op 2. -/
def execKeyEmpty (port : Nat) (value : W64) (s : State) : Result :=
  event s fun s => if bits value.toNat 15 14 = 2 then s.writeFrom port 0x5000 value else s

/-! ### Power and temperature -/

/-- POWER_CAP_THROTTLE (R459). -/
def execPowerCapThrottle (watts : Nat) (s : State) : Result :=
  event s fun s =>
    if s.host.powerCap.toNat < watts ∧ s.host.clockState.toNat < 2 then
      { s with host := { s.host with clockState := s.host.clockState + 1 } }
    else s

/-- The hottest die's temperature is t (R460). -/
def State.heat (s : State) (t : W8) : State := State.judgeTemp { s with host := { s.host with temp := t } }

/-- THERMAL_THROTTLE (R460): the temperature is at or above throttle. -/
def execThermalThrottle (temp : W8) (s : State) : Result := event s fun s => if temp < s.host.throttle then s else s.heat temp

/-- THERMAL_THROTTLE_RELEASE (R460): temp has fallen 5 °C below throttle; the hold is lifted. -/
def execThermalThrottleRelease (temp : W8) (s : State) : Result :=
  event s fun s => if s.host.throttled && decide (temp.toNat + 5 ≤ s.host.throttle.toNat) then s.heat temp else s

/-- THERMAL_TRIP (R460): the temperature is at or above trip, also of a module that is frozen or still comes up. -/
def execThermalTrip (temp : W8) (s : State) : Result := eventAlways s fun s => if temp < s.host.trip then s else s.heat temp

/-! ### What else reaches the module from outside -/

/-- A corrected soft error is counted (R351, R458). -/
def State.countCorrected (s : State) : State :=
  { s with host := { s.host with eccCorrected := BitVec.ofNat 32 (satAdd (2 ^ 32 - 1) s.host.eccCorrected.toNat 1) } }

/-- A lane of a live team that has not exited becomes what f makes of it. -/
def State.strike (s : State) (t k l : Nat) (f : Lane → Lane) : State :=
  let x := (s.party t k).lane l
  if (s.team t).live = false ∨ x.exited = true then s else s.setLane t k l (f x)

/-- What reaches the module from outside by no row of the opcode table; units and streams of other modules apart. -/
def State.suffer (s : State) (o : Outside) : State :=
  match o with
  | .softError => s.countCorrected
  | .upset u => if s.bad.contains u then s else { s with bad := u :: s.bad }
  | .upsetReg t k l r => s.strike t k l fun x => if x.bad.contains r then x else { x with bad := r :: x.bad }
  | .upsetStack t k l => s.strike t k l fun x => { x with stackBad := !x.stack.isEmpty }
  | .upsetTile t n =>
    let T := s.team t
    let tile : Tile := FMap.get {} T.tiles n
    if tile.allocated then s.setTeam t { T with tiles := FMap.set {} T.tiles n { tile with bad := true } } else s
  | .upsetBank t k one =>
    let P := s.party t k
    if (s.team t).live = false ∨ P.seq = false then s
    else s.setParty t k (if one then { P with w1 := { P.w1 with bad := P.w1.loaded } } else { P with w0 := { P.w0 with bad := P.w0.loaded } })
  | .msixMaskAll on => s.maskFunction on
  | .msixMask v => s.maskVector v true
  | .mgmtLink port up => s.mgmtLink port up
  | .rollback v => { s with host := { s.host with rollback := if s.host.rollback < v then v else s.host.rollback } }
  | .recovery f => s.recover f
  | .temperature t => s.heat t
  | .unit .. | .stream .. => s

end Sys2Proof.Machine
end

