-- ==== Sys2Proof/Machine/LaneInt.lean ====
section
/-! DEFINITION. Integer lane words, majors 0x00 to 0x0F (R54 to R59). -/

namespace Sys2Proof.Machine

open Sys2Proof

/-- An exact integer clamped to .s32 (R54). -/
def satS32 (z : Int) : W32 := BitVec.ofInt 32 (max (-(2 ^ 31)) (min (2 ^ 31 - 1) z))
/-- An exact integer clamped to .n32 (R54). -/
def satN32 (z : Int) : W32 := BitVec.ofInt 32 (max 0 (min (2 ^ 32 - 1) z))

/-- The 32-bit forms of `add` and `sub`: wrap, sat.s32 and sat.n32 of an exact operation (R54). -/
def addForm (m : BitVec 2) (op : Int → Int → Int) (x y : W32) : W32 :=
  if m = 2 then satS32 (op x.toInt y.toInt)
  else if m = 3 then satN32 (op x.toNat y.toNat)
  else BitVec.ofInt 32 (op x.toNat y.toNat)

/-- ADD (R54). -/
def execAdd (d a b : BitVec 7) (m st : BitVec 2) (s : State) : Result :=
  gate (.add d a b m st) s fun s =>
    if m = 1 then s.lane64 d fun l x => s.look64 l x a + s.look64 l x b
    else s.lane32 d fun l x => addForm m (· + ·) (s.look l x a) (s.look l x b)

/-- SUB (R54). -/
def execSub (d a b : BitVec 7) (m st : BitVec 2) (s : State) : Result :=
  gate (.sub d a b m st) s fun s =>
    if m = 1 then s.lane64 d fun l x => s.look64 l x a - s.look64 l x b
    else s.lane32 d fun l x => addForm m (· - ·) (s.look l x a) (s.look l x b)

/-- MUL (R54): low half, high half of the signed or unsigned product, or low 64 bits of pairs. -/
def execMul (d a b : BitVec 7) (m st : BitVec 2) (s : State) : Result :=
  gate (.mul d a b m st) s fun s =>
    if m = 3 then s.lane64 d fun l x => s.look64 l x a * s.look64 l x b
    else s.lane32 d fun l x =>
      let p := s.look l x a
      let q := s.look l x b
      if m = 1 then BitVec.ofInt 32 (p.toInt * q.toInt / 2 ^ 32)
      else if m = 2 then BitVec.ofNat 32 (p.toNat * q.toNat / 2 ^ 32)
      else p * q

/-- MAD (R54): 32-bit, pairs, or a wide product added to the vd pair. -/
def execMad (d a b : BitVec 7) (m st : BitVec 2) (s : State) : Result :=
  gate (.mad d a b m st) s fun s =>
    if m = 0 then s.lane32 d fun l x => s.look l x d + s.look l x a * s.look l x b
    else s.lane64 d fun l x =>
      s.look64 l x d +
        (if m = 1 then s.look64 l x a * s.look64 l x b
         else if m = 2 then (s.look l x a).signExtend 64 * (s.look l x b).signExtend 64
         else (s.look l x a).setWidth 64 * (s.look l x b).setWidth 64)

/-- AND (R55). -/
def execAnd (d a b : BitVec 7) (st : BitVec 2) (s : State) : Result :=
  gate (.and d a b st) s fun s => s.lane32 d fun l x => s.look l x a &&& s.look l x b

/-- OR (R55). -/
def execOr (d a b : BitVec 7) (st : BitVec 2) (s : State) : Result :=
  gate (.or d a b st) s fun s => s.lane32 d fun l x => s.look l x a ||| s.look l x b

/-- XOR (R55). -/
def execXor (d a b : BitVec 7) (st : BitVec 2) (s : State) : Result :=
  gate (.xor d a b st) s fun s => s.lane32 d fun l x => s.look l x a ^^^ s.look l x b

/-- ANDN (R55): va AND NOT vb. -/
def execAndn (d a b : BitVec 7) (st : BitVec 2) (s : State) : Result :=
  gate (.andn d a b st) s fun s => s.lane32 d fun l x => s.look l x a &&& ~~~(s.look l x b)

/-- The shift amount vb[4:0] (R55). -/
def amount (x : W32) : Nat := x.toNat % 32

/-- SHL (R55). -/
def execShl (d a b : BitVec 7) (st : BitVec 2) (s : State) : Result :=
  gate (.shl d a b st) s fun s => s.lane32 d fun l x => s.look l x a <<< amount (s.look l x b)

/-- SHR (R55). -/
def execShr (d a b : BitVec 7) (st : BitVec 2) (s : State) : Result :=
  gate (.shr d a b st) s fun s => s.lane32 d fun l x => s.look l x a >>> amount (s.look l x b)

/-- SAR (R55). -/
def execSar (d a b : BitVec 7) (st : BitVec 2) (s : State) : Result :=
  gate (.sar d a b st) s fun s => s.lane32 d fun l x => (s.look l x a).sshiftRight (amount (s.look l x b))

/-- ROT (R55). -/
def execRot (d a b : BitVec 7) (st : BitVec 2) (s : State) : Result :=
  gate (.rot d a b st) s fun s => s.lane32 d fun l x => (s.look l x a).rotateLeft (amount (s.look l x b))

/-- MIN (R55). -/
def execMin (d a b : BitVec 7) (st : BitVec 2) (s : State) : Result :=
  gate (.min d a b st) s fun s => s.lane32 d fun l x =>
    if (s.look l x a).toInt ≤ (s.look l x b).toInt then s.look l x a else s.look l x b

/-- MAX (R55). -/
def execMax (d a b : BitVec 7) (st : BitVec 2) (s : State) : Result :=
  gate (.max d a b st) s fun s => s.lane32 d fun l x =>
    if (s.look l x a).toInt ≤ (s.look l x b).toInt then s.look l x b else s.look l x a

/-- An operand of `cmp` read as its type (R56). -/
def State.cmpOperand (s : State) (t : BitVec 2) (l : Nat) (x : Lane) (n : BitVec 7) : Int :=
  if t = 0 then (s.look l x n).toInt else if t = 1 then (s.look l x n).toNat
  else if t = 2 then (s.look64 l x n).toInt else (s.look64 l x n).toNat

/-- CMP (R56). -/
def execCmp (d a b : BitVec 7) (t st : BitVec 2) (s : State) : Result :=
  gate (.cmp d a b t st) s fun s => s.laneFlag (d.toNat % 4) fun l x =>
    combineFlag (d.toNat / 32) (x.rdFlag s.free l (d.toNat % 4))
      (relation (d.toNat / 4 % 8) (s.cmpOperand t l x a) (s.cmpOperand t l x b))

/-- SEL (R57). -/
def execSel (d a b : BitVec 7) (n st : BitVec 2) (s : State) : Result :=
  gate (.sel d a b n st) s fun s => s.lane32 d fun l x =>
    if x.rdFlag s.free l n.toNat then s.look l x a else s.look l x b

/-- Set bits among the lowest n. -/
def popCount (v : Nat) : Nat → Nat
  | 0 => 0
  | n + 1 => v / 2 ^ n % 2 + popCount v n

/-- Bit i goes to bit n − 1 − i. -/
def reverseBits (v : Nat) : Nat → Nat
  | 0 => 0
  | n + 1 => v % 2 * 2 ^ n + reverseBits (v / 2) n

/-- POPC (R55). -/
def execPopc (d a : BitVec 7) (st : BitVec 2) (s : State) : Result :=
  gate (.popc d a st) s fun s => s.lane32 d fun l x => w32 (popCount (s.look l x a).toNat 32)

/-- CLZ (R55). -/
def execClz (d a : BitVec 7) (st : BitVec 2) (s : State) : Result :=
  gate (.clz d a st) s fun s => s.lane32 d fun l x =>
    if s.look l x a = 0 then 32 else w32 (31 - Nat.log2 (s.look l x a).toNat)

/-- BREV (R55). -/
def execBrev (d a : BitVec 7) (st : BitVec 2) (s : State) : Result :=
  gate (.brev d a st) s fun s => s.lane32 d fun l x => w32 (reverseBits (s.look l x a).toNat 32)

/-- BFE (R55): n = min(vb[13:8], 32) bits of va from bit vb[4:0]. -/
def execBfe (d a b : BitVec 7) (st : BitVec 2) (s : State) : Result :=
  gate (.bfe d a b st) s fun s => s.lane32 d fun l x =>
    w32 ((s.look l x a).toNat / 2 ^ amount (s.look l x b) % 2 ^ Nat.min ((s.look l x b).toNat / 256 % 64) 32)

/-- MOV (R57). -/
def execMov (d a : BitVec 7) (st : BitVec 2) (s : State) : Result :=
  gate (.mov d a st) s fun s => s.lane32 d fun l x => s.look l x a

/-- MOVC (R57). -/
def execMovc (d : BitVec 7) (st : BitVec 2) (s : State) : Result :=
  gate (.movc d st) s fun s => s.lane32 d fun l x =>
    w32 (b2n (x.rdFlag s.free l 0) + 2 * b2n (x.rdFlag s.free l 1) + 4 * b2n (x.rdFlag s.free l 2) + 8 * b2n (x.rdFlag s.free l 3))

/-- ADDI (R58). -/
def execAddi (d a : BitVec 7) (i : BitVec 9) (st : BitVec 2) (s : State) : Result :=
  gate (.addi d a i st) s fun s => s.lane32 d fun l x => s.look l x a + i.signExtend 32

/-- ANDI (R58). -/
def execAndi (d a : BitVec 7) (i : BitVec 9) (st : BitVec 2) (s : State) : Result :=
  gate (.andi d a i st) s fun s => s.lane32 d fun l x => s.look l x a &&& i.signExtend 32

/-- SHLI (R58). -/
def execShli (d a : BitVec 7) (k : BitVec 5) (st : BitVec 2) (s : State) : Result :=
  gate (.shli d a k st) s fun s => s.lane32 d fun l x => s.look l x a <<< k.toNat

/-- SHRI (R58). -/
def execShri (d a : BitVec 7) (k : BitVec 5) (st : BitVec 2) (s : State) : Result :=
  gate (.shri d a k st) s fun s => s.lane32 d fun l x => s.look l x a >>> k.toNat

/-- SARI (R58). -/
def execSari (d a : BitVec 7) (k : BitVec 5) (st : BitVec 2) (s : State) : Result :=
  gate (.sari d a k st) s fun s => s.lane32 d fun l x => (s.look l x a).sshiftRight k.toNat

/-- LI (R59). -/
def execLi (d : BitVec 7) (i : BitVec 16) (st : BitVec 2) (s : State) : Result :=
  gate (.li d i st) s fun s => s.lane32 d fun _ _ => i.signExtend 32

/-- LIH (R59). -/
def execLih (d : BitVec 7) (i : BitVec 16) (st : BitVec 2) (s : State) : Result :=
  gate (.lih d i st) s fun s => s.lane32 d fun l x => i ++ (s.look l x d).setWidth 16

end Sys2Proof.Machine
end

