-- ==== Sys2Proof/Machine/Dispatch.lean ====
section
/-! DEFINITION. The one dispatch: each constructor of Instr to its meaning. -/

namespace Sys2Proof.Machine

open Sys2Proof

def exec (i : Instr) (s : State) : Host.Outcome State Fault Refusal :=
  match i with
  | .add d a b m st => Sys2Proof.Machine.execAdd d a b m st s
  | .sub d a b m st => Sys2Proof.Machine.execSub d a b m st s
  | .mul d a b m st => Sys2Proof.Machine.execMul d a b m st s
  | .mad d a b m st => Sys2Proof.Machine.execMad d a b m st s
  | .and d a b st => Sys2Proof.Machine.execAnd d a b st s
  | .or d a b st => Sys2Proof.Machine.execOr d a b st s
  | .xor d a b st => Sys2Proof.Machine.execXor d a b st s
  | .andn d a b st => Sys2Proof.Machine.execAndn d a b st s
  | .shl d a b st => Sys2Proof.Machine.execShl d a b st s
  | .shr d a b st => Sys2Proof.Machine.execShr d a b st s
  | .sar d a b st => Sys2Proof.Machine.execSar d a b st s
  | .rot d a b st => Sys2Proof.Machine.execRot d a b st s
  | .min d a b st => Sys2Proof.Machine.execMin d a b st s
  | .max d a b st => Sys2Proof.Machine.execMax d a b st s
  | .cmp d a b t st => Sys2Proof.Machine.execCmp d a b t st s
  | .sel d a b n st => Sys2Proof.Machine.execSel d a b n st s
  | .popc d a st => Sys2Proof.Machine.execPopc d a st s
  | .clz d a st => Sys2Proof.Machine.execClz d a st s
  | .brev d a st => Sys2Proof.Machine.execBrev d a st s
  | .bfe d a b st => Sys2Proof.Machine.execBfe d a b st s
  | .mov d a st => Sys2Proof.Machine.execMov d a st s
  | .movc d st => Sys2Proof.Machine.execMovc d st s
  | .addi d a im st => Sys2Proof.Machine.execAddi d a im st s
  | .andi d a im st => Sys2Proof.Machine.execAndi d a im st s
  | .shli d a k st => Sys2Proof.Machine.execShli d a k st s
  | .shri d a k st => Sys2Proof.Machine.execShri d a k st s
  | .sari d a k st => Sys2Proof.Machine.execSari d a k st s
  | .li d im st => Sys2Proof.Machine.execLi d im st s
  | .lih d im st => Sys2Proof.Machine.execLih d im st s
  | .fadd d a b t st => Sys2Proof.Machine.execFadd d a b t st s
  | .fsub d a b t st => Sys2Proof.Machine.execFsub d a b t st s
  | .fmul d a b t st => Sys2Proof.Machine.execFmul d a b t st s
  | .ffma d a b t st => Sys2Proof.Machine.execFfma d a b t st s
  | .fmin d a b t st => Sys2Proof.Machine.execFmin d a b t st s
  | .fmax d a b t st => Sys2Proof.Machine.execFmax d a b t st s
  | .fcmp d a b t st => Sys2Proof.Machine.execFcmp d a b t st s
  | .fsgn d a b m st => Sys2Proof.Machine.execFsgn d a b m st s
  | .cvtF d a c h t st => Sys2Proof.Machine.execCvtF d a c h t st s
  | .cvtFi d a c h st => Sys2Proof.Machine.execCvtFi d a c h st s
  | .cvtIf d a c h st => Sys2Proof.Machine.execCvtIf d a c h st s
  | .fclass d a t st => Sys2Proof.Machine.execFclass d a t st s
  | .rcp d a t st => Sys2Proof.Machine.execRcp d a t st s
  | .rsqrt d a t st => Sys2Proof.Machine.execRsqrt d a t st s
  | .sqrt d a t st => Sys2Proof.Machine.execSqrt d a t st s
  | .exp2 d a t st => Sys2Proof.Machine.execExp2 d a t st s
  | .log2 d a t st => Sys2Proof.Machine.execLog2 d a t st s
  | .sin d a st => Sys2Proof.Machine.execSin d a st s
  | .cos d a st => Sys2Proof.Machine.execCos d a st s
  | .tanh d a st => Sys2Proof.Machine.execTanh d a st s
  | .lgst d a st => Sys2Proof.Machine.execLgst d a st s
  | .shfl d a b m st => Sys2Proof.Machine.execShfl d a b m st s
  | .voteAny d c st => Sys2Proof.Machine.execVoteAny d c st s
  | .voteAll d c st => Sys2Proof.Machine.execVoteAll d c st s
  | .voteBallot d c st => Sys2Proof.Machine.execVoteBallot d c st s
  | .scan d a m st => Sys2Proof.Machine.execScan d a m st s
  | .matchLanes d a m st => Sys2Proof.Machine.execMatchLanes d a m st s
  | .elect d st => Sys2Proof.Machine.execElect d st s
  | .reds d a m st => Sys2Proof.Machine.execReds d a m st s
  | .redsAf d a b m st => Sys2Proof.Machine.execRedsAf d a b m st s
  | .redsInt d a o t st => Sys2Proof.Machine.execRedsInt d a o t st s
  | .bra c o st => Sys2Proof.Machine.execBra c o st s
  | .brx a st => Sys2Proof.Machine.execBrx a st s
  | .lpad k st => Sys2Proof.Machine.execLpad k st s
  | .call o st => Sys2Proof.Machine.execCall o st s
  | .ret st => Sys2Proof.Machine.execRet st s
  | .reconv k st => Sys2Proof.Machine.execReconv k st s
  | .exit st => Sys2Proof.Machine.execExit st s
  | .ldB d a b c o st => Sys2Proof.Machine.execLdB d a b c o st s
  | .ldH d a b c o st => Sys2Proof.Machine.execLdH d a b c o st s
  | .ldW d a b c o st => Sys2Proof.Machine.execLdW d a b c o st s
  | .ldD d a b c o st => Sys2Proof.Machine.execLdD d a b c o st s
  | .ldQ d a b c o st => Sys2Proof.Machine.execLdQ d a b c o st s
  | .stB d a b c o st => Sys2Proof.Machine.execStB d a b c o st s
  | .stH d a b c o st => Sys2Proof.Machine.execStH d a b c o st s
  | .stW d a b c o st => Sys2Proof.Machine.execStW d a b c o st s
  | .stD d a b c o st => Sys2Proof.Machine.execStD d a b c o st s
  | .stQ d a b c o st => Sys2Proof.Machine.execStQ d a b c o st s
  | .ldv d a b c o st => Sys2Proof.Machine.execLdv d a b c o st s
  | .ldvTag d a b c o st => Sys2Proof.Machine.execLdvTag d a b c o st s
  | .atom d a b c o st => Sys2Proof.Machine.execAtom d a b c o st s
  | .red d a b c o st => Sys2Proof.Machine.execRed d a b c o st s
  | .qopPop d a n st => Sys2Proof.Machine.execQopPop d a n st s
  | .qopPush d a n st => Sys2Proof.Machine.execQopPush d a n st s
  | .rand d a b im st => Sys2Proof.Machine.execRand d a b im st s
  | .tcon d a u t m st => Sys2Proof.Machine.execTcon d a u t m st s
  | .sadd d a b st => Sys2Proof.Machine.execSadd d a b st s
  | .ssub d a b st => Sys2Proof.Machine.execSsub d a b st s
  | .smul d a b m st => Sys2Proof.Machine.execSmul d a b m st s
  | .sand d a b st => Sys2Proof.Machine.execSand d a b st s
  | .sor d a b st => Sys2Proof.Machine.execSor d a b st s
  | .sxor d a b st => Sys2Proof.Machine.execSxor d a b st s
  | .sandn d a b st => Sys2Proof.Machine.execSandn d a b st s
  | .sshl d a b st => Sys2Proof.Machine.execSshl d a b st s
  | .sshr d a b st => Sys2Proof.Machine.execSshr d a b st s
  | .ssar d a b st => Sys2Proof.Machine.execSsar d a b st s
  | .smin d a b st => Sys2Proof.Machine.execSmin d a b st s
  | .smax d a b st => Sys2Proof.Machine.execSmax d a b st s
  | .scmp c a b t m st => Sys2Proof.Machine.execScmp c a b t m st s
  | .ssel d a b t n st => Sys2Proof.Machine.execSsel d a b t n st s
  | .saddi d a im st => Sys2Proof.Machine.execSaddi d a im st s
  | .sli d im st => Sys2Proof.Machine.execSli d im st s
  | .slik d k im st => Sys2Proof.Machine.execSlik d k im st s
  | .sld d a im st => Sys2Proof.Machine.execSld d a im st s
  | .sst d a im st => Sys2Proof.Machine.execSst d a im st s
  | .sbr c o st => Sys2Proof.Machine.execSbr c o st s
  | .sloop d im st => Sys2Proof.Machine.execSloop d im st s
  | .sjmp a st => Sys2Proof.Machine.execSjmp a st s
  | .clause n st => Sys2Proof.Machine.execClause n st s
  | .clend b w x y z st => Sys2Proof.Machine.execClend b w x y z st s
  | .mfsrUniform d r st => Sys2Proof.Machine.execMfsrUniform d r st s
  | .mfsrLane d h r st => Sys2Proof.Machine.execMfsrLane d h r st s
  | .mtsrUniform d r st => Sys2Proof.Machine.execMtsrUniform d r st s
  | .mtsrLane d h r st => Sys2Proof.Machine.execMtsrLane d h r st s
  | .wload d a b c w st => Sys2Proof.Machine.execWload d a b c w st s
  | .wswap st => Sys2Proof.Machine.execWswap st s
  | .mma h a b st => Sys2Proof.Machine.execMma h a b st s
  | .mmac h g b st => Sys2Proof.Machine.execMmac h g b st s
  | .accAlloc h n st => Sys2Proof.Machine.execAccAlloc h n st s
  | .accFree h n st => Sys2Proof.Machine.execAccFree h n st s
  | .accRd h a b z st => Sys2Proof.Machine.execAccRd h a b z st s
  | .accAnc h n b st => Sys2Proof.Machine.execAccAnc h n b st s
  | .accFlg d h c st => Sys2Proof.Machine.execAccFlg d h c st s
  | .tshape k a st => Sys2Proof.Machine.execTshape k a st s
  | .tld k a b st => Sys2Proof.Machine.execTld k a b st s
  | .tst k a b st => Sys2Proof.Machine.execTst k a b st s
  | .barInit k b p st => Sys2Proof.Machine.execBarInit k b p st s
  | .barArr k p st => Sys2Proof.Machine.execBarArr k p st s
  | .barWait k p st => Sys2Proof.Machine.execBarWait k p st s
  | .barAw k p st => Sys2Proof.Machine.execBarAw k p st s
  | .barTry k n b p st => Sys2Proof.Machine.execBarTry k n b p st s
  | .fence p o st => Sys2Proof.Machine.execFence p o st s
  | .ifence st => Sys2Proof.Machine.execIfence st s
  | .icinv a b st => Sys2Proof.Machine.execIcinv a b st s
  | .copy a b x y st => Sys2Proof.Machine.execCopy a b x y st s
  | .copyt a b t st => Sys2Proof.Machine.execCopyt a b t st s
  | .taskSub d a st => Sys2Proof.Machine.execTaskSub d a st s
  | .taskSigAdd a b st => Sys2Proof.Machine.execTaskSigAdd a b st s
  | .taskSigSet a b st => Sys2Proof.Machine.execTaskSigSet a b st s
  | .taskSigRd d a st => Sys2Proof.Machine.execTaskSigRd d a st s
  | .taskWait a st => Sys2Proof.Machine.execTaskWait a st s
  | .taskWaitTake a st => Sys2Proof.Machine.execTaskWaitTake a st s
  | .taskTry n a st => Sys2Proof.Machine.execTaskTry n a st s
  | .taskTryTake n a st => Sys2Proof.Machine.execTaskTryTake n a st s
  | .launch d a b st => Sys2Proof.Machine.execLaunch d a b st s
  | .replay n a b st => Sys2Proof.Machine.execReplay n a b st s
  | .stepEnter a st => Sys2Proof.Machine.execStepEnter a st s
  | .stepPub a st => Sys2Proof.Machine.execStepPub a st s
  | .verOpen a st => Sys2Proof.Machine.execVerOpen a st s
  | .ckptFreeze d a st => Sys2Proof.Machine.execCkptFreeze d a st s
  | .ckptStat d a st => Sys2Proof.Machine.execCkptStat d a st s
  | .collOpen d a st => Sys2Proof.Machine.execCollOpen d a st s
  | .collPut a b st => Sys2Proof.Machine.execCollPut a b st s
  | .collWait d a st => Sys2Proof.Machine.execCollWait d a st s
  | .collStat d a st => Sys2Proof.Machine.execCollStat d a st s
  | .tideRd d a m st => Sys2Proof.Machine.execTideRd d a m st s
  | .gauge a b st => Sys2Proof.Machine.execGauge a b st s
  | .patLd n a b st => Sys2Proof.Machine.execPatLd n a b st s
  | .patNext d st => Sys2Proof.Machine.execPatNext d st s
  | .patDone a st => Sys2Proof.Machine.execPatDone a st s
  | .stashPut d a st => Sys2Proof.Machine.execStashPut d a st s
  | .stashGet d a st => Sys2Proof.Machine.execStashGet d a st s
  | .stashFree a st => Sys2Proof.Machine.execStashFree a st s
  | .trap c k st => Sys2Proof.Machine.execTrap c k st s
  | .eret st => Sys2Proof.Machine.execEret st s
  | .brk c k st => Sys2Proof.Machine.execBrk c k st s
  | .halt st => Sys2Proof.Machine.execHalt st s
  | .map d a b st => Sys2Proof.Machine.execMap d a b st s
  | .unmap a b st => Sys2Proof.Machine.execUnmap a b st s
  | .tlbinv a b st => Sys2Proof.Machine.execTlbinv a b st s
  | .fqPop d n st => Sys2Proof.Machine.execFqPop d n st s
  | .resume a b st => Sys2Proof.Machine.execResume a b st s
  | .ctxSave a b st => Sys2Proof.Machine.execCtxSave a b st s
  | .ctxRest a b st => Sys2Proof.Machine.execCtxRest a b st s
  | .illegalInstruction detail => Sys2Proof.Machine.execIllegalInstruction detail s
  | .instructionFetchFault how addr => Sys2Proof.Machine.execInstructionFetchFault how addr s
  | .pendingRegisterWrite team party lane reg => Sys2Proof.Machine.execPendingRegisterWrite team party lane reg s
  | .barTryTimeout team party => Sys2Proof.Machine.execBarTryTimeout team party s
  | .teamPlace die => Sys2Proof.Machine.execTeamPlace die s
  | .dispatchSwap core => Sys2Proof.Machine.execDispatchSwap core s
  | .parkedShareSwitch slot core => Sys2Proof.Machine.execParkedShareSwitch slot core s
  | .engdrainExpiry team => Sys2Proof.Machine.execEngdrainExpiry team s
  | .teamRetire team => Sys2Proof.Machine.execTeamRetire team s
  | .taskStart task => Sys2Proof.Machine.execTaskStart task s
  | .jobComplete task => Sys2Proof.Machine.execJobComplete task s
  | .jobPark task => Sys2Proof.Machine.execJobPark task s
  | .replayInstanceStart inst => Sys2Proof.Machine.execReplayInstanceStart inst s
  | .contextTeardown slot => Sys2Proof.Machine.execContextTeardown slot s
  | .teamHalt team => Sys2Proof.Machine.execTeamHalt team s
  | .frameOpenRetry team party => Sys2Proof.Machine.execFrameOpenRetry team party s
  | .framePublish ring step => Sys2Proof.Machine.execFramePublish ring step s
  | .stalenessFault team party lane => Sys2Proof.Machine.execStalenessFault team party lane s
  | .wcbAgeDrain core => Sys2Proof.Machine.execWcbAgeDrain core s
  | .wcbFlush => Sys2Proof.Machine.execWcbFlush s
  | .peerRequestReceive r => Sys2Proof.Machine.execPeerRequestReceive r s
  | .peerResponseLand core module seq answer => Sys2Proof.Machine.execPeerResponseLand core module seq answer s
  | .peerAckLand core module seq err => Sys2Proof.Machine.execPeerAckLand core module seq err s
  | .linkReplay port => Sys2Proof.Machine.execLinkReplay port s
  | .linkRetrain port width => Sys2Proof.Machine.execLinkRetrain port width s
  | .moduleUnreachable module => Sys2Proof.Machine.execModuleUnreachable module s
  | .tideEnable value => Sys2Proof.Machine.execTideEnable value s
  | .tideBeaconSend => Sys2Proof.Machine.execTideBeaconSend s
  | .tideBeaconReceive module step => Sys2Proof.Machine.execTideBeaconReceive module step s
  | .tideLateExpiry entry => Sys2Proof.Machine.execTideLateExpiry entry s
  | .tideAbsentExpiry entry => Sys2Proof.Machine.execTideAbsentExpiry entry s
  | .collContributionArrival handle chunk k => Sys2Proof.Machine.execCollContributionArrival handle chunk k s
  | .collTimerClose handle chunk => Sys2Proof.Machine.execCollTimerClose handle chunk s
  | .collCloseReceive handle k => Sys2Proof.Machine.execCollCloseReceive handle k s
  | .gaugeDigestReceive handle step member digest => Sys2Proof.Machine.execGaugeDigestReceive handle step member digest s
  | .partialArrival handle chunk k => Sys2Proof.Machine.execPartialArrival handle chunk k s
  | .combineWindowExpiry handle chunk step => Sys2Proof.Machine.execCombineWindowExpiry handle chunk step s
  | .ckptDrainEnd ckpt failed => Sys2Proof.Machine.execCkptDrainEnd ckpt failed s
  | .patternSignalReceive asid index => Sys2Proof.Machine.execPatternSignalReceive asid index s
  | .creditReceive asid => Sys2Proof.Machine.execCreditReceive asid s
  | .patternHandout => Sys2Proof.Machine.execPatternHandout s
  | .patcfgEnable value => Sys2Proof.Machine.execPatcfgEnable value s
  | .patcfgDisable value => Sys2Proof.Machine.execPatcfgDisable value s
  | .sampleTick => Sys2Proof.Machine.execSampleTick s
  | .traceFrameSend die => Sys2Proof.Machine.execTraceFrameSend die s
  | .traceOverflowRecord die => Sys2Proof.Machine.execTraceOverflowRecord die s
  | .debugHalt value => Sys2Proof.Machine.execDebugHalt value s
  | .debugRelease value => Sys2Proof.Machine.execDebugRelease value s
  | .dbgdataRead => Sys2Proof.Machine.execDbgdataRead s
  | .dbgdataWrite value => Sys2Proof.Machine.execDbgdataWrite value s
  | .freezePin => Sys2Proof.Machine.execFreezePin s
  | .mgmtFreeze port => Sys2Proof.Machine.execMgmtFreeze port s
  | .jtagExtest bits => Sys2Proof.Machine.execJtagExtest bits s
  | .jtagIdcode => Sys2Proof.Machine.execJtagIdcode s
  | .jtagSamplePreload bits => Sys2Proof.Machine.execJtagSamplePreload bits s
  | .jtagFreeze bit => Sys2Proof.Machine.execJtagFreeze bit s
  | .jtagDsel value => Sys2Proof.Machine.execJtagDsel value s
  | .jtagDdata value => Sys2Proof.Machine.execJtagDdata value s
  | .jtagBypass bit => Sys2Proof.Machine.execJtagBypass bit s
  | .hostFarRead offset n => Sys2Proof.Machine.execHostFarRead offset n s
  | .hostFarWrite offset bytes => Sys2Proof.Machine.execHostFarWrite offset bytes s
  | .doorbell q => Sys2Proof.Machine.execDoorbell q s
  | .msixUnmask vector => Sys2Proof.Machine.execMsixUnmask vector s
  | .mgmtsemAcquire port => Sys2Proof.Machine.execMgmtsemAcquire port s
  | .mgmtsemRelease port => Sys2Proof.Machine.execMgmtsemRelease port s
  | .mgmtLinkLossRelease port => Sys2Proof.Machine.execMgmtLinkLossRelease port s
  | .identity port => Sys2Proof.Machine.execIdentity port s
  | .attest port nonce => Sys2Proof.Machine.execAttest port nonce s
  | .bringUp straps firmware => Sys2Proof.Machine.execBringUp straps firmware s
  | .keyLoad port value => Sys2Proof.Machine.execKeyLoad port value s
  | .keyEmpty port value => Sys2Proof.Machine.execKeyEmpty port value s
  | .powerCapThrottle watts => Sys2Proof.Machine.execPowerCapThrottle watts s
  | .thermalThrottle temp => Sys2Proof.Machine.execThermalThrottle temp s
  | .thermalTrip temp => Sys2Proof.Machine.execThermalTrip temp s
  | .registerWrite port window offset value => Sys2Proof.Machine.execRegisterWrite port window offset value s
  | .longWordUnitComplete team party => Sys2Proof.Machine.execLongWordUnitComplete team party s
  | .endToEndAckReceive module number => Sys2Proof.Machine.execEndToEndAckReceive module number s
  | .thermalThrottleRelease temp => Sys2Proof.Machine.execThermalThrottleRelease temp s

end Sys2Proof.Machine
end

