-- ==== Sys2Proof/Machine/Turns.lean ====
section
/-! DEFINITION. What one step does: a turn that the agenda names, or the next turn of a fixed rotation; fetching, decoding and
running a word for the lanes that issue it (R14, R33, R93, R200, R206); the passing of a cycle; and the machine events that the
device itself raises. The order of turns is timing-dependent (R11): the agenda holds it as data. -/

namespace Sys2Proof.Machine

open Sys2Proof

/-! ### Time -/

/-- From when each party has had a run to issue, by which a port chooses (R206). -/
def State.noteReady (s : State) : State :=
  s.teams.foldl (fun (s : State) e => e.2.parties.foldl (fun (s : State) p =>
    let since := if (s.nextRun e.1 p.1).isEmpty then none else p.2.since.or (some s.now)
    if since = p.2.since then s else s.setParty e.1 p.1 { s.party e.1 p.1 with since := since }) s) s

/-- What is still to be done in a cycle that ends: each `resume` acts on what has parked since (R190), samples are taken (R436), and busy
launch windows are judged (R451). -/
def State.endCycle (s : State) : State := s.resumeAgain.takeSamples.judgeWindows

/-- One cycle passes: every die's counter rises (R132), bounds of `bar.try` pass (R300), and the bubble counters rise (R401). -/
def State.tick (s : State) : State :=
  let s := s.endCycle
  State.noteReady (State.countBubble <| State.expireTries { s with
    now := s.now + 1
    cyc := {}
    cycles := (List.range 8).foldl (fun (m : FMap W64) d => FMap.set 0 m d (FMap.get 0 m d + 1)) s.cycles })

/-- What holds after every turn: the debugger's writes to teams that have been released are in effect (R434), and pre-empted teams that
can be saved are saved (R218). -/
def Result.finish (r : Result) : Result :=
  match r with
  | .next s => .next (if s.running then s.applyAllEdits.finishSaves else s.applyAllEdits)
  | r => r

/-! ### Ports (R206) -/

/-- Party k of team t cannot issue in what is left of this cycle: its port is taken, or the word of the party that its port takes
would come too late. -/
def State.barred (s : State) (t k : Nat) : Bool :=
  let p := s.chosen t k
  !(s.nextRun t k).isEmpty && (!s.portFree t k || (match s.nextWord p.1 p.2 with
    | some i => s.tooLate i (s.party p.1 p.2).core p.2
    | none => decide (5 ≤ s.cyc.rank)))

/-- A cycle passes if party k of team t is barred. -/
def State.passBarred (s : State) (t k : Nat) : State := if s.barred t k then s.tick else s

/-! ### Words -/

/-- Party k of team t issues the word at which the lanes `ls` stand, or meets what stands in its place (R33, R93). -/
def State.runLanes (s : State) (t k : Nat) (ls serve : List Nat) : Result :=
  let pc := ((s.party t k).lane (ls.head?.getD 0)).pc
  let s := { s with cur := { team := t, party := k, lanes := ls, serve := serve } }
  match s.fetchWord t k pc.toNat with
  | .error f => exec (.instructionFetchFault f pc) s
  | .ok w =>
    let s := s.keepWord t k pc.toNat w
    match decode (w32 w) with
    | .error r => exec (.illegalInstruction r.detail) s
    | .ok i => exec i s

/-- A turn of party k of team t; nothing when no lane of it is eligible (R200). -/
def State.issueTurn (s : State) (t k : Nat) (serve : List Nat) : Result :=
  let ls := s.nextRun t k
  if ls.isEmpty then .next s
  else match (s.claim t k).runLanes t k ls serve with
    | .next s' => .next (if (s'.party t k).lastIssue = s.now then s'.busyNow t else s')
    | r => r

/-- A turn of the port of party k of team t, once it may issue: at most two cycles pass first. -/
def State.portTurn (s : State) (t k : Nat) (serve : List Nat) : Result :=
  let s := (s.passBarred t k).passBarred t k
  s.issueTurn (s.chosen t k).1 (s.chosen t k).2 serve

/-! ### Events of the device itself -/

/-- Machine events, which run for no issuing party. -/
def isEvent (i : Instr) : Bool :=
  match i with
  | .illegalInstruction _ | .instructionFetchFault _ _ => false
  | i => familyOf i == .event

/-- Events that a team may raise. -/
def State.teamEvents (s : State) (t : Nat) (T : Team) : List Instr :=
  (match T.halt with
    | .skid _ since => if since < s.now then [Instr.teamHalt t] else []
    | .debugSkid since => if since < s.now then [Instr.teamHalt t] else []
    | _ => []) ++ [Instr.teamRetire t] ++ (if T.drainFrom.isSome then [Instr.engdrainExpiry t] else [])
  ++ T.parties.flatMap fun e =>
    [Instr.barTryTimeout t e.1, Instr.frameOpenRetry t e.1]
    ++ (e.2.active.flatMap fun l => Instr.stalenessFault t e.1 l ::
      (((e.2.lane l).pend.filter fun q => q.exported && (q.tag == 0 || q.written)).map fun q => Instr.pendingRegisterWrite t e.1 l q.reg))

/-- Events that the task unit may raise. -/
def State.taskEvents (s : State) : List Instr :=
  (s.tasks.flatMap fun k => match k.state with
    | .ready => [Instr.taskStart k.n]
    | .running => [Instr.jobComplete k.n, Instr.jobPark k.n]
    | _ => []) ++ s.instances.map fun x => Instr.replayInstanceStart x.order

/-- Events that the cores, the dispatcher and the trace buffers may raise. -/
def State.coreEvents (s : State) : List Instr :=
  let cores := dedup ((s.teams.filter fun e => e.2.live && e.2.resident).map fun e => e.2.core)
  ((List.range 8).map fun d => Instr.teamPlace d)
  ++ (cores.flatMap fun c => Instr.dispatchSwap c :: s.ctxs.map fun e => Instr.parkedShareSwitch e.1 c)
  ++ (s.cores.map fun e => Instr.wcbAgeDrain e.1)
  ++ (s.dbg.dies.flatMap fun e => [Instr.traceOverflowRecord e.1, Instr.traceFrameSend e.1])
  ++ [Instr.mgmtLinkLossRelease 1, Instr.mgmtLinkLossRelease 2]

/-- Events that steps, versions, collectives, checkpoints and the pattern may raise. -/
def State.jobEvents (s : State) : List Instr :=
  (s.publishing.map fun e => Instr.framePublish e.1 e.2) ++ [Instr.patternHandout, Instr.tideBeaconSend]
  ++ (s.tide.entries.flatMap fun e => [Instr.tideLateExpiry e.1, Instr.tideAbsentExpiry e.1])
  ++ (s.colls.flatMap fun e => e.2.owned.map fun c => Instr.collTimerClose e.1 c.1)
  ++ (s.fab.combining.map fun w => Instr.combineWindowExpiry w.handle w.chunk w.step)
  ++ (s.routed.map Instr.moduleUnreachable)
  ++ (s.ckpts.filter fun e => e.2.state == 1).map fun e => Instr.ckptDrainEnd e.1 false

/-- The first event of the device itself that changes something now. -/
def State.ownEvent (s : State) : Option Instr :=
  ((s.teams.flatMap fun e => s.teamEvents e.1 e.2) ++ s.taskEvents ++ s.coreEvents ++ s.jobEvents).find? fun i =>
    match exec i s with
    | .next s' => ({ s' with free := s.free } : State) != s
    | _ => false

/-! ### Turns -/

/-- A machine event; a cycle passes first when it would come too late in this one. -/
def State.eventTurn (s : State) (i : Instr) : Result :=
  let s := if s.running && s.tooLate i 0 0 then s.tick else s
  exec i (s.noteRank i 0 0)

/-- Events by which a message or a bulk unit is delivered (R411, R413). -/
def isDelivery (i : Instr) : Bool :=
  match i with
  | .tideBeaconReceive .. | .patternSignalReceive .. | .creditReceive _ | .collContributionArrival .. | .partialArrival ..
  | .collCloseReceive .. | .gaugeDigestReceive .. => true
  | _ => false

/-- What the module keeps of the messages and bulk units of a source module. -/
def State.inboundOf (s : State) (m : Nat) : Inbound := FMap.get {} s.fab.inbound m

/-- Writes it. -/
def State.setInbound (s : State) (m : Nat) (b : Inbound) : State :=
  { s with fab := { s.fab with inbound := FMap.set {} s.fab.inbound m b } }

/-- A unit arrives: a duplicate is discarded, and any other stands in the reorder buffer until its turn (R413, R423). -/
def State.receiveUnit (s : State) (m n : Nat) (i : Instr) : State :=
  let b := s.inboundOf m
  if n < b.next ∨ b.ahead.any (fun e => e.1 == n) ∨ isDelivery i = false then s
  else s.setInbound m { b with ahead := b.ahead ++ [(n, i)] }

/-- A unit is delivered by its event; one that is not accepted is known by its number until it comes again (R373, R413). -/
def State.deliverUnit (s : State) (m n : Nat) (i : Instr) : Result :=
  let b := s.inboundOf m
  let rest := b.refused.filter (· != n)
  (s.setInbound m { b with refused := if s.refuses i then n :: rest else rest }).eventTurn i

/-- Units of a module whose turn has come are delivered in the order of their numbers (R413, R423). -/
def State.deliverUnits (s : State) (m : Nat) : Nat → Result
  | 0 => .next s
  | k + 1 =>
    let b := s.inboundOf m
    match b.ahead.find? fun e => e.1 == b.next with
    | none => .next s
    | some e => match (s.setInbound m { b with next := b.next + 1, ahead := b.ahead.filter fun q => q.1 != b.next }).deliverUnit m e.1 e.2 with
      | .next s => s.deliverUnits m k
      | r => r

/-- Bytes of another module's checkpoint stream are written once, under the context of their ASID; where one cannot be, the access is
refused as any other through the peer window (R329, R331, R384, R423). -/
def State.receiveStream (s : State) (m n : Nat) (asid : BitVec 16) (addr k v : Nat) : State :=
  let b := s.inboundOf m
  if b.streamed.contains n then s
  else
    let s := s.setInbound m { b with streamed := n :: b.streamed }
    let log := fun (s : State) (a : Nat) => s.logViolation a (violationWord asid 5 1 m 0 0 0 false) 0
    match s.slotOf asid with
    | none => log s addr
    | some slot => match s.writeAs slot addr k v k with
      | (s, none) => s
      | (s, some a) => log s a

/-- What comes from outside: a unit of another module, while the module runs, or anything else. -/
def State.outsideTurn (s : State) (o : Outside) : Result :=
  match o with
  | .unit m n i =>
    if !s.running then .next s
    else if (s.inboundOf m).refused.contains n then s.deliverUnit m n i
    else (s.receiveUnit m n i).deliverUnits m ((s.inboundOf m).ahead.length + 1)
  | .stream m n asid addr k v => .next (if s.running then s.receiveStream m n asid addr k v else s)
  | o => .next ({ s with free := s.free + 1 }.suffer o)

/-- The party that issues when no agenda names one: of those longest ready the next in rotation, or what its port takes instead. -/
def State.nextParty (s : State) : Option (Nat × Nat) :=
  let ps := s.longestReady s.readyParties
  ((ps.find? fun p => decide (s.cur.team < p.2.1) || (p.2.1 == s.cur.team && decide (s.cur.party < p.2.2))).or ps.head?).map
    fun p => s.chosen p.2.1 p.2.2

/-- A turn that no agenda names: a cycle passes; in even cycles an event of the device goes before a word, in odd cycles
behind. -/
def State.freeTurn (s : State) : Result :=
  let s := s.tick
  match (if s.now % 2 = 0 then s.ownEvent else none), s.nextParty with
  | some i, _ => s.eventTurn i
  | none, some p => s.issueTurn p.1 p.2 []
  | none, none => match s.ownEvent with
    | some i => s.eventTurn i
    | none => .next s

/-- One turn: the agenda's first, or the next in rotation. A frozen module, or one that has not come up, takes events from
outside alone (R443, R454). -/
def State.turn (s : State) : Result :=
  match s.agenda with
  | .event i :: rest =>
    let s := { s with agenda := rest }
    if isEvent i then s.eventTurn i else .next s
  | .outside o :: rest => { s with agenda := rest }.outsideTurn o
  | .issue t k serve same :: rest =>
    let s := { s with agenda := rest }
    if s.running then (if same then s else s.tick).portTurn t k serve else .next s
  | [] => if s.running then s.freeTurn else .next s

/-! ### A word put where the next step fetches -/

/-- Where the word is put: virtual and near physical address, and the three tables that map it (R324). -/
def wordAddr : Nat := 0x10000

/-- Lane 0 of a party at the word, which may issue from a cycle on. -/
def laneAtWord (ready : Nat) : Lane := { pc := w64 wordAddr, exited := false, ready := ready }

/-- A team of one strand and one sequencer context, each with lane 0 alone at the word, in context slot 0 at supervisor level;
party k may issue now, the other from the next cycle on. -/
def teamAtWord (k now : Nat) : Team :=
  let at_ := fun (j : Nat) => if j = k then 0 else now + 1
  { live := true, resident := true
    hdr := { entry := w64 wordAddr, seqentry := w64 wordAddr, width := 64, vregs := 120, seq := true }
    parties := [(0, { lanes := [(0, laneAtWord (at_ 0))], priv := true }),
      (64, { seq := true, order := 64, lanes := [(0, laneAtWord (at_ 64))], priv := true })] }

/-- Context slot 0 with the local window above its one page of 1 GiB, which maps near memory from NPA 0 (R324, R325, R348). -/
def ctxAtWord : Ctx := { resident := true, root := w64 (0x10 * 2 ^ 24 + 0x21), control := w64 (2 ^ 30 + 2 ^ 8) }

/-- The word stored at the place, with the tables, a context, a team and a turn for it; old copies of code and translations go. -/
def State.placeWord (s : State) (w : Nat) : State :=
  let k := match decode (w32 w) with
    | .ok i => if familyOf i == .seqU then 64 else 0
    | .error _ => 0
  let put := fun (s : State) (a v : Nat) => s.writePlace (.near a) 8 v
  let s := put (put (put (put s 0x1000 (0x20 * 2 ^ 24 + 0x21)) 0x2000 (0x30 * 2 ^ 24 + 0x21)) 0x3000 0xBE) wordAddr (w % 2 ^ 32)
  { ((s.setCtx 0 ctxAtWord).setTeam 0 (teamAtWord k s.now)).setCore 0 { s.core 0 with freeFrom := [] } with
    tlb := [], icache := [], agenda := .issue 0 k [] true :: s.agenda, cyc := {}
    host := { s.host with rststat := 5, frozen := false, powerOff := false } }

end Sys2Proof.Machine
end

