-- ==== Sys2Proof/Machine/Step.lean ====
section
/-! DEFINITION. One step of the machine, and a word put where the next step fetches it. -/

namespace Sys2Proof.Machine

open Sys2Proof

/-- One step: one turn, and what holds after every turn. -/
def step (s : State) : Host.Outcome State Fault Refusal := s.turn.finish

/-- The machine with an instruction of the table placed so that the next step fetches and runs exactly it. The module selects its
program through contexts, launches and turns, which this stands for (log 23). -/
def State.withFetchWord (s : State) (nbits w : Nat) : State := s.placeWord (w % 2 ^ nbits)

end Sys2Proof.Machine
end

