-- ==== Sys2Proof/Safety.lean ====
section
/-! DEFINITION. What claims about a word are stated in: the conditions under which a word completes with its own effect, the
state that its effect starts from, and what it leaves alone. -/

namespace Sys2Proof.Machine

open Sys2Proof

/-- The state in which a word is looked at: a handler's special-function results may be drained first (R341). -/
def State.looked (s : State) (i : Instr) : State := s.begin.drainFor (s.uses i)

/-- The state that the word's own effect starts from: exported registers that it names are written (R130), and a release of
system scope has drained its lines (R288, R419). -/
def State.before (s : State) (i : Instr) : State :=
  let b := (s.looked i).mapLanes fun _ x => x.prepare i ((s.looked i).uses i)
  if systemRelease i then b.releaseSystem else b

/-- The team is in no skid (R338, R433). -/
def Halt.calm : Halt → Bool
  | .skid _ _ | .debugSkid _ => false
  | _ => true

/-- The word completes with its own effect: a live resident team's lanes issue it, no breakpoint stands at it (R430), R33 finds no cause for
the word or a lane, no error response, undersized read under check or uncorrectable register is due (R211, R351, R461), no peer owes an
exported register that it names (R130), its team is in no skid (R338), no full trace buffer holds it (R440), and a release of system scope
has nothing to wait for (R419). -/
structure State.Ready (s : State) (i : Instr) : Prop where
  issuing : s.issuing = true
  unbroken : ∀ l ∈ s.cur.lanes, s.breakAt l = none
  allowed : (s.looked i).wordDetail i ((s.looked i).uses i) = none
  clean : ∀ l ∈ s.cur.lanes, (s.looked i).laneCause i ((s.looked i).uses i) l = none
  exported : (s.looked i).owedExports ((s.looked i).uses i) = []
  calm : s.curTeam.halt.calm = true
  untraced : s.dbg.trcStall = false
  drained : systemRelease i = true → ((s.before i).curParty.lane (s.before i).firstLane).wait ≠ .release

/-- The bits of a special register that a program writes and that then read as written (R132); none for any other register. -/
def specialKept (n : Nat) : Option W64 :=
  match n with
  | 9 => some 7
  | 11 => some 0xFFFFFFFF
  | 12 => some 0xF0FFFFFFFFFFFFFF
  | 14 => some 1
  | _ => none

/-- What the word's lanes count once its effect is done (R17, R201, R212). -/
def State.after (s : State) (i : Instr) (r : State) : State := r.settle i ((s.looked i).uses i) (s.before i)

/-- What the lanes of an `eret` count once it has left a handler (R17, R53, R187). -/
def State.returned (s : State) (i : Instr) (r : State) : State :=
  if (s.before i).curParty.save.isSome then r.settleReturn i (s.before i) else r

/-- Beside the lanes and uniform registers of the issuing party, nothing has changed: the memories, every table of the device,
the other teams, the other parties of the team, and of team and party all but when they last issued and the bytes fetched for
the word. A lane that did not issue counts the word (R201). -/
structure State.Kept (b t : State) : Prop where
  rest : { t with teams := b.teams } = b
  others : ∀ j, j ≠ b.cur.team → t.team j = b.team j
  team : { t.curTeam with parties := b.curTeam.parties, lastIssue := b.curTeam.lastIssue, swapIn := b.curTeam.swapIn } = b.curTeam
  parties : ∀ k, k ≠ b.cur.party → t.party b.cur.team k = b.party b.cur.team k
  party : { t.curParty with
      lanes := b.curParty.lanes, s := b.curParty.s, lastIssue := b.curParty.lastIssue, peerBuf := b.curParty.peerBuf
      refused := b.curParty.refused } = b.curParty
  idle : ∀ l, l ∉ b.cur.lanes → { t.curParty.lane l with skipped := (b.curParty.lane l).skipped } = b.curParty.lane l

/-- Lane y is lane x past the word i, at no incomplete word: nothing but its lane registers, temporaries, flags, sr.fflags, program
counter, stall count and scoreboard has changed, and a register in error that the word wrote is sound again (R17, R201, R212, R351, R432). -/
structure Lane.Past (b : State) (i : Instr) (pc : W64) (x y : Lane) : Prop where
  rest : { y with v := x.v, t := x.t, c := x.c, fflags := x.fflags, pc := x.pc, wait := x.wait, marked := x.marked, ready := x.ready
                  pend := x.pend, skipped := x.skipped, pass := x.pass, lastPc := x.lastPc, bad := x.bad, unit := x.unit, units := x.units
                  tiles := x.tiles, staleCount := x.staleCount, staleSince := x.staleSince } = x
  pc : y.pc = pc
  units : y.unit = 0 ∧ y.units = 0 ∧ y.tiles = []
  wait : y.wait = .none
  ready : y.ready = b.now + weight (x.stall i)
  lastPc : y.lastPc = x.pc

/-! ### What a lane word writes -/

/-- The lane registers and temporaries, the flag, and the bits of sr.fflags that a word writes in one lane. -/
structure Write where
  regs : List (Nat × W32) := []
  flag : Option (Nat × Bool) := none
  raised : BitVec 5 := 0

/-- A write of one register. -/
def Write.one (d : BitVec 7) (x : W32) : Write := { regs := [(d.toNat, x)] }
/-- A write of a pair, the low half in the lower register (R25). -/
def Write.pair (d : BitVec 7) (x : W64) : Write :=
  { regs := [(d.toNat, x.extractLsb' 0 32), (d.toNat + 1, x.extractLsb' 32 32)] }
/-- A write of a flag. -/
def Write.toFlag (n : Nat) (b : Bool) : Write := { flag := some (n, b) }
/-- The same write, which also raises exception flags (R62). -/
def Write.raising (w : Write) (f : BitVec 5) : Write := { w with raised := f }

/-- What register r holds after a write. -/
def Write.reg (w : Write) (r : Nat) (old : W32) : W32 := match w.regs.find? fun e => e.1 == r with | some e => e.2 | none => old
/-- What flag n holds after a write. -/
def Write.bit (w : Write) (n : Nat) (old : Bool) : Bool := match w.flag with | some e => if e.1 = n then e.2 else old | none => old

/-- Lane y holds what a write made of lane x: every register, temporary and flag that it does not name, as before. -/
structure Lane.Holds (x y : Lane) (w : Write) : Prop where
  regs : ∀ r, y.reg r = w.reg r (x.reg r)
  flags : ∀ n, n < 4 → y.flag n = w.bit n (x.flag n)
  raised : y.fflags = x.fflags ||| w.raised

/-- What uniform register n holds after the listed writes. -/
def uniformAfter (us : List (Nat × W64)) (n : Nat) (old : W64) : W64 := match us.find? fun e => e.1 == n with | some e => e.2 | none => old

/-- The word has completed from state b: every issuing lane l stands at `pc l` and holds the write `w l`, the uniform registers
hold the writes `us`, and nothing else has changed. -/
structure State.Done (b t : State) (i : Instr) (w : Nat → Write) (us : List (Nat × W64)) (pc : Nat → W64) : Prop where
  kept : b.Kept t
  uniform : ∀ n, t.curParty.sreg n = uniformAfter us n (b.curParty.sreg n)
  past : ∀ l ∈ b.cur.lanes, Lane.Past b i (pc l) (b.curParty.lane l) (t.curParty.lane l)
  holds : ∀ l ∈ b.cur.lanes, Lane.Holds (b.curParty.lane l) (t.curParty.lane l) (w l)

/-- Each lane's next word. -/
def State.nextPc (b : State) (l : Nat) : W64 := (b.curParty.lane l).pc + 4

/-- The word has completed at the next word of each lane and wrote no uniform register. -/
def State.Wrote (b t : State) (i : Instr) (w : Nat → Write) : Prop := b.Done t i w [] b.nextPc

/-- The word has completed at the next word and wrote one uniform register and no lane's. -/
def State.WroteS (b t : State) (i : Instr) (d : BitVec 6) (x : W64) : Prop := b.Done t i (fun _ => {}) [(d.toNat, x)] b.nextPc

/-- The word has completed at the next word and wrote no register. -/
def State.Passed (b t : State) (i : Instr) : Prop := b.Done t i (fun _ => {}) [] b.nextPc

/-- Integer lane words (R54 to R59). -/
def laneInteger (i : Instr) : Bool :=
  match i with
  | .add .. | .sub .. | .mul .. | .mad .. | .and .. | .or .. | .xor .. | .andn .. | .shl .. | .shr .. | .sar .. | .rot .. | .min ..
  | .max .. | .cmp .. | .sel .. | .popc .. | .clz .. | .brev .. | .bfe .. | .mov .. | .movc .. | .addi .. | .andi .. | .shli ..
  | .shri .. | .sari .. | .li .. | .lih .. => true
  | _ => false

/-- A sum or difference of 32 bits: wrapped, or clamped to .s32 or .n32 (R54). -/
def sumForm (m : BitVec 2) (neg : Bool) (x y : W32) : W32 :=
  let s : Int := if neg then x.toInt - y.toInt else x.toInt + y.toInt
  let u : Int := if neg then (x.toNat : Int) - y.toNat else x.toNat + y.toNat
  if m = 2 then (if s < -(2 ^ 31) then 0x80000000#32 else if 2 ^ 31 ≤ s then 0x7FFFFFFF#32 else BitVec.ofInt 32 s)
  else if m = 3 then (if u < 0 then 0#32 else if 2 ^ 32 ≤ u then 0xFFFFFFFF#32 else BitVec.ofInt 32 u)
  else if neg then x - y else x + y

/-- A relation of R56 between two operands read as a type. -/
def related (rel : Nat) (x y : Int) : Bool :=
  match rel with
  | 0 => x == y | 1 => x != y | 2 => decide (x < y) | 3 => decide (x ≤ y) | 4 => decide (y < x) | _ => decide (y ≤ x)

/-- A flag after a comparison that is combined into it (R56). -/
def combined3 (comb : Nat) (old r : Bool) : Bool := match comb with | 0 => r | 1 => old && r | _ => old || r

/-- What an integer lane word writes in lane l, from the values that the lane reads (R54 to R59). -/
def intWrite (b : State) (l : Nat) (i : Instr) : Write :=
  let x := b.curParty.lane l
  let v := fun (n : BitVec 7) => x.rd b.free l n.toNat
  let p := fun (n : BitVec 7) => x.rd64 b.free l n.toNat
  let c := fun (n : Nat) => x.rdFlag b.free l n
  match i with
  | .add d a e m _ => if m = 1 then .pair d (p a + p e) else .one d (sumForm m false (v a) (v e))
  | .sub d a e m _ => if m = 1 then .pair d (p a - p e) else .one d (sumForm m true (v a) (v e))
  | .mul d a e m _ =>
    if m = 0 then .one d (v a * v e)
    else if m = 1 then .one d (((v a).signExtend 64 * (v e).signExtend 64).extractLsb' 32 32)
    else if m = 2 then .one d (((v a).setWidth 64 * (v e).setWidth 64).extractLsb' 32 32)
    else .pair d (p a * p e)
  | .mad d a e m _ =>
    if m = 0 then .one d (v a * v e + v d)
    else if m = 1 then .pair d (p a * p e + p d)
    else if m = 2 then .pair d ((v a).signExtend 64 * (v e).signExtend 64 + p d)
    else .pair d ((v a).setWidth 64 * (v e).setWidth 64 + p d)
  | .and d a e _ => .one d (v a &&& v e)
  | .or d a e _ => .one d (v a ||| v e)
  | .xor d a e _ => .one d (v a ^^^ v e)
  | .andn d a e _ => .one d (v a &&& ~~~(v e))
  | .shl d a e _ => .one d (v a <<< ((v e).toNat % 32))
  | .shr d a e _ => .one d (v a >>> ((v e).toNat % 32))
  | .sar d a e _ => .one d ((v a).sshiftRight ((v e).toNat % 32))
  | .rot d a e _ => .one d (v a <<< ((v e).toNat % 32) ||| v a >>> (32 - (v e).toNat % 32))
  | .min d a e _ => .one d (if (v e).slt (v a) then v e else v a)
  | .max d a e _ => .one d (if (v a).slt (v e) then v e else v a)
  | .cmp d a e t _ =>
    let view := fun (n : BitVec 7) => if t = 0 then (v n).toInt else if t = 1 then ((v n).toNat : Int)
      else if t = 2 then (p n).toInt else ((p n).toNat : Int)
    .toFlag (d.toNat % 4) (combined3 (d.toNat / 32) (c (d.toNat % 4)) (related (d.toNat / 4 % 8) (view a) (view e)))
  | .sel d a e n _ => .one d (if c n.toNat then v a else v e)
  | .popc d a _ => .one d (BitVec.ofNat 32 ((List.range 32).countP fun k => (v a).getLsbD k))
  | .clz d a _ => .one d (BitVec.ofNat 32 (((List.range 33).find? fun k => k == 32 || (v a).getMsbD k).getD 32))
  | .brev d a _ => .one d (v a).reverse
  | .bfe d a e _ =>
    .one d (v a >>> ((v e).toNat % 32) &&& BitVec.ofNat 32 (2 ^ Nat.min ((v e).toNat / 256 % 64) 32 - 1))
  | .mov d a _ => .one d (v a)
  | .movc d _ => .one d ((((((0#28 ++ BitVec.ofBool (c 3)) ++ BitVec.ofBool (c 2)) ++ BitVec.ofBool (c 1)) ++ BitVec.ofBool (c 0))))
  | .addi d a k _ => .one d (v a + k.signExtend 32)
  | .andi d a k _ => .one d (v a &&& k.signExtend 32)
  | .shli d a k _ => .one d (v a <<< k.toNat)
  | .shri d a k _ => .one d (v a >>> k.toNat)
  | .sari d a k _ => .one d ((v a).sshiftRight k.toNat)
  | .li d k _ => .one d (k.signExtend 32)
  | .lih d k _ => .one d (k ++ (v d).extractLsb' 0 16)
  | _ => {}

/-- A group of k registers from a number, the lowest register lowest (R25). -/
def Write.group (d : BitVec 7) (k v : Nat) : Write := { regs := (List.range k).map fun j => (d.toNat + j, w32 (v / 2 ^ (32 * j))) }
/-- Both writes, the first one's registers before the second one's. -/
def Write.and (w v : Write) : Write := { regs := w.regs ++ v.regs, flag := w.flag.or v.flag, raised := w.raised ||| v.raised }

/-! ### Floating lane words (R60 to R74) -/

/-- Floating lane words. -/
def laneFloating (i : Instr) : Bool :=
  match i with
  | .fadd .. | .fsub .. | .fmul .. | .ffma .. | .fmin .. | .fmax .. | .fcmp .. | .fsgn .. | .cvtF .. | .cvtFi .. | .cvtIf .. | .fclass ..
  | .rcp .. | .rsqrt .. | .sqrt .. | .exp2 .. | .log2 .. | .sin .. | .cos .. | .tanh .. | .lgst .. => true
  | _ => false

/-- A floating result: a pair for .f64, else a register, and the flags it raises (R62). -/
def Write.float (wide : Bool) (d : BitVec 7) (r : FRes) : Write := (if wide then Write.pair d (w64 r.1) else Write.one d (w32 r.1)).raising r.2

/-- A converted float at a destination type: the upper half of vd alone for `.hi` (R67). -/
def Write.converted (d : BitVec 7) (code : Nat) (h : BitVec 1) (old : W32) (r : FRes) : Write :=
  (if code = 1 then Write.pair d (w64 r.1)
   else if h = 1 ∧ 2 ≤ code then Write.one d (BitVec.ofNat 16 r.1 ++ old.extractLsb' 0 16) else Write.one d (w32 r.1)).raising r.2

/-- What a floating lane word writes in lane l, from the values that the lane reads. -/
def floatWrite (b : State) (l : Nat) (i : Instr) : Write :=
  let x := b.curParty.lane l
  let v := fun (n : BitVec 7) => (x.rd b.free l n.toNat).toNat
  let p := fun (n : BitVec 7) => (x.rd64 b.free l n.toNat).toNat
  let c := fun (n : Nat) => x.rdFlag b.free l n
  let m := b.curParty.round.toNat
  let half := fun (f : Fmt) (op : Fmt → Nat → Nat → Nat → FRes) (x y z : Nat) =>
    let lo := op f (x % 2 ^ 16) (y % 2 ^ 16) (z % 2 ^ 16)
    let hi := op f (x / 2 ^ 16) (y / 2 ^ 16) (z / 2 ^ 16)
    (lo.1 + 2 ^ 16 * hi.1, lo.2 ||| hi.2)
  let arith := fun (t : BitVec 2) (d a e : BitVec 7) (op : Fmt → Nat → Nat → Nat → FRes) =>
    if t = 0 then Write.float false d (op F32 (v a) (v e) (v d))
    else if t = 1 then Write.float true d (op F64 (p a) (p e) (p d))
    else if t = 2 then Write.float false d (half F16 op (v a) (v e) (v d))
    else Write.float false d (half BF16 op (v a) (v e) (v d))
  let source := fun (a : BitVec 7) (code : Nat) (h : BitVec 1) =>
    if code = 0 then v a else if code = 1 then p a else if h = 0 then v a % 2 ^ 16 else v a / 2 ^ 16
  let mode := fun (c : BitVec 7) => if c.toNat / 16 = 7 then m else c.toNat / 16
  let unary := fun (t : BitVec 1) (d a : BitVec 7) (op : Fmt → Nat → FRes) =>
    if t = 1 then Write.float true d (op F64 (p a)) else Write.float false d (op F32 (v a))
  match i with
  | .fadd d a e t _ => arith t d a e fun f x y _ => f.addVals m (f.read x) (f.read y)
  | .fsub d a e t _ => arith t d a e fun f x y _ => f.addVals m (f.read x) (f.read y).neg
  | .fmul d a e t _ => arith t d a e fun f x y _ => f.mulVals m (f.read x) (f.read y)
  | .ffma d a e t _ => arith t d a e fun f x y z => f.fmaVals m (f.read x) (f.read y) (f.read z)
  | .fmin d a e t _ => arith t d a e fun f x y _ => f.minMax false x y
  | .fmax d a e t _ => arith t d a e fun f x y _ => f.minMax true x y
  | .fcmp d a e t _ =>
    let rel := d.toNat / 4 % 8
    let r := if t = 0 then F32.rel rel (v a) (v e) else if t = 1 then F64.rel rel (p a) (p e)
      else
        let f := if t = 2 then F16 else BF16
        let lo := f.rel rel (v a % 2 ^ 16) (v e % 2 ^ 16)
        let hi := f.rel rel (v a / 2 ^ 16) (v e / 2 ^ 16)
        (lo.1 && hi.1, lo.2 ||| hi.2)
    (Write.toFlag (d.toNat % 4) (combined3 (d.toNat / 32) (c (d.toNat % 4)) r.1)).raising r.2
  | .fsgn d a e k _ =>
    let s := (v e).testBit 31
    Write.one d (BitVec.ofBool (if k = 0 then s else if k = 1 then !s else s != (v a).testBit 31) ++ BitVec.ofNat 31 (v a))
  | .cvtF d a k h t _ =>
    let code := k.toNat / 4 % 4
    Write.converted d code h (x.rd b.free l d.toNat) (convert (laneFmt (k.toNat % 4)) (laneFmt code) (mode k) (t == 1) (source a (k.toNat % 4) h))
  | .cvtFi d a k h _ =>
    let code := k.toNat / 4 % 4
    let lo : Int := if code = 0 then -(2 ^ 31) else if code = 2 then -(2 ^ 63) else 0
    let hi : Int := if code = 0 then 2 ^ 31 - 1 else if code = 1 then 2 ^ 32 - 1 else if code = 2 then 2 ^ 63 - 1 else 2 ^ 64 - 1
    let r := toInteger (laneFmt (k.toNat % 4)) (mode k) lo hi (source a (k.toNat % 4) h)
    (if code < 2 then Write.one d (BitVec.ofInt 32 r.1) else Write.pair d (BitVec.ofInt 64 r.1)).raising r.2
  | .cvtIf d a k h _ =>
    let code := k.toNat / 4 % 4
    let z : Int := if k.toNat % 4 = 0 then (x.rd b.free l a.toNat).toInt else if k.toNat % 4 = 1 then v a
      else if k.toNat % 4 = 2 then (x.rd64 b.free l a.toNat).toInt else p a
    Write.converted d code h (x.rd b.free l d.toNat) (ofInteger (laneFmt code) (mode k) z)
  | .fclass d a t _ =>
    let f := laneFmt t.toNat
    Write.one d (BitVec.ofNat 32 (2 ^ f.classBit (if t = 1 then p a else v a % 2 ^ f.w)))
  | .rcp d a t _ => unary t d a fun f x => sfRcp f m x
  | .rsqrt d a t _ => unary t d a sfRsqrt
  | .sqrt d a t _ => unary t d a fun f x => sfSqrt f m x
  | .exp2 d a t _ => unary t d a sfExp2
  | .log2 d a t _ => unary t d a sfLog2
  | .sin d a _ => unary 0 d a (sfTrig false)
  | .cos d a _ => unary 0 d a (sfTrig true)
  | .tanh d a _ => unary 0 d a sfTanh
  | .lgst d a _ => unary 0 d a sfLgst
  | _ => {}

/-! ### Words at which a strand meets (R75 to R86, R94, R160) -/

/-- Every lane of the strand takes part. -/
def State.whole (b : State) : State := { b with cur := { b.cur with lanes := b.curParty.active } }

/-- The issuing lanes are the last of their strand to come to a word: every other lane that has not exited waits there. -/
structure State.Met (b : State) : Prop where
  table : FMap.wf {} b.curParty.lanes = true
  fresh : ∀ l ∈ b.cur.lanes, (b.curParty.lane l).wait = .none
  others : ∀ l ∈ b.curParty.active, l ∉ b.cur.lanes → (b.curParty.lane l).wait.gathers = true ∧ (b.curParty.lane l).wait.key = none
  same : ∀ l ∈ b.curParty.active, (b.curParty.lane l).pc = (b.curParty.lane (b.curParty.active.head?.getD 0)).pc

/-- Cross-lane words that write registers or flags. -/
def crossLaneWord (i : Instr) : Bool :=
  match i with
  | .shfl .. | .voteAny .. | .voteAll .. | .voteBallot .. | .scan .. | .matchLanes .. | .elect .. | .reds .. | .redsAf .. | .redsInt .. => true
  | _ => false

/-- A mask of lanes in one register, or in a pair at W = 64 (R79). -/
def Write.mask (W : Nat) (d : BitVec 7) (m : Nat) : Write := if W = 64 then Write.pair d (w64 m) else Write.one d (w32 m)

/-- A sum of values over lanes. -/
def laneSum (ls : List Nat) (f : Nat → Int) : Int := (ls.map f).sum

/-- What a cross-lane word writes in lane l of the participants (R78 to R85); state b has every lane of the strand issuing. -/
def crossWrite (b : State) (l : Nat) (i : Instr) : Write :=
  let P := b.curParty
  let W := b.curTeam.hdr.width
  let ls := b.cur.lanes
  let v := fun (k : Nat) (n : BitVec 7) => (P.lane k).rd b.free k n.toNat
  let p := fun (k : Nat) (n : BitVec 7) => (P.lane k).rd64 b.free k n.toNat
  let c := fun (k n : Nat) => (P.lane k).rdFlag b.free k n
  match i with
  | .shfl d a e m _ =>
    let j : Int := if m = 0 then (v l e).toNat else if m = 1 then (l : Int) - (v l e).toNat else if m = 2 then (l : Int) + (v l e).toNat
      else (l ^^^ (v l e).toNat : Nat)
    Write.one d (if 0 ≤ j ∧ j < W ∧ ls.contains j.toNat = true then v j.toNat a else v l a)
  | .voteAny d k _ => Write.toFlag d.toNat (ls.any fun j => c j k.toNat)
  | .voteAll d k _ => Write.toFlag d.toNat (ls.all fun j => c j k.toNat)
  | .voteBallot d k _ => Write.mask W d ((ls.map fun j => if c j k.toNat then 2 ^ j else 0).sum)
  | .scan d a m _ =>
    let below := (ls.filter fun j => if m = 1 then decide (j < l) else decide (j ≤ l)).map fun j => v j a
    Write.one d (if m = 0 ∨ m = 1 then below.foldl (· + ·) 0
      else if m = 2 then below.foldl (fun x y => if x.slt y then y else x) 0x80000000#32
      else below.foldl (fun x y => if y.slt x then y else x) 0x7FFFFFFF#32)
  | .matchLanes d a m _ =>
    Write.mask W d ((ls.map fun j => if (if m = 1 then p j a = p l a else v j a = v l a) then 2 ^ j else 0).sum)
  | .elect d _ => Write.toFlag d.toNat (l == ls.head?.getD 0)
  | .reds d a m _ =>
    let f := if m = 1 then F64 else F32
    let identity := if m = 0 ∨ m = 1 then 2 ^ (f.w - 1) else f.nanBits
    let op := fun x y => if m = 0 ∨ m = 1 then f.addVals P.round.toNat (f.read x) (f.read y) else f.minMax (m == 2) x y
    let leaf := fun j => if ls.contains j then (if m = 1 then (p j a).toNat else (v j a).toNat) else identity
    Write.float (m == 1) d (foldTree op (Nat.log2 W) ((List.range W).map fun j => (leaf j, 0)))
  | .redsAf d a e m _ =>
    let anchor := ((v (ls.head?.getD 0) e).extractLsb' 0 8).toInt
    let x := fun j => afInput m.toNat anchor (if m = 0 then (v j a).toNat else (p j a).toNat)
    let sum := laneSum ls fun j => (x j).1
    let top : Int := 2 ^ 63 - 1
    let res := max (-top) (min top sum)
    let nan := ls.any fun j => (x j).2.2.2
    ((Write.pair d (if nan then 0x8000000000000000#64 else BitVec.ofInt 64 res)).raising
      ((if ls.any fun j => (x j).2.1 then fNX else 0)
        ||| (if (!nan && res != sum) || ls.any fun j => (x j).2.2.1 then fOF else 0) ||| (if nan then fNV else 0)))
  | .redsInt d a o t _ =>
    let x : Nat → Int := fun j => if t = 0 then (v j a).toInt else if t = 1 then (v j a).toNat else if t = 2 then (p j a).toInt
      else (p j a).toNat
    let r : Int := if o = 0 then laneSum ls x
      else (ls.map x).tail.foldl (fun y z => if o = 1 then min y z else max y z) ((ls.map x).headD 0)
    if t.toNat < 2 then Write.one d (BitVec.ofInt 32 r) else Write.pair d (BitVec.ofInt 64 r)
  | _ => {}

/-! ### Uniform words that write one register (R121 to R124, R131, R151, R169, R178, R180) -/

/-- The register that a uniform word writes and its value, from the values that it reads; none for another word. -/
def uniformWrite (b : State) (i : Instr) : Option (BitVec 6 × W64) :=
  let v := fun (n : BitVec 6) => b.rdS n.toNat
  match i with
  | .sadd d a e _ => some (d, v a + v e)
  | .ssub d a e _ => some (d, v a - v e)
  | .smul d a e m _ =>
    some (d, if m = 1 then ((v a).signExtend 128 * (v e).signExtend 128).extractLsb' 64 64
      else if m = 2 then ((v a).setWidth 128 * (v e).setWidth 128).extractLsb' 64 64 else v a * v e)
  | .sand d a e _ => some (d, v a &&& v e)
  | .sor d a e _ => some (d, v a ||| v e)
  | .sxor d a e _ => some (d, v a ^^^ v e)
  | .sandn d a e _ => some (d, v a &&& ~~~(v e))
  | .sshl d a e _ => some (d, v a <<< ((v e).toNat % 64))
  | .sshr d a e _ => some (d, v a >>> ((v e).toNat % 64))
  | .ssar d a e _ => some (d, (v a).sshiftRight ((v e).toNat % 64))
  | .smin d a e _ => some (d, if (v e).slt (v a) then v e else v a)
  | .smax d a e _ => some (d, if (v a).slt (v e) then v e else v a)
  | .ssel d a e t n _ =>
    let fs := b.cur.lanes.map fun l => (b.curParty.lane l).rdFlag b.free l n.toNat
    some (d, if (if t = 0 then fs.any id else if t = 1 then fs.all id else !fs.any id) then v a else v e)
  | .saddi d a k _ => some (d, v a + k.signExtend 64)
  | .sli d k _ => some (d, k.signExtend 64)
  | .slik d n k _ => some (d, v d ||| k.setWidth 64 <<< n.toNat)
  | .mfsrUniform d r _ => some (d, b.specialReg b.cur.team b.cur.party b.firstLane r.toNat)
  | .accFlg d h c _ => if c = 0 then some (d, (b.tile h.toNat).flagWord) else none
  | .ckptStat d a _ =>
    let c := b.ckpt ((v a).toNat % 16)
    some (d, w64 (2 ^ 62 * c.state.toNat + b.ckptBytes c % 2 ^ 48))
  | .tideRd d a m _ =>
    if m = 2 then some (d, w64 (b.minLive + 2 ^ 32 * (b.tide.entries.filter fun e => e.2.covered).length))
    else if (v a).toNat < 2 ^ 12 then
      some (d, if m = 1 then (b.tideEntry (v a).toNat).heard else w64 ({ b.tideEntry (v a).toNat with agg := false } : TideEntry).word)
    else none
  | _ => none

/-! ### Words that end at an address (R88 to R94, R126 to R128) -/

/-- What a word's completion is: the state with all that it changes beside its lanes and uniform registers, what each lane and the
uniform registers receive, and where each lane stands. -/
structure Completion where
  state : State
  writes : Nat → Write := fun _ => {}
  uniform : List (Nat × W64) := []
  pc : Nat → W64

/-- The word has completed with this effect. -/
def State.Ends (t : State) (i : Instr) (e : Completion) : Prop := e.state.Done t i e.writes e.uniform e.pc

/-- Every lane goes on at the next word. -/
def Completion.next (b c : State) : Completion := { state := c, pc := b.nextPc }

/-- One lane's access that is done: the state after it and what it read. -/
abbrev Access := State → Nat → Option (State × Nat)

/-- The lanes' accesses one after the other in the order of service; none when one is not done. -/
def State.servedBy (s : State) (f : Access) : Option (State × List (Nat × Nat)) :=
  s.serveOrder.foldl (fun r l => match r with
    | none => none
    | some q => match f q.1 l with
      | none => none
      | some x => some (x.1, (l, x.2) :: q.2)) (some (s, []))

/-- What the access of lane l gave. -/
def gave (xs : List (Nat × Nat)) (l : Nat) : Nat := ((xs.find? fun e => e.1 == l).map (·.2)).getD 0

/-- The effect of a control word: where each lane goes, the branch records and the return stacks; none where the word traps,
parks or waits. -/
def controlEffect (b : State) (i : Instr) : Option Completion :=
  let P := b.curParty
  let first := (P.lane b.firstLane).pc
  match i with
  | .lpad _ _ => some (.next b b)
  | .bra c o _ =>
    let dest := fun l => (P.lane l).pc + 4#64 * o.signExtend 64
    let go := b.cur.lanes.filter fun l => b.taken c l
    some { state := b.traceBranch go dest, pc := fun l => if b.taken c l then dest l else b.nextPc l }
  | .brx a _ =>
    let at_ := fun (l : Nat) => b.jumpTable ((P.lane l).rd b.free l a.toNat).toNat
    let dest := fun (l : Nat) => match at_ l with | .to p => p | _ => 0
    if b.cur.lanes.all fun l => match at_ l with | .to _ => true | _ => false then
      ((b.traceBranch b.cur.lanes dest).servedBy fun c l =>
        some (c.keepJump ((P.lane l).rd b.free l a.toNat).toNat, 0)).map fun q => { state := q.1, pc := dest }
    else none
  | .call o _ =>
    let dest := fun l => (P.lane l).pc + 4#64 * o.signExtend 64
    if b.cur.lanes.all fun l => (b.callLane l).toBool then
      ((b.traceBranch b.cur.lanes dest).servedBy fun c l => (c.callLane l).toOption.map fun c => (c, 0)).map fun q =>
        { state := q.1, pc := dest }
    else none
  | .ret _ =>
    let dest := fun (l : Nat) => match b.retLane l with | .ok p => p.2 | .error _ => 0
    if b.cur.lanes.all fun l => (b.retLane l).toBool then
      ((b.traceBranch b.cur.lanes dest).servedBy fun c l => (c.retLane l).toOption.map fun p => (p.1, p.2.toNat)).map fun q =>
        { state := q.1, pc := fun l => w64 (gave q.2 l) }
    else none
  | .sbr c o _ =>
    let dest := first + 4#64 * o.signExtend 64
    let fs := b.cur.lanes.map fun l => (P.lane l).rdFlag b.free l (c.toNat % 4)
    if (if c.toNat / 4 = 0 then true else if c.toNat / 4 = 1 then fs.any id else if c.toNat / 4 = 2 then fs.all id else !fs.any id) then
      some { state := b.traceBranch b.cur.lanes fun _ => dest, pc := fun _ => dest }
    else some (.next b b)
  | .sloop d o _ =>
    let dest := first + 4#64 * o.signExtend 64
    let n := b.rdS d.toNat
    if n.toNat ≤ 1 then some { Completion.next b b with uniform := [(d.toNat, 0)] }
    else some { state := b.traceBranch b.cur.lanes fun _ => dest, uniform := [(d.toNat, n - 1)], pc := fun _ => dest }
  | .sjmp a _ => match b.jumpTable (b.rdS a.toNat).toNat with
    | .to p => some { state := (b.keepJump (b.rdS a.toNat).toNat).traceBranch b.cur.lanes fun _ => p + 4, pc := fun _ => p + 4 }
    | _ => none
  | _ => none

/-- What `brx`, `call` or `ret` does in lane l, from state c, to which lanes served before it have brought state b: where it goes, or
its cause (R89, R91). -/
def State.controlOut (b : State) (i : Instr) (c : State) (l : Nat) : State × Out :=
  let x := b.curParty.lane l
  match i with
  | .brx a _ =>
    let n := (x.rd b.free l a.toNat).toNat
    (c.keepJump n, match b.jumpTable n with
      | .to p => .done p.toNat
      | .bad d => .trap { kind := 2, detail := d }
      | .fail g va => fetchOut g va)
  | .call o _ => match c.callLane l with
    | .ok c => (c, .done (x.pc + 4#64 * o.signExtend 64).toNat)
    | .error e => (e.1, .trap e.2)
  | .ret _ => match c.retLane l with
    | .ok p => (p.1, .done p.2.toNat)
    | .error e => (e.1, .trap e.2)
  | _ => (c, .trap { kind := 0 })

/-- The issuing lanes that a control word sends on when no other is served before them. -/
def State.controlGo (b : State) (i : Instr) : List Nat := b.cur.lanes.filter fun l => match (b.controlOut i b l).2 with | .done _ => true | _ => false

/-- Where it sends them. -/
def State.controlDest (b : State) (i : Instr) (l : Nat) : W64 := match (b.controlOut i b l).2 with | .done v => w64 v | _ => 0

/-- The lanes of `brx`, `call` or `ret` served in their order, behind the branch records: what each does. -/
def State.controlOuts (b : State) (i : Instr) : State × List (Nat × Out) :=
  (b.traceBranch (b.controlGo i) (b.controlDest i)).serveLanes (b.controlOut i)

/-! ### Memory words (R96 to R113, R125) -/

/-- A load of n bytes at the lane's aligned address (R96, R98). -/
def loadAt (a : BitVec 7) (base : BitVec 3) (n : Nat) : Access := fun s l =>
  let A := s.laneAddr base a l
  if A % n ≠ 0 then none
  else match s.loadFor s.cur.team .read A n with
    | (c, .val v) => some (c, v)
    | _ => none

/-- A store of the n low bytes of k registers at the lane's aligned address; a store to a peer that is no release enters the
write-combining buffer (R98, R287). -/
def storeAt (d a : BitVec 7) (base o : BitVec 3) (n k : Nat) : Access := fun s l =>
  let A := s.laneAddr base a l
  let v := s.groupOf l d.toNat k % 2 ^ (8 * n)
  if A % n ≠ 0 then none
  else match s.storeFor s.cur.team A n v with
    | (c, .val _) => some (c, 0)
    | (c, .peer m p) => if o = 2 then none else some (c.combine c.curParty.core c.cur.team c.cur.party [l] m c.curTeam.asid p n v (w64 A), 0)
    | _ => none

/-- A versioned load under a control word; on a page that is not versioned, a load (R104). -/
def versionAt (tagged : Bool) (ctl : Nat) (a : BitVec 7) (base : BitVec 3) : Access := fun s l =>
  let n := 2 ^ (ctl % 8)
  let A := s.laneAddr base a l
  if A % n ≠ 0 then none
  else match s.locate s.curTeam.slot s.curTeam.alloc .read A n with
    | .ok (.ring npa off) => match (s.keepLeaf s.curTeam.slot A).versioned tagged ctl npa off A n with
      | (c, .done v) => some (c, v)
      | _ => none
    | _ => loadAt a base n s l

/-- A lane's part of a memory word, as an access that is done; b is the state before the word. -/
def laneAccess (b : State) (i : Instr) : Option Access :=
  match i with
  | .ldB _ a e _ _ _ => some (loadAt a e 1)
  | .ldH _ a e _ _ _ => some (loadAt a e 2)
  | .ldW _ a e _ _ _ => some (loadAt a e 4)
  | .ldD _ a e _ _ _ => some (loadAt a e 8)
  | .ldQ _ a e _ _ _ => some (loadAt a e 16)
  | .stB d a e _ o _ => some (storeAt d a e o 1 1)
  | .stH d a e _ o _ => some (storeAt d a e o 2 1)
  | .stW d a e _ o _ => some (storeAt d a e o 4 1)
  | .stD d a e _ o _ => some (storeAt d a e o 8 2)
  | .stQ d a e _ o _ => some (storeAt d a e o 16 4)
  | .ldv _ a e _ _ _ => some (versionAt false (b.control e) a e)
  | .ldvTag _ a e _ _ _ => some (versionAt true (b.control e) a e)
  | .atom d a e _ _ _ =>
    let ctl := b.control e
    let n := atomBytes (bits ctl 6 4)
    let k := atomRegs ctl
    some fun s l =>
      let A := s.laneAddr e a l
      let x := s.groupOf l d.toNat k
      let y := if ctl % 16 = 7 then s.groupOf l (d.toNat + k) k else 0
      if A % n ≠ 0 then none
      else match s.modifyFor s.cur.team A n fun old => atomNew (ctl % 16) (bits ctl 6 4) n old x y with
        | (c, .val v) => some (c, v)
        | _ => none
  | .red d a e _ _ _ =>
    let ctl := b.control e
    let n := redBytes ctl
    some fun s l =>
      let A := s.laneAddr e a l
      let x := redValue ctl (s.groupOf l d.toNat (redRegs ctl))
      if A % n ≠ 0 then none
      else match s.modifyFor s.cur.team A n fun old => redNew (ctl % 16) (bits ctl 6 4) n old x.1 with
        | (c, .val _) => some (c.setLane c.cur.team c.cur.party l ((c.curParty.lane l).raise x.2), 0)
        | _ => none
  | .qopPop _ a _ _ => some fun s l =>
    match s.queueStep false (s.look l (s.curParty.lane l) a).toNat 0 with
    | (c, .done v) => some (c, v)
    | _ => none
  | .qopPush d a _ _ => some fun s l =>
    match s.queueStep true (s.look l (s.curParty.lane l) a).toNat (s.look l (s.curParty.lane l) d).toNat with
    | (c, .done v) => some (c, v)
    | _ => none
  | _ => none

/-- What a memory word writes in a lane whose access gave v: a bit 32 of a queue word's answer tells success (R112). -/
def accessWrite (b : State) (i : Instr) (v : Nat) : Write :=
  match i with
  | .ldB d _ _ _ _ _ | .ldH d _ _ _ _ _ | .ldW d _ _ _ _ _ => .group d 1 v
  | .ldD d _ _ _ _ _ => .group d 2 v
  | .ldQ d _ _ _ _ _ => .group d 4 v
  | .ldv d _ e _ _ _ | .ldvTag d _ e _ _ _ => .group d (ldvRegs (b.control e)) v
  | .atom d _ e _ _ _ => .group d (atomRegs (b.control e)) v
  | .qopPop d _ n _ => if v < 2 ^ 32 then .toFlag n.toNat false else { regs := [(d.toNat, w32 v)], flag := some (n.toNat, true) }
  | .qopPush _ _ n _ => .toFlag n.toNat (decide (2 ^ 32 ≤ v))
  | _ => {}

/-- The effect of a memory word whose accesses are all done. -/
def memoryEffect (b : State) (i : Instr) : Option Completion :=
  match i with
  | .sld d a k _ =>
    let A := b.scalarAddr a k
    if A % 8 ≠ 0 then none
    else match b.loadFor b.cur.team .read A 8 with
      | (c, .val v) => some { Completion.next b c with uniform := [(d.toNat, w64 v)] }
      | _ => none
  | .sst d a k _ =>
    let A := b.scalarAddr a k
    let v := (b.rdS d.toNat).toNat
    if A % 8 ≠ 0 then none
    else match b.storeFor b.cur.team A 8 v with
      | (c, .val _) => some (.next b c)
      | (c, .peer m p) =>
        some (.next b (c.combine c.curParty.core c.cur.team c.cur.party c.cur.lanes m c.curTeam.asid p 8 v (w64 A)))
      | _ => none
  | _ => match laneAccess b i with
    | none => none
    | some f => match b.servedBy f with
      | none => none
      | some q => some { Completion.next b q.1 with writes := fun l => accessWrite b i (gave q.2 l) }

/-! ### Barriers, fences, dependence counters (R160 to R169) -/

/-- The state a word of R160 acts from: a sequencer context alone, or the whole strand. -/
def State.arrived (b : State) : State := if b.curParty.seq then b else b.whole

/-- A word of R160 that its lanes already wait at, for its barrier. -/
def resumes (i : Instr) (w : Wait) : Bool :=
  match i, w with
  | .barArr .., .arrive .. => true
  | .barWait .., .barrier .. => true
  | .barAw .., .arrive .. | .barAw .., .barrier .. => true
  | .barTry .., .barrier _ _ _ (some _) | .barTry .., .expired _ _ => true
  | _, _ => false

/-- Barrier words at which a strand meets (R160). -/
def meetsAt (i : Instr) : Bool :=
  match i with
  | .barArr .. | .barWait .. | .barAw .. | .barTry .. => true
  | _ => false

/-- The barrier word acts now: it is no word of R160, its party waits at it, or its strand has met. -/
def State.Acts (b : State) (i : Instr) : Prop := meetsAt i = false ∨ resumes i b.curWait = true ∨ b.curParty.seq = true ∨ b.Met

/-- The barrier that a word names, homed by its first word (R162, R164); none where R162 or R164 traps. -/
def State.namedBarrier (b : State) (p : BitVec 3) (k : BitVec 5) : Option Barrier :=
  let x := b.barrierOf b.cur.team (p != 2) k.toNat
  if p = 2 then (if k.toNat < b.curTeam.hdr.barriers then some x else none)
  else match x.home with
    | none => some { x with home := some (b.homeOf p.toNat) }
    | some h => if h = b.homeOf p.toNat then some x else none

/-- The barrier written. -/
def State.withBarrier (b : State) (p : BitVec 3) (k : BitVec 5) (x : Barrier) : State := b.setBarrierOf b.cur.team (p != 2) k.toNat x

/-- The effect of a barrier word, a fence or a code word that goes on. -/
def barrierEffect (b : State) (i : Instr) : Option Completion :=
  let c := if resumes i b.curWait then b else b.arrived
  let passed := fun (wide : Bool) (j target : Nat) => decide (target < (b.barrierOf b.cur.team wide j).phase)
  match i with
  | .barInit k n p _ =>
    let count := (b.rdS n.toNat).toNat
    if 1 ≤ count ∧ count ≤ (if p = 2 then (if b.curTeam.hdr.twin then 66 else 33) else 2 ^ 20) then
      (b.namedBarrier p k).bind fun x =>
        if x.e = 0 then some (.next b (b.withBarrier p k ({ x with e := count } : Barrier).settle))
        else if x.a = 0 ∧ x.n = 0 then some (.next b (b.withBarrier p k { x with e := count })) else none
    else none
  | .barArr k p _ => (c.namedBarrier p k).bind fun x =>
    if x.ahead (c.barParty (p != 2)) then none else some (.next c (c.withBarrier p k (x.arrive (c.barParty (p != 2)))))
  | .barWait _ _ _ => match b.curWait with
    | .barrier wide j target _ => if passed wide j target then some (.next b b) else none
    | _ => none
  | .barAw k p _ => match b.curWait with
    | .barrier wide j target _ => if passed wide j target then some (.next b b) else none
    | _ => (c.namedBarrier p k).bind fun x =>
      let y := x.arrive (c.barParty (p != 2))
      if x.ahead (c.barParty (p != 2)) || !decide ((y.phiOf (c.barParty (p != 2))).getD 0 < y.phase) then none
      else some (.next c (c.withBarrier p k y))
  | .barTry _ _ _ _ _ => match b.curWait with
    | .barrier wide j target (some (_, n, _)) =>
      if passed wide j target then some { Completion.next b b with writes := fun _ => .toFlag n true } else none
    | .expired n _ => some { Completion.next b b with writes := fun _ => .toFlag n false }
    | _ => none
  | .fence p o _ =>
    if p = 6 ∧ o = 1 ∧ b.peerBusy b.cur.team b.cur.party b.cur.lanes = true then none else some (.next b b)
  | .ifence _ => some (.next b (b.setCurParty { b.curParty with prefetch := [] }))
  | .icinv a e _ =>
    let lo := (b.rdS a.toNat).toNat
    let n := (b.rdS e.toNat).toNat
    some (.next b { b with icache := b.icache.filter fun w =>
      !(n != 0 && decide (lo / 64 ≤ w.2.1) && decide (w.2.1 ≤ (lo + n - 1) / 64)) })
  | _ => none

/-- The device counter that a counter word names in its context's grant (R159, R169). -/
def State.namedCounter (b : State) (a : BitVec 6) : Option Nat :=
  if (b.rdS a.toNat).toNat < 2 ^ 12 then b.curCtx.counterAt (b.rdS a.toNat).toNat else none

/-- The effect of a word on a dependence counter that goes on (R169). -/
def counterEffect (b : State) (i : Instr) : Option Completion :=
  let taken := fun (n : Nat) => (b.setCounter n { b.counter n with value := (b.counter n).value - 1 }).examineCounter n
  let waits := fun (a : BitVec 6) => match b.curWait with | .task x _ => b.curCtx.counterAt x | _ => b.namedCounter a
  match i with
  | .taskSigAdd a e _ => (b.namedCounter a).map fun n => .next b (b.signalCounter n ((b.rdS e.toNat).toNat % 2 ^ 32))
  | .taskSigSet a e _ => (b.namedCounter a).map fun n =>
    .next b ((b.setCounter n { b.counter n with value := (b.rdS e.toNat).extractLsb' 0 32, fault := false, under := false }).examineCounter n)
  | .taskSigRd d a _ => (b.namedCounter a).map fun n =>
    { Completion.next b b with uniform := [(d.toNat,
        ((0#30 ++ BitVec.ofBool (b.counter n).under) ++ BitVec.ofBool (b.counter n).fault) ++ (b.counter n).value)] }
  | .taskWait a _ => (waits a).bind fun n =>
    if (b.counter n).value = 0 ∧ (b.counter n).fault = false then some (.next b b) else none
  | .taskWaitTake a _ => (waits a).bind fun n =>
    if (b.counter n).value ≠ 0 ∧ (b.counter n).fault = false then some (.next b (taken n)) else none
  | .taskTry f a _ => (b.namedCounter a).bind fun n =>
    if (b.counter n).value ≠ 0 then some { Completion.next b b with writes := fun _ => .toFlag f.toNat false }
    else if (b.counter n).fault then none
    else some { Completion.next b b with writes := fun _ => .toFlag f.toNat true }
  | .taskTryTake f a _ => (b.namedCounter a).bind fun n =>
    if (b.counter n).value = 0 then some { Completion.next b b with writes := fun _ => .toFlag f.toNat false }
    else if (b.counter n).fault then none
    else some { Completion.next b (taken n) with writes := fun _ => .toFlag f.toNat true }
  | _ => none

/-! ### Special registers, `rand` and `scmp` per lane (R28, R114, R122) -/

/-- What `mfsr` to lane registers, `rand` and `scmp` write in lane l. -/
def laneSpecialWrite (b : State) (l : Nat) (i : Instr) : Option Write :=
  let x := b.curParty.lane l
  let v := fun (n : Nat) => x.rd b.free l n
  match i with
  | .mfsrLane d h r _ => some (.one (h ++ d) ((b.specialReg b.cur.team b.cur.party l r.toNat).extractLsb' 0 32))
  | .rand d a k u _ =>
    let n := a.toNat
    let o := philox 10 (v n, v (n + 1), v (n + 2), v (n + 3)) (v k.toNat) (v (k.toNat + 1))
    let next := ((v (n + 3)).toNat * 2 ^ 96 + (v (n + 2)).toNat * 2 ^ 64 + (v (n + 1)).toNat * 2 ^ 32 + (v n).toNat) + 1
    let out : Write := { regs := [(d.toNat, o.1), (d.toNat + 1, o.2.1), (d.toNat + 2, o.2.2.1), (d.toNat + 3, o.2.2.2)] }
    some (if u = 1 then (Write.group a 4 next).and out else out)
  | .scmp k a e t m _ =>
    let view := fun (n : BitVec 6) => if t = 0 then (b.rdS n.toNat).toInt else ((b.rdS n.toNat).toNat : Int)
    some (.toFlag (k.toNat % 4) (combined3 m.toNat (x.rdFlag b.free l (k.toNat % 4)) (related (k.toNat / 4) (view a) (view e))))
  | _ => none

/-! ### Words of engines, steps, collectives, patterns and the system (R136 to R190)

`wordResult` gives the state in which such a word leaves its lanes past it, in terms of the named operations; `State.after` then
counts the word for them. It gives none where the word traps, parks or waits. -/

/-- The strand has met at a word, and acts as one. -/
def State.metAt (b : State) (w : Wait) : State :=
  { b.hold w with cur := { b.cur with lanes := (b.hold w).curParty.active } }

/-- k units of a long word from unit p of its n units on, when none of them stops (R157). -/
def unitsFrom (unit : State → Nat → Except State State) (n : Nat) : Nat → Nat → State → Option State
  | 0, _, s => some s
  | 1, p, s => (unit s p).toOption
  | k + 2, p, s => (unit s p).toOption.bind fun c =>
    unitsFrom unit n (k + 1) (p + 1) ((c.standAt (p + 1) n).mapLanes fun _ x => { x with wait := .none })

/-- A long word run from its progress index to its end in one turn (R157). -/
def longResult (p : Plan) (b : State) : Option State :=
  match p with
  | .error _ => none
  | .ok q =>
    let done := (b.curParty.lane b.firstLane).unit
    (unitsFrom q.2 q.1 (q.1 - done) done b).map State.advance

/-- The plan of a long word, and the state in which its units act: for `tcon`, that of the whole strand (R117, R157). -/
def longPlan (b : State) (i : Instr) : Option (Plan × State) :=
  match i with
  | .tcon d a u t m _ => some (tconPlan d a u t m, b.metAt .crossLane)
  | .wload d a e c w _ =>
    let c' := if (b.curParty.lane b.firstLane).units = 0 then b.setCurParty { b.curParty with fetchBuf := [] } else b
    some (c'.wloadPlan d a e c w, c')
  | .mma h a e _ =>
    let c := b.useTiles [(h.toNat, tilesOf ((b.rdS e.toNat).toNat % 2 ^ 11))]
    some (c.mmaPlan h a e, c)
  | .mmac h g e _ =>
    let r := (b.convRecord e []).1
    let c := b.useTiles [(h.toNat, tilesOf r.rows), (g.toNat, groupSize r.fmt * tilesOf r.rows)]
    some (c.mmacPlan h g e, c)
  | .accRd h a e z _ =>
    let c := b.useTiles [(h.toNat, tilesOf (b.convRecord a []).1.rows)]
    some (c.accRdPlan h a e z, c)
  | .tld k a e _ => some (b.tldPlan k a e, b)
  | .tst k a e _ => some (b.tstPlan k a e, b)
  | _ => none

/-- The state in which a run performs one unit of a long word: it continues one that it has begun, or takes the uniform pipe and fetches
the word (R157, R206). -/
def State.unitState (b : State) (t k : Nat) (ls : List Nat) : State :=
  let x := (b.party t k).lane (ls.head?.getD 0)
  let cur : Issue := { team := t, party := k, lanes := ls, units := some 1 }
  if x.units ≠ 0 then { b with cur := cur } else { b.claim t k with cur := cur }.keepFetched t k x.pc.toNat

/-- A record of n 8-byte words that can be read. -/
def State.got (b : State) (va n : Nat) : Option (State × Nat) :=
  match b.readRecord va n with
  | (c, .ok v) => some (c, v)
  | _ => none

/-- n bytes that can be read. -/
def State.gotSpan (b : State) (va n : Nat) : Option (State × Nat) :=
  match b.readSpan va n n with
  | (c, .ok v) => some (c, v)
  | _ => none

/-- A counter word that R170 and R159 allow: the device counter it names, if any. -/
def State.counterWord (b : State) (x : Nat) : Option (Option Nat) :=
  if bits x 63 13 ≠ 0 then none else if bit x 12 then (b.curCtx.counterAt (x % 2 ^ 12)).map some else some none

/-- A copy submitted to a free task entry, with a range entry for a local destination (R170, R254). -/
def State.submitted (b : State) (k : Task) (dst : Option (Nat × Nat)) : Option State :=
  if b.freeEntries = 0 then none
  else match dst with
    | none => some (b.receiveTask k).advance
    | some e =>
      if 32 ≤ (b.core (b.curTeam.coreAt e.1)).range.length then none
      else some ((b.takeRange k e.1 e.2).1.receiveTask (b.takeRange k e.1 e.2).2).advance

/-- Words of special registers, clauses, the matrix engine and box copies. -/
def engineResult (b : State) (i : Instr) : Option State :=
  let v := fun (n : BitVec 6) => (b.rdS n.toNat).toNat
  let v1 := fun (n : BitVec 6) => (b.rdS (n.toNat + 1)).toNat
  match i with
  | .mtsrUniform d r _ => (b.writeSpecial b.cur.team b.cur.party b.cur.lanes b.standing r.toNat fun _ => b.rdS d.toNat).map State.advance
  | .mtsrLane d h r _ =>
    (b.writeSpecial b.cur.team b.cur.party b.cur.lanes b.standing r.toNat fun l =>
      ((b.curParty.lane l).rd b.free l (64 * h.toNat + d.toNat)).setWidth 64).map State.advance
  | .clause n _ =>
    let T := b.curTeam
    let pc := (b.curParty.lane b.firstLane).pc
    if n.toNat = 0 ∨ 24 < n.toNat then none
    else match b.clauseWords pc (n.toNat + 1) with
    | .error _ => none
    | .ok ws => (clauseBody T.hdr.vregs T.hdr.width n.toNat ws).bind fun body =>
      if b.curParty.seq || !(dedup (b.cur.lanes.flatMap fun l => (b.curParty.lane l).bodyExports T.hdr.width body)).isEmpty then none
      else
        let c := if body.any fun j => familyOf j == .cross then b.metAt .clauseHeader else b
        some ((c.trace c.cur.team c.cur.party c.cur.lanes 4 2 (fun _ => pc) fun _ => w64 n.toNat).eachLane fun _ x =>
          { x with clause := some (pc + 4 * w64 (n.toNat + 1)), t := [] })
  | .clend r w x y z st =>
    if b.cur.lanes.all fun l => (b.curParty.lane l).clause == some (b.curParty.lane l).pc then
      let rs := exported r (slots w x y z)
      let owed := if st = 3 then b.curParty.owedAt b.cur.lanes rs else []
      some (b.eachLane fun _ L => { L with
        clause := none, t := []
        pend := L.pend.filterMap (Pend.atTrailer rs (st == 3)) ++ owed.filter fun e => !(L.pend.any fun q => q.tag == e.tag && q.reg == e.reg) })
    else none
  | .tcon .. | .wload .. | .mma .. | .mmac .. | .accRd .. | .tld .. | .tst .. => (longPlan b i).bind fun p => longResult p.1 p.2
  | .wswap _ => some (b.setCurParty { b.curParty with cur := !b.curParty.cur }).advance
  | .accAlloc h n _ =>
    let k := n.toNat + 1
    if h.toNat + k ≤ 64 ∧ ((List.range k).all fun j => !(b.tile (h.toNat + j)).allocated) = true ∧ b.tilesHeld + k ≤ b.curTeam.hdr.acctiles then
      some (b.setTiles h.toNat k (freshTile 0)).advance else none
  | .accFree h n _ =>
    if b.tilesOk h.toNat (n.toNat + 1) ∧ b.tilesBusy b.cur.team b.cur.party h.toNat (n.toNat + 1) = false then
      some (b.setTiles h.toNat (n.toNat + 1) {}).advance else none
  | .accAnc h n e _ =>
    if b.tilesOk h.toNat (n.toNat + 1) ∧ b.tilesBusy b.cur.team b.cur.party h.toNat (n.toNat + 1) = false then
      some (b.setTiles h.toNat (n.toNat + 1) (freshTile ((b.rdS e.toNat).setWidth 8))).advance else none
  | .accFlg d h c _ =>
    let t := b.tile h.toNat
    some ((if c = 1 then b.setTile h.toNat { t with nan := false, inexact := false, sat := false } else b).putS d t.flagWord)
  | .tshape k a _ =>
    if v a % 32 ≠ 0 then none
    else (b.got (v a) 4).bind fun q =>
      if (shapeOf (BitVec.ofNat 256 q.2)).cause.isSome then none
      else some (q.1.setCurParty { q.1.curParty with
        shapes := FMap.set none q.1.curParty.shapes k.toNat (some (BitVec.ofNat 256 q.2)) }).advance
  | .copy a e x y _ =>
    let n := v e
    let here := fun (l : Bool) => if l then some b.cur.team else none
    if n = 0 ∨ 2 ^ 32 < n then none
    else (b.counterWord (v1 e)).bind fun done =>
      b.submitted (b.newTask (.copy (v a) (v1 a) n (x == 1) (y == 1))
        [{ team := here (x == 1), base := v a, length := n, write := false }, { team := here (y == 1), base := v1 a, length := n, write := true }]
        none done) (if y == 1 then some (v1 a, n) else none)
  | .copyt a e t _ =>
    if v a % 32 ≠ 0 then none
    else (b.counterWord (v1 e)).bind fun done => (b.got (v a) 4).bind fun q =>
      let x := BitVec.ofNat 256 q.2
      let r := shapeOf x
      let idx := b.rdS (a.toNat + 1)
      let place := b.rdS e.toNat
      let rows := placeRows place r.localRows.1 r.localRows.2
      if r.cause.isSome ∨ 2 ^ 48 ≤ place.toNat ∨ rows.misplaced = true ∨ boxIndex idx 0 * r.bits % 8 ≠ 0 then none
      else
        let n := rows.end_ - rows.off
        q.1.submitted (q.1.newTask (.tile x idx place (t == 1))
          [{ team := none, base := (r.span idx).1, length := (r.span idx).2, write := t == 1 },
           { team := some q.1.cur.team, base := rows.off, length := n, write := !(t == 1) }] none done)
          (if t == 1 then none else some (rows.off, n))
  | .taskSub d a _ =>
    let T := b.curTeam
    let off := v a
    let n := 64 + 16 * cardRegions (Mem.read T.mem off 8)
    let card := cardOf (Mem.read T.mem off n)
    if off % 64 ≠ 0 ∨ T.alloc < off + 64 ∨ b.rangeBusy b.cur.team off 64 = true ∨ 192 < n ∨ T.alloc < off + n
        ∨ b.rangeBusy b.cur.team off n = true ∨ b.cardBad T.asid card = true ∨ (card.outside T.alloc).isSome then none
    else (b.curCtx.counterOf card.gate).bind fun g => (b.curCtx.counterOf card.done).bind fun e =>
      let k := b.newTask (card.job b.cur.team) (card.footprint b.cur.team) g e
      some (if b.freeEntries = 0 then b.putS d (-1) else (b.receiveTask k).putS d (w64 k.n))
  | .collPut a e _ =>
    if bits (v a) 31 8 ≠ 0 ∨ b.mayPut b.curTeam.asid (v a % 256) (v a / 2 ^ 32) = false then none
    else
      let c := b.setColl (v a % 256) ((b.coll (v a % 256)).put (w32 (v a / 2 ^ 32)))
      some (c.receiveTask { b.newTask (.contribution (b.rdS a.toNat) (b.rdS e.toNat)) [] none none with
        n := c.freeNumber taskEntries, rise := c.tide.rises }).advance
  | .launch d a e _ =>
    let word := b.rdS (a.toNat + 1)
    if bits word.toNat 63 51 ≠ 0 then none
    else (b.curCtx.queueAt (bits word.toNat 37 32)).bind fun qu =>
      if b.curCtx.badLaunchWord word.toNat then none
      else if v a % 64 ≠ 0 then some (b.putS d 1)
      else (b.got (v a) 8).bind fun q =>
        let acceptLaunch := fun (c : State) (h : Header) (ps : List W64) =>
          let r := c.acceptLaunch b.curTeam.slot (v a) qu word (some h) ps (.word c.curParty.core)
          r.1.putS d (match r.2 with | .result k => w64 k | _ => 0)
        match parseHeader (v a) q.2 with
        | none => some (q.1.putS d 1)
        | some h =>
          if h.params = 0 then some (acceptLaunch q.1 h [])
          else if v e % 8 ≠ 0 then none
          else (q.1.got (v e) h.params).map fun p => acceptLaunch p.1 h (wordsOf p.2 h.params)
  | .replay n a e _ =>
    if v a % 64 ≠ 0 then none
    else (b.got (v a) 8).bind fun q =>
      let g := graphOf q.2
      if g.bad then none
      else (q.1.counterWord g.done).bind fun done =>
        if (q.1.objectRefused (v a) g).isSome then none
        else (q.1.got (v a + g.bindbase) g.nbind).bind fun p => match p.1.checkBindings (v a) g (numbersOf p.2 8 g.nbind) with
        | (_, some _) => none
        | (c, none) => match c.locate c.curTeam.slot c.curTeam.alloc .write (v a) 8 with
          | .error .absent => none
          | _ => match (List.range 4).find? fun j => !bit g.busy j with
            | none => some (c.setFlags n.toNat false).advance
            | some j =>
              if g.pwords ≠ 0 ∧ v e % 8 ≠ 0 then none
              else (c.got (v e) g.pwords).bind fun w =>
                (w.1.writeSpan (v a + g.slotbase + 8 * g.pwords * j) (8 * g.pwords) w.2 (8 * g.pwords)).toOption.bind fun c =>
                  (c.writeSpan (v a + 7) 1 (bits q.2 63 56 + 2 ^ (4 + j)) 1).toOption.map fun c =>
                    (State.setFlags { c with
                      instances := c.instances ++ [{
                        slot := c.curTeam.slot, asid := c.curTeam.asid, object := w64 (v a), index := j, order := c.nextInst
                        started := false, team := c.cur.team, party := c.cur.party, core := c.curParty.core, done := done
                        step := c.curTeam.step, pc := (c.curParty.lane c.firstLane).pc }]
                      nextInst := c.nextInst + 1 } n.toNat true).advance
  | _ => none

/-- The strands of the team have met at `step.enter` with one step, which they enter and announce, and which their lead allows
(R175, R364). -/
def State.enteredStep (c : State) (x : W32) : Option State :=
  let T := c.curTeam
  if T.stepMet = false ∨ (T.strands.any fun k => (T.party k).stepOf != some x) = true ∨ x < T.step
      ∨ (c.tide.verdicts.any fun e => e.1 == T.asid) = true then none
  else
    let r := State.updateStep (c.setCurTeam { T.mapLanes (fun y => match y.wait with | .stepTeam z => { y with wait := .stepLead z } | _ => y) with
      step := x, entered := true })
    if r.leadOk r.curTeam.asid x then some r.advance else none

/-- Words of steps, versions, checkpoints, collectives, patterns and the stash (R175 to R185). -/
def trainingResult (b : State) (i : Instr) : Option State :=
  let v := fun (n : BitVec 6) => (b.rdS n.toNat).toNat
  let asid := b.curTeam.asid
  let served := b.ctrl.patEnable && b.ctrl.patAsid == asid
  match i with
  | .stepEnter a _ =>
    if b.curParty.seq then (if v a ≤ b.curTeam.step.toNat then some b.advance else none)
    else match b.curWait with
      | .stepLead y => if b.leadOk asid y then some b.advance else none
      | .stepTeam y => b.enteredStep y
      | _ => if 2 ^ 32 ≤ v a then none else ((b.metAt .rendezvous).hold (.stepTeam (w32 (v a)))).enteredStep (w32 (v a))
  | .stepPub a _ =>
    if 2 ^ 32 ≤ v a then none
    else some ((b.rings.filter fun r => b.ringOk r && b.ringOwner r == some asid).foldl
      (fun (c : State) r => c.publish r (w32 (v a))) b).advance
  | .verOpen a _ => match b.locate b.curTeam.slot b.curTeam.alloc .write (v a) 1 with
    | .ok (.ring npa _) => match b.writeFrame asid npa b.curTeam.step.toNat with
      | .ok q => some q.1.advance
      | .error _ => none
    | _ => none
  | .ckptFreeze d a _ =>
    if v a % 64 ≠ 0 then none
    else (b.got (v a) 8).bind fun q =>
      if ckptBad q.2 then none
      else if bits q.2 127 64 % 8 ≠ 0 then none
      else (q.1.counterWord (bits q.2 255 192)).bind fun done => (q.1.got (bits q.2 127 64) (bits q.2 44 32)).bind fun p =>
        let pages := numbersOf p.2 8 (bits q.2 44 32)
        if pages.any fun x => x % 2 ^ 21 != 0 then none
        else (p.1.freezePages p.1.curTeam.slot pages).toOption.bind fun fs =>
          match (List.range 16).find? fun n => (p.1.ckpt n).state != 1 with
          | none => some (p.1.putS d (-1))
          | some n =>
            let c := fs.foldl (fun (c : State) f => c.addPins f.1 f.2.toNat 1) p.1
            let r := c.startDrain { state := 1, slot := c.curTeam.slot, kind := bits q.2 19 16, target := w64 (bits q.2 191 128)
                                    frames := fs, done := done }
            some (State.putS { r.1 with ckpts := FMap.set {} r.1.ckpts n r.2 } d (w64 n))
  | .collOpen d a _ =>
    if v a % 64 ≠ 0 ∨ b.recordNear (v a) = false then none
    else (b.got (v a) 8).bind fun q =>
      if collRecordBad q.2 then none
      else
        let r := collRecordOf q.2
        (q.1.gotSpan (bits q.2 319 256) (4 * r.total)).bind fun p => (p.1.gotSpan (bits q.2 383 320) (8 * r.nbackup)).bind fun w =>
          let members := numbersOf p.2 4 r.total
          let entries := numbersOf w.2 8 r.nbackup
          if (members.any fun m => decide (2 ^ 17 ≤ m)) || pairsBad r entries then none
          else (members.findIdx? (· == w.1.systemModule)).bind fun me =>
            match (List.range 256).find? fun h => !(w.1.coll h).isOpen with
            | none => some (w.1.putS d (-1))
            | some h =>
              some ((w.1.setColl h { isOpen := true, gen := w.1.free, slot := w.1.curTeam.slot, asid := w.1.curTeam.asid, address := w64 (v a), me := me
                                     record := { r with members := members
                                                        pairs := entries.map fun e => (bits e 16 0, bits e 48 32) } }).putS d (w64 h))
  | .collWait d a _ =>
    let named : Option (Nat × W32) := match b.curWait with
      | .coll h step => some (h, step)
      | _ => if (b.openHandle asid (v a % 256)).isNone then none else some (v a % 256, w32 (v a / 2 ^ 32))
    named.bind fun n => (b.openHandle asid n.1).bind fun C =>
      if C.failed.any fun f => f.1 == n.2 then none else (C.closeWord n.2).map fun w => b.putS d (w64 w)
  | .collStat d a _ =>
    (b.openHandle asid (v a % 256)).bind fun C =>
      let step := w32 (v a / 2 ^ 32)
      match C.closeWord step with
      | some w => if C.failed.any fun f => f.1 == step then none else some (b.putS d (w64 w))
      | none => some (b.putS d (w64 (C.countsSoFar step)))
  | .gauge a e _ =>
    let n := bits (v e) 12 8
    (b.openHandle asid (v e % 256)).bind fun C =>
      if 16 < n ∨ (n ≠ 0 ∧ C.record.kind = 1) ∨ (n ≠ 0 ∧ v a % 8 ≠ 0) then none
      else (b.got (v a) (2 * n)).bind fun q =>
        let ws := wordsOf q.2 (2 * n)
        let rs := (List.range n).map fun j => ((ws[2 * j]?).getD 0, (ws[2 * j + 1]?).getD 0)
        if rs.any fun r => r.1.toNat % 4096 != 0 || r.2.toNat % 4096 != 0 then none
        else
          let C := q.1.coll (v e % 256)
          some (q.1.setColl (v e % 256) { C with regions := (C.puts, rs) :: C.regions }).advance
  | .patLd n a e _ =>
    let count := v e
    if count = 0 ∨ 256 < count ∨ served = false ∨ v a % 8 ≠ 0 then none
    else if b.pat.stopped || !b.pat.outstanding.isEmpty then some (b.setFlags n.toNat false).advance
    else (b.got (v a) (4 * count)).bind fun q =>
      let es := entriesOf q.2 count
      if (es.zipIdx.any fun x => entryBad x.2 x.1)
          || (es.any fun x => (entryFields x).dcoll && (q.1.curCtx.counterAt (entryFields x).counter).isNone) then none
      else some (State.setFlags { q.1.forgetHead with pat := { q.1.pat with
        entries := es, head := 0, outstanding := [], bubbles := [], ldCore := q.1.curParty.core, stopped := false
        header64 := none, gen := q.1.pat.gen + 1 } } n.toNat true).advance
  | .patNext d _ =>
    if !served then (match b.curWait with | .patNext .. => some (b.pairOut d (-1) 0) | _ => none)
    else match b.patHead with
      | none => some (b.pairOut d (-1) 0)
      | some e =>
        if e.kernel = 0 && (b.patUnmet e).isNone && !b.pat.stopped && b.patWaiters.isEmpty then
          some ((b.patConsume e).pairOut d e.word0 e.param) else none
  | .patDone a _ =>
    if !served || decide (256 ≤ v a) || !b.pat.outstanding.contains (v a) then none
    else some (if b.pat.isRefused (v a) then b else b.patRetire (v a)).advance
  | .stashPut d a _ =>
    let t : W8 := BitVec.ofNat 8 (v a)
    if !served || decide (256 ≤ v a) then none
    else if (b.pat.findSlot (· == .bound t)).isSome then some (b.putS d (-1))
    else match (b.pat.findSlot fun x => match x with | .reserved u _ => u == t | _ => false).or (b.pat.findSlot (· == .free)) with
      | none => some (b.putS d (-1))
      | some k => some (State.putS { b with pat := b.pat.setSlot k (.bound t) } d (b.slotBase k))
  | .stashGet d a _ =>
    if !served || decide (256 ≤ v a) then none
    else some (b.putS d (match b.pat.findSlot (· == .bound (BitVec.ofNat 8 (v a))) with | none => -1 | some k => b.slotBase k))
  | .stashFree a _ =>
    let t : W8 := BitVec.ofNat 8 (v a)
    if !served || decide (256 ≤ v a) then none
    else (b.pat.findSlot (· == .bound t)).map fun k =>
      let c := ({ b with pat := b.pat.setSlot k .free } : State).clearTags fun r => r.asid == asid && r.tag == t
      (if c.ctrl.upv then c.sendPattern c.ctrl.upmod.toNat (·.creditArrives asid) (.credit c.ctrl.upmod.toNat asid) else c).advance
  | _ => none

/-- The bytes of an image that can be read (R347, R350). -/
def State.gotImage (b : State) (A : Nat) : Option (State × Bytes) :=
  (b.got A 96).bind fun q =>
    let v := q.2 % 2 ^ 2048
    let n := imageCounts v
    if n = (0, 0, 0) ∧ q.2 / 2 ^ 2048 = 0 then
      some (q.1, { header := v, wide := [], serial := 0, records := [], tasks := [], launches := [] })
    else (q.1.got (A + bits v 127 64 - 8) 1).bind fun serial => (serial.1.gotSpan (A + bits v 927 896) (16 * n.1)).bind fun ts =>
      (ts.1.gotSpan (A + bits v 991 960) (64 * n.2.1)).bind fun ks => (ks.1.gotSpan (A + bits v 1055 1024) (128 * n.2.2)).map fun ls =>
        (ls.1, { header := v, wide := numbersOf (q.2 / 2 ^ 2048) 32 16, serial := serial.2
                 records := (numbersOf ts.2 16 n.1).map (· % 2 ^ 64), tasks := (numbersOf ks.2 64 n.2.1).map (· % 2 ^ 16)
                 launches := numbersOf ls.2 128 n.2.2 })

/-- The words of major 0x3F (R188). -/
def systemResult (b : State) (i : Instr) : Option State :=
  let v := fun (n : BitVec 6) => (b.rdS n.toNat).toNat
  match i with
  | .map d a e _ =>
    let entry := (b.rdS (a.toNat + 1)).toNat
    let asid := (b.rdS e.toNat).extractLsb' 0 16
    if !entryOk entry then none
    else match b.slotOf asid with
      | none => some (b.putS d 2)
      | some slot => match b.entryAt slot (v a) (entryStop entry) with
        | none => some (b.putS d 1)
        | some p =>
          let n := leafBytes (entryStop entry)
          some (((b.writePlace p 8 entry).dropLeaves asid (v a / n * n) n).putS d 0)
  | .unmap a e _ =>
    let asid := (b.rdS e.toNat).extractLsb' 0 16
    match (b.slotOf asid).bind fun slot => b.leafPlace slot (v a) with
    | none => some (b.dropLeaves asid (v a) 1).advance
    | some q =>
      let n := leafBytes q.1
      some ((b.writePlace q.2 8 0).dropLeaves asid (v a / n * n) n).advance
  | .tlbinv a e _ =>
    let asid := (b.rdS e.toNat).extractLsb' 0 16
    if v e / 2 ^ 16 % 4 = 0 then some (b.dropLeaves asid (v a) 1).advance
    else if v e / 2 ^ 16 % 4 = 1 then some (State.advance { b with tlb := b.tlb.filter fun w => w.asid != asid })
    else if v e / 2 ^ 16 % 4 = 2 then some (State.advance { b with tlb := [] })
    else none
  | .fqPop d n _ =>
    if b.fq.count ≠ 0 ∧ b.isBad (.near b.oldestRecord) 32 = true then none
    else match b.popFaultRecord with
    | none => some (b.setFlags n.toNat false).advance
    | some q => some ((((List.range 4).foldl (fun (c : State) j => c.setS (d.toNat + j) (w64 (q.1 / 2 ^ (64 * j)))) q.2).setFlags n.toNat true).advance)
  | .resume a e _ =>
    let asid := (b.rdS e.toNat).extractLsb' 0 16
    let c := b.resume (v a) asid
    some (State.advance { c with cyc := { c.cyc with resumed := (asid, v a) :: c.cyc.resumed } })
  | .ctxSave a e _ =>
    let slot := v a % 64
    if slot = b.curTeam.slot ∨ (b.ctx slot).resident = false ∨ v e % 4096 ≠ 0
        ∨ (b.teams.any fun x => x.2.live && x.2.resident && x.2.slot == slot) = true ∨ b.slotAsks slot = true then none
    else (b.writeFields (v e) (b.imageFields slot)).toOption.map fun w =>
      let img := b.imageOf slot
      let c := img.teams.foldl (fun (c : State) x =>
        if x.2.isHalted then c.partyRecord x.1 (x.2.holder.getD ((x.2.parties.head?.map (·.1)).getD 0)) 3 else c) w
      State.advance (({ c with images := FMap.set {} c.images (c.free + 1) img } : State).clearSlot slot)
  | .ctxRest a e _ =>
    let slot := v a % 64
    if (b.ctx slot).resident = true ∨ v e % 4096 ≠ 0 then none
    else (b.got (v e) 32).bind fun h =>
      if headerRefused h.1.ctxs h.2 then none
      else (h.1.gotImage (v e)).bind fun q =>
        if q.1.freeEntries < q.2.tasks.length then none
        else some (State.advance (State.updateStep { q.1.restoreImage slot q.2 with ctrl := { q.1.ctrl with mcfgFixed := true } }))
  | _ => none

/-- What a turn and a strand must be for such a word to act at once: a long word may run to its end, and `tcon`, a clause with a cross-lane
word and the `step.enter` that its strand comes to have the whole strand at the word (R77, R116, R160). -/
def State.Gathered (b : State) (i : Instr) : Prop :=
  match i with
  | .tcon .. => b.Met ∧ b.cur.units = none
  | .wload .. | .mma .. | .mmac .. | .accRd .. | .tld .. | .tst .. => b.cur.units = none
  | .stepEnter .. => b.curParty.seq = true ∨ (match b.curWait with | .stepLead _ | .stepTeam _ => True | _ => b.Met)
  | .clause n _ =>
    match b.clauseWords (b.curParty.lane b.firstLane).pc (n.toNat + 1) with
    | .ok ws => (match clauseBody b.curTeam.hdr.vregs b.curTeam.hdr.width n.toNat ws with
      | some body => (body.any fun j => familyOf j == .cross) = true → b.Met
      | none => True)
    | .error _ => True
  | _ => True

/-! ### Loads and stores of one form -/

/-- Destination, address register, base, bytes and registers of a load (R98). -/
def loadForm (i : Instr) : Option (BitVec 7 × BitVec 7 × BitVec 3 × Nat × Nat) :=
  match i with
  | .ldB d a e _ _ _ => some (d, a, e, 1, 1)
  | .ldH d a e _ _ _ => some (d, a, e, 2, 1)
  | .ldW d a e _ _ _ => some (d, a, e, 4, 1)
  | .ldD d a e _ _ _ => some (d, a, e, 8, 2)
  | .ldQ d a e _ _ _ => some (d, a, e, 16, 4)
  | _ => none

/-- Source, address register, base, bytes and registers of a store (R98). -/
def storeForm (i : Instr) : Option (BitVec 7 × BitVec 7 × BitVec 3 × Nat × Nat) :=
  match i with
  | .stB d a e _ _ _ => some (d, a, e, 1, 1)
  | .stH d a e _ _ _ => some (d, a, e, 2, 1)
  | .stW d a e _ _ _ => some (d, a, e, 4, 1)
  | .stD d a e _ _ _ => some (d, a, e, 8, 2)
  | .stQ d a e _ _ _ => some (d, a, e, 16, 4)
  | _ => none

/-- Address register, base, bytes and kind of the access of a lane memory word; b is the state before it (R96, R331). -/
def laneForm (b : State) (i : Instr) : Option (BitVec 7 × BitVec 3 × Nat × Acc) :=
  match i with
  | .ldv _ a e _ _ _ | .ldvTag _ a e _ _ _ => some (a, e, 2 ^ (b.control e % 8), .read)
  | .atom _ a e _ _ _ => some (a, e, atomBytes (bits (b.control e) 6 4), .atomic)
  | .red _ a e _ _ _ => some (a, e, redBytes (b.control e), .atomic)
  | i => ((loadForm i).map fun f => (f.2.1, f.2.2.1, f.2.2.2.1, Acc.read)).or ((storeForm i).map fun f => (f.2.1, f.2.2.1, f.2.2.2.1, Acc.write))

/-- An address of n bytes in the local window of the issuing team, within its allocation and under no range entry: its offset. -/
structure State.Local (b : State) (A n off : Nat) : Prop where
  window : inWindow b.curCtx.localBase A = true
  below : A < 2 ^ 57
  offset : off = A - b.curCtx.localBase
  fits : off + n ≤ b.curTeam.alloc
  free : b.rangeBusy b.cur.team off n = false

/-- After n bytes of v were written at a in a byte table: they read as v's bytes, and every other byte as before (R7). -/
def BytesWritten (old new : List (Nat × W8)) (a n v : Nat) : Prop :=
  ∀ x, FMap.get 0 new x = if a ≤ x ∧ x < a + n then BitVec.ofNat 8 (v / 2 ^ (8 * (x - a))) else FMap.get 0 old x

/-- After a program's store of n bytes of v at a: as `BytesWritten`, but bytes that back a return stack keep their values (R257). -/
def BytesStored (bs : List (Nat × Nat)) (old new : List (Nat × W8)) (a n v : Nat) : Prop :=
  ∀ x, FMap.get 0 new x =
    if (a ≤ x ∧ x < a + n) ∧ hiddenAt bs (.near x) 0 = false then BitVec.ofNat 8 (v / 2 ^ (8 * (x - a))) else FMap.get 0 old x

/-- v is n bytes of near memory from p as a program reads them: those that back a return stack may be anything (R257, log 15). -/
def BytesRead (bs : List (Nat × Nat)) (near : List (Nat × W8)) (p n v : Nat) : Prop :=
  v < 2 ^ (8 * n) ∧ ∀ x, x < n → hiddenAt bs (.near p) x = false → BitVec.ofNat 8 (v / 2 ^ (8 * x)) = FMap.get 0 near (p + x)

/-! ### Traps and parking -/

/-- A word is looked at in a running team that no breakpoint and no full trace buffer stops. -/
structure State.Looks (s : State) : Prop where
  issuing : s.issuing = true
  unbroken : ∀ l ∈ s.cur.lanes, s.breakAt l = none
  running : s.curTeam.halt = .running
  untraced : s.dbg.trcStall = false

/-- Beside the teams and what trace records do, t is b: a die that had lost records may report them, by vector 8 (R440, R447). -/
def State.TracedFrom (b t : State) : Prop :=
  { t with teams := b.teams, dbg := b.dbg, cur := b.cur, host := { t.host with pendingV := b.host.pendingV }, out := b.out } = b

/-- The lanes `ls` of the issuing party have trapped with a cause, recorded for a lane field; beside the trace, nothing else has
changed (R33, R135, R332, R338). -/
structure State.Trapped (b t : State) (ls : List Nat) (lane : Nat) (c : Cause) : Prop where
  rest : b.TracedFrom t
  others : ∀ j, j ≠ b.cur.team → t.team j = b.team j
  memory : t.curTeam.mem = b.curTeam.mem ∧ t.curTeam.tiles = b.curTeam.tiles ∧ t.curTeam.bars = b.curTeam.bars
  halt : t.curTeam.halt = .skid b.cur.party b.now
  fault : t.curParty.fault = faultWord c.kind c.detail lane 0 c.info
  stopped : ∀ l ∈ ls, (t.curParty.lane l).wait = .stopped ∧ (t.curParty.lane l).pc = (b.curParty.lane l).pc
  uniform : t.curParty.s = b.curParty.s
  lanes : ∀ l, (t.curParty.lane l).v = (b.curParty.lane l).v ∧ (t.curParty.lane l).t = (b.curParty.lane l).t
    ∧ (t.curParty.lane l).c = (b.curParty.lane l).c ∧ (t.curParty.lane l).fflags = (b.curParty.lane l).fflags
    ∧ (t.curParty.lane l).stack = (b.curParty.lane l).stack ∧ (t.curParty.lane l).pc = (b.curParty.lane l).pc

/-- The lanes `ls` of the issuing party have parked at their word on an address with one fault record; no register, local memory or
far memory has changed (R100). -/
structure State.ParkedOn (b t : State) (ls : List Nat) (a : W64) : Prop where
  lanes : ∀ l ∈ ls, (t.curParty.lane l).wait = .parked a false ∧ (t.curParty.lane l).pc = (b.curParty.lane l).pc
  registers : ∀ l, (t.curParty.lane l).v = (b.curParty.lane l).v ∧ (t.curParty.lane l).c = (b.curParty.lane l).c
  uniform : t.curParty.s = b.curParty.s
  stores : t.far = b.far ∧ t.curTeam.mem = b.curTeam.mem
  queue : { t.fq with count := b.fq.count, peak := b.fq.peak, held := b.fq.held } = b.fq
  record : t.fq.count + t.fq.held.length = b.fq.count + b.fq.held.length + 1

/-- A cause of R33 that applies to a word as a whole at the issuing party, by its detail. -/
def State.Illegal (b : State) (i : Instr) (u : Uses) (d : Nat) : Prop :=
  match d with
  | 3 => b.reservedIn i = true
  | 4 => ((u.vs ++ u.vd).all (groupOk b.curTeam.hdr.vregs) && (u.ss ++ u.sd).all pairOk) = false
  | 5 => b.tempOutside u = true
  | 7 => streamOk i b.curParty.seq = false
  | 8 => privileged i = true ∧ b.curParty.priv = false
  | 9 => srForbidden i b.curParty.seq b.curParty.priv = true
  | _ => False

/-! ### Numbers -/

/-- A magnitude code of a format as a count of 2^u, for u at or below the exponent of its smallest subnormal. -/
def Fmt.count (f : Fmt) (u : Int) (code : Nat) : Nat := match f.read code with | .num _ m e => m * 2 ^ (e - u).toNat | _ => 0

/-- p × 2^u is a number that the magnitude x stands for: the one, or one strictly between it and the next. -/
def Mag.Has (x : Mag) (p : Nat) (u : Int) : Prop :=
  u ≤ x.e ∧ if x.more then x.n * 2 ^ (x.e - u).toNat < p ∧ p < (x.n + 1) * 2 ^ (x.e - u).toNat else p = x.n * 2 ^ (x.e - u).toNat

/-- Code c is the finite value nearest to p × 2^u; of two as near, the larger one or the one with an even code (R61). -/
def Fmt.Nearest (f : Fmt) (u : Int) (p c : Nat) (away : Bool) : Prop :=
  c ≤ f.maxCode ∧ ∀ d, d ≤ f.maxCode →
    ((f.count u c : Int) - p).natAbs ≤ ((f.count u d : Int) - p).natAbs
    ∧ (((f.count u c : Int) - p).natAbs = ((f.count u d : Int) - p).natAbs → d ≠ c → if away then d < c else c % 2 = 0)

/-- An integer element of R136 as a number; none for another format. -/
def intElem (fmt v : Nat) : Option Int :=
  if fmt = 4 then some (signed 16 v) else if fmt = 8 then some (signed 8 v) else if fmt = 9 ∨ fmt = 16 then some v
  else if fmt = 15 then some (signed 4 v) else if fmt = 18 then some (signed 2 v) else if fmt = 19 then some (if v = 0 then 1 else -1) else none

/-! ### Events -/

/-- The state in which an event acts: the free value has counted on. -/
def State.raised (s : State) : State := { s with free := s.free + 1 }

/-- A party where its handler takes over: every lane that is not parked stands at the handler with no clause open, the level is
supervisor, and what R340 names is saved; registers stay, and parked lanes stay parked at their words, what they still owe at most
marked to be written by the time of R341. -/
structure Party.Entered (p q : Party) (handler : W64) : Prop where
  lanes : ∀ l ∈ p.active, (p.lane l).wait.isParked = false →
    (q.lane l).pc = handler ∧ (q.lane l).wait = .none ∧ (q.lane l).clause = none
  parked : ∀ l ∈ p.active, (p.lane l).wait.isParked = true → (q.lane l).pc = (p.lane l).pc ∧ (q.lane l).wait = (p.lane l).wait
    ∧ (q.lane l).clause = (p.lane l).clause
    ∧ ((q.lane l).pend.map fun e => { e with drain := none }) = (p.lane l).pend.map fun e => { e with drain := none }
  level : q.priv = true
  units : ∀ l ∈ p.active, (q.lane l).unit = 0
  saved : ∃ v, q.save = some v ∧ v.priv = p.priv
    ∧ ∀ l ∈ p.active, FMap.get 0 v.pcs l = (p.lane l).pc ∧ FMap.get (0, 0) v.units l = ((p.lane l).unit, (p.lane l).units)
  uniform : q.s = p.s
  registers : ∀ l, (q.lane l).v = (p.lane l).v ∧ (q.lane l).c = (p.lane l).c ∧ (q.lane l).stack = (p.lane l).stack

/-- Neither memory, nor any team, nor a counter differs. -/
structure State.SameStores (s t : State) : Prop where
  near : t.near = s.near
  far : t.far = s.far
  teams : t.teams = s.teams
  counters : t.counters = s.counters

end Sys2Proof.Machine
end

