-- ==== Sys2Proof/Certificates/Slice0/Obligations.lean ====
section
/-! DEFINITION. The statements for the provers. In them s is a state in which a party issues the word i, `s.before i` is the state
that the word's own effect starts from, and t is the state after it. -/

open Sys2Proof Sys2Proof.Machine

/-! ### Encoding -/

/-- Words written out from the opcode maps (R30, R31) and the formats (R18) decode to what they stand for. -/
def Obligations.SpecWordsDecode : Prop :=
  decode 0b0_000000_0000001_0000010_0000011_00_00#32 = .ok (.add 1 2 3 0 0)
  ∧ decode 0b0_001011_0000101_0000110_111111111_01#32 = .ok (.addi 5 6 (-1) 1)
  ∧ decode 0b0_010011_0001000_0001010_0001100_01_10#32 = .ok (.ffma 8 10 12 1 2)
  ∧ decode 0b0_100100_0000010_0000000_0000000_00_00#32 = .ok (.elect 2 0)
  ∧ decode 0b0_101000_000_11111111111111111111_00#32 = .ok (.bra 0 (-1) 0)
  ∧ decode 0b0_110000_0000111_0001001_010_010_001_11#32 = .ok (.ldW 7 9 2 2 1 3)
  ∧ decode 0b1_000000_000011_000100_000101_00000_00#32 = .ok (.sadd 3 4 5 0)
  ∧ decode 0b1_001110_000010_000000_11111111100_00#32 = .ok (.sloop 2 (-4) 0)
  ∧ decode 0b1_010101_000000_000000_000000_00000_00#32 = .ok (.wswap 0)
  ∧ decode 0b1_101011_000000_000001_000010_00000_00#32 = .ok (.taskSigAdd 1 2 0)
  ∧ decode 0b1_110001_000000_000101_000000_00000_00#32 = .ok (.stepPub 5 0)
  ∧ decode 0b1_111110_000000_000000_000000_00001_00#32 = .ok (.eret 0)
  ∧ decode 0b1_111111_000010_000100_000110_00000_00#32 = .ok (.map 2 4 6 0)

/-- Decoding undoes encoding: every field of every well-formed word comes back (R18, R30, R31). -/
def Obligations.DecodeEncode : Prop :=
  ∀ (i : Instr) (w : W32), wellFormed i = true → encode i = some w → decode w = .ok i

/-- Encoding undoes decoding: a word that decodes is the one word of its instruction, so that no bit of it is ignored (R18). -/
def Obligations.EncodeDecode : Prop :=
  ∀ (w : W32) (i : Instr), decode w = .ok i → encode i = some w

/-- R16: the two words are refused with detail 1, and no instruction has either as its word. -/
def Obligations.IllegalWords : Prop :=
  decode 0x00000000#32 = .error .illegal ∧ decode 0xFFFFFFFF#32 = .error .illegal ∧ Reject.illegal.detail = 1
  ∧ ∀ i w, wellFormed i = true → encode i = some w → w ≠ 0x00000000#32 ∧ w ≠ 0xFFFFFFFF#32

/-! ### Stepping -/

/-- A turn lets the port of a party issue (R206): at most two cycles pass until the port may; the party that it takes, the named one
where no other is ready before it, fetches the word at which its eligible lanes stand, keeps what the fetch leaves in the caches, and
the turn is exec of the instruction that the word decodes to; the step then saves pre-empted teams (R200, R218). That turns stand in an
agenda, and which of several ready strands goes first where R206 does not say, are the model's choice (logs 24, 69, 74). -/
def Obligations.StepRunsDecodedWord : Prop :=
  (∀ (s : State) (t k : Nat) (serve : List Nat) (same : Bool) (rest : List Turn) (w : Nat) (i : Instr),
    s.agenda = .issue t k serve same :: rest → s.running = true →
    let a : State := if same then { s with agenda := rest } else State.tick { s with agenda := rest }
    let p := (a.passBarred t k).passBarred t k
    let q := p.chosen t k
    let ls := p.nextRun q.1 q.2
    let c : State := { p.claim q.1 q.2 with cur := { team := q.1, party := q.2, lanes := ls, serve := serve } }
    let pc := ((c.party q.1 q.2).lane (ls.head?.getD 0)).pc
    ls ≠ [] → c.fetchWord q.1 q.2 pc.toNat = .ok w → decode (w32 w) = .ok i →
    step s = Result.finish (match exec i (c.keepWord q.1 q.2 pc.toNat w) with
      | .next u => .next (if (u.party q.1 q.2).lastIssue = p.now then u.busyNow q.1 else u)
      | r => r))
  ∧ (∀ (s : State) (t k : Nat), s.nextRun t k ≠ [] → s.portFree t k = true →
      (∀ p ∈ s.readyParties, (s.party p.2.1 p.2.2).core = (s.party t k).core → s.portOf p.2.1 p.2.2 = s.portOf t k → p.2 = (t, k)) →
      s.chosen t k = (t, k))
  ∧ ∀ (s : State) (t k : Nat), s.barred t k = false → s.passBarred t k = s

/-- A turn whose word cannot be fetched, or is no instruction, is exec of the event that takes the trap of R93 or R33; a turn of a
machine event is exec of that event, after a cycle where it would come too late in this one. R33 and R93 give the traps; that events are
turns of an agenda, when one comes too late, and what is noted of its order are the model's choice (log 24). -/
def Obligations.StepTakesEvents : Prop :=
  (∀ (s : State) (i : Instr) (rest : List Turn), s.agenda = .event i :: rest → isEvent i = true →
    let a : State := { s with agenda := rest }
    (a.running = false ∨ a.tooLate i 0 0 = false → step s = Result.finish (exec i (a.noteRank i 0 0)))
    ∧ (a.running = true → a.tooLate i 0 0 = true → step s = Result.finish (exec i (a.tick.noteRank i 0 0)))
    ∧ { a.noteRank i 0 0 with cyc := s.cyc } = a)
  ∧ ∀ (s : State) (t k : Nat) (ls serve : List Nat),
    let pc := ((s.party t k).lane (ls.head?.getD 0)).pc
    let c : State := { s with cur := { team := t, party := k, lanes := ls, serve := serve } }
    (∀ f, c.fetchWord t k pc.toNat = .error f → s.runLanes t k ls serve = exec (.instructionFetchFault f pc) c)
    ∧ (∀ w r, c.fetchWord t k pc.toNat = .ok w → decode (w32 w) = .error r →
        s.runLanes t k ls serve = exec (.illegalInstruction r.detail) (c.keepWord t k pc.toNat w))

/-- Every instruction answers a next state for a live resident team's lanes: none stops the machine. -/
def Obligations.EveryInstructionAnswers : Prop :=
  ∀ (s : State) (i : Instr), s.issuing = true → ∃ t, exec i s = .next t

/-- A step never stops: in every state, reached by a run or not, it answers a next state. -/
def Obligations.StepAlwaysAnswers : Prop :=
  ∀ s : State, ∃ t, step s = .next t

/-! ### Memory and registers -/

/-- R7: a value of n bytes is stored with bits [7:0] at the lowest address, reads back whole, and leaves every other byte alone. -/
def Obligations.LittleEndian : Prop :=
  ∀ (m : List (Nat × W8)) (a n v : Nat),
    Mem.read (Mem.write m a n v) a n = v % 2 ^ (8 * n) ∧ BytesWritten m (Mem.write m a n v) a n v

/-- R270: a far byte written under one key identifier reads back under it, and under another identifier never as its plaintext. -/
def Obligations.FarBytesAreKeyed : Prop :=
  ∀ (s : State) (a k j v : Nat), k < 2 ^ 13 → j < 2 ^ 13 →
    ((s.writePlace (.far a k) 1 v).farByte k a = BitVec.ofNat 8 v)
    ∧ (k ≠ j → (s.writePlace (.far a k) 1 v).farByte j a ≠ BitVec.ofNat 8 v)

/-- A write at a place in near or far memory gives the listed bytes of that memory their values and changes no other; of the rest of the
machine, the units in error that it covers whole, and no others, are sound again (R7, R270, R351). -/
def Obligations.PhysicalWriteFrame : Prop :=
  ∀ (s : State) (a k n v : Nat),
    (let t := s.writePlace (.near a) n v
     BytesWritten s.near t.near a n v ∧ { t with near := s.near, bad := s.bad } = s
       ∧ ∀ u, u ∈ t.bad ↔ u ∈ s.bad ∧ Place.covers (.near a) n u = false)
    ∧ (let t := s.writePlace (.far a k) n v
       (∀ x, a ≤ x → x < a + n → t.farByte k x = BitVec.ofNat 8 (v / 2 ^ (8 * (x - a))))
       ∧ (∀ x, ¬ (a ≤ x ∧ x < a + n) → FMap.get {} t.far x = FMap.get {} s.far x)
       ∧ { t with far := s.far, bad := s.bad } = s ∧ ∀ u, u ∈ t.bad ↔ u ∈ s.bad ∧ Place.covers (.far a k) n u = false)

/-- R209: a lane reads a register as stored, or, where a write is not yet due, the value before that write. -/
def Obligations.ReadsOldOrNew : Prop :=
  ∀ (x : Lane) (free lane n : Nat),
    ((∀ e ∈ x.pend, e.reg = .v n → e.early = false) → x.rd free lane n = x.reg n)
    ∧ (x.rd free lane n = x.reg n ∨ ∃ e ∈ x.pend, e.reg = .v n ∧ e.early = true ∧ x.rd free lane n = e.old.setWidth 32)

/-! ### Lane words -/

/-- R54 to R59: every integer lane word goes to the next word with the result of its rule in each issuing lane, computed from the
values before it, and changes nothing else. -/
def Obligations.LaneIntegerResults : Prop :=
  ∀ (s : State) (i : Instr), laneInteger i = true → s.Ready i →
    ∃ t, exec i s = .next t ∧ (s.before i).Wrote t i fun l => intWrite (s.before i) l i

/-- R60 to R74: every floating lane word writes its result and raises its flags in each issuing lane, and changes nothing else. The
operations that give the results: a NaN operand gives the canonical NaN, and NV when it signals; infinities add and multiply as IEEE 754
has it; `fmin`, `fmax` and `fcmp` order values by their size, with −0 below +0 for the first two alone; the class bits, conversions and
special inputs are those of R67 to R71 and R74. What finite values round to is `FloatRounding`'s. -/
def Obligations.LaneFloatResults : Prop :=
  (∀ (s : State) (i : Instr), laneFloating i = true → s.Ready i →
    ∃ t, exec i s = .next t ∧ (s.before i).Wrote t i fun l => floatWrite (s.before i) l i)
  ∧ (∀ f ∈ [F32, F64, F16, BF16],
    (∀ mode x y z, x.isNan = true ∨ y.isNan = true →
      let nv := fun (vs : List FVal) => if FVal.nan true ∈ vs then fNV else 0
      f.addVals mode x y = (f.nanBits, nv [x, y]) ∧ f.mulVals mode x y = (f.nanBits, nv [x, y])
      ∧ f.fmaVals mode x y z = (f.nanBits, nv [x, y, z]))
    ∧ (∀ mode a b n m e,
      f.addVals mode (.inf a) (.inf b) = (if a = b then (f.infBits a, 0) else (f.nanBits, fNV))
      ∧ f.addVals mode (.inf a) (.num b m e) = (f.infBits a, 0) ∧ f.addVals mode (.num b m e) (.inf a) = (f.infBits a, 0)
      ∧ f.mulVals mode (.inf a) (.inf b) = (f.infBits (a != b), 0)
      ∧ (∀ x y, (x = .inf a ∧ y = .num b n e) ∨ (x = .num a n e ∧ y = .inf b) →
        f.mulVals mode x y = (if n = 0 then (f.nanBits, fNV) else (f.infBits (a != b), 0))
        ∧ ∀ z, f.fmaVals mode x y z = (if n = 0 then (f.nanBits, fNV) else f.addVals mode (.inf (a != b)) z))
      ∧ (∀ z, f.fmaVals mode (.inf a) (.inf b) z = f.addVals mode (.inf (a != b)) z)
      ∧ f.fmaVals mode (.num a n e) (.num b m e) (.nan true) = (f.nanBits, fNV)
      ∧ f.fmaVals mode (.num a n e) (.num b m e) (.nan false) = (f.nanBits, 0))
    ∧ (∀ v,
      let mag := v % 2 ^ (f.w - 1)
      let neg := v / 2 ^ (f.w - 1) % 2 = 1
      let top := 2 ^ (f.w - 1 - f.F) - 1
      (mag / 2 ^ f.F = top → mag % 2 ^ f.F ≠ 0 →
        f.read v = .nan (decide (mag / 2 ^ (f.F - 1) % 2 = 0)) ∧ f.classBit v = (if mag / 2 ^ (f.F - 1) % 2 = 0 then 8 else 9))
      ∧ (mag / 2 ^ f.F = top → mag % 2 ^ f.F = 0 → f.read v = .inf (decide neg) ∧ f.classBit v = (if neg then 0 else 7))
      ∧ (mag = 0 → f.classBit v = (if neg then 3 else 4))
      ∧ (0 < mag → mag / 2 ^ f.F = 0 → f.classBit v = (if neg then 2 else 5))
      ∧ (0 < mag / 2 ^ f.F → mag / 2 ^ f.F < top → f.classBit v = (if neg then 1 else 6)))
    ∧ ∀ a b,
      let x := f.read a
      let y := f.read b
      let un := x.isNan = true ∨ y.isNan = true
      let nv := if x = .nan true ∨ y = .nan true then fNV else 0
      (∀ big, (f.minMax big a b).2 = nv
        ∧ (x.isNan = true → (f.minMax big a b).1 = (if y.isNan then f.nanBits else b))
        ∧ (x.isNan = false → y.isNan = true → (f.minMax big a b).1 = a)
        ∧ (¬ un → x.lt y = true ∨ y.lt x = false ∧ x.isNeg = true ∧ y.isNeg = false → (f.minMax big a b).1 = (if big then b else a))
        ∧ (¬ un → y.lt x = true ∨ x.lt y = false ∧ y.isNeg = true ∧ x.isNeg = false → (f.minMax big a b).1 = (if big then a else b)))
      ∧ (∀ rel, rel < 8 →
        let r := f.rel rel a b
        (un → r.1 = (rel == 1 || rel == 6))
        ∧ (¬ un → r.1 = (if rel = 0 then !x.lt y && !y.lt x else if rel = 1 then x.lt y || y.lt x else if rel = 2 then x.lt y
            else if rel = 3 then !y.lt x else if rel = 4 then y.lt x else if rel = 5 then !x.lt y else rel == 7))
        ∧ r.2 = (if 2 ≤ rel ∧ rel ≤ 5 ∧ un then fNV else nv)))
  ∧ (∀ a m e b n g u, u ≤ e → u ≤ g →
      let z := fun (neg : Bool) (k : Nat) => if neg then -(k : Int) else k
      (FVal.lt (.num a m e) (.num b n g) = decide (z a (m * 2 ^ (e - u).toNat) < z b (n * 2 ^ (g - u).toNat)))
      ∧ (FVal.lt (.inf a) (.num b n g) = a) ∧ (FVal.lt (.num b n g) (.inf a) = !a) ∧ FVal.lt (.inf a) (.inf b) = (a && !b))
  ∧ (∀ src ∈ [F32, F64, F16, BF16], ∀ dst ∈ [F32, F64, F16, BF16], ∀ mode sat v,
      (∀ s, src.read v = .nan s → convert src dst mode sat v = (dst.nanBits, if s then fNV else 0))
      ∧ (∀ n, src.read v = .inf n →
          convert src dst mode sat v = (if sat then (dst.sign n dst.maxCode, fNX) else (dst.infBits n, 0)))
      ∧ ∀ n m e, src.read v = .num n m e →
        (m = 0 → convert src dst mode sat v = (dst.sign n 0, 0))
        ∧ (m ≠ 0 →
          let r := dst.round mode n { n := m, e := e }
          convert src dst mode sat v = (if sat = true ∧ r.2.getLsbD 2 = true then (dst.sign n dst.maxCode, fNX) else (dst.sign n r.1, r.2))))
  ∧ (∀ src ∈ [F32, F64, F16, BF16], ∀ (mode : Nat) (lo hi : Int) (v : Nat),
      let r := toInteger src mode lo hi v
      (∀ s, src.read v = .nan s → r = (0, fNV)) ∧ (∀ n, src.read v = .inf n → r = (if n then lo else hi, fNV))
      ∧ ∀ n m e u, src.read v = .num n m e → u ≤ e → u ≤ 0 → mode < 5 →
        let p := m * 2 ^ (e - u).toNat
        let one := 2 ^ (-u).toNat
        ∃ k : Nat, (if mode = 0 then 2 * ((k : Int) * one - p).natAbs ≤ one ∧ (2 * ((k : Int) * one - p).natAbs = one → k % 2 = 0)
            else if mode = 4 then 2 * ((k : Int) * one - p).natAbs ≤ one ∧ (2 * ((k : Int) * one - p).natAbs = one → p < k * one)
            else if mode = 2 ∧ n = false ∨ mode = 3 ∧ n = true then p ≤ k * one ∧ k * one < p + one
            else k * one ≤ p ∧ p < (k + 1) * one)
          ∧ (let z : Int := if n then -(k : Int) else k
             r = if z < lo then (lo, fNV) else if hi < z then (hi, fNV) else (z, if k * one = p then 0 else fNX)))
  ∧ (∀ dst ∈ [F32, F64, F16, BF16], ∀ mode (z : Int), ofInteger dst mode z = (if z = 0 then (0, 0)
      else (dst.sign (decide (z < 0)) (dst.round mode (decide (z < 0)) { n := z.natAbs, e := 0 }).1
        , (dst.round mode (decide (z < 0)) { n := z.natAbs, e := 0 }).2)))
  ∧ (∀ f ∈ [F32, F64], ∀ mode v,
      let top : Int := if f = F32 then 128 else 1024
      (∀ s, f.read v = .nan s → ∀ r ∈ [sfRcp f mode v, sfSqrt f mode v, sfRsqrt f v, sfExp2 f v, sfLog2 f v],
        r = (f.nanBits, if s then fNV else 0))
      ∧ (f.read v = .inf false → sfRcp f mode v = (0, 0) ∧ sfSqrt f mode v = (f.infBits false, 0) ∧ sfRsqrt f v = (0, 0)
          ∧ sfExp2 f v = (f.infBits false, 0) ∧ sfLog2 f v = (f.infBits false, 0))
      ∧ (f.read v = .inf true → sfRcp f mode v = (f.sign true 0, 0) ∧ sfSqrt f mode v = (f.nanBits, fNV) ∧ sfRsqrt f v = (f.nanBits, fNV)
          ∧ sfExp2 f v = (0, 0) ∧ sfLog2 f v = (f.nanBits, fNV))
      ∧ (∀ n e, f.read v = .num n 0 e → sfRcp f mode v = (f.infBits n, fDZ) ∧ sfRsqrt f v = (f.infBits n, fDZ)
          ∧ sfSqrt f mode v = (f.sign n 0, 0) ∧ sfLog2 f v = (f.infBits true, fDZ))
      ∧ (∀ m e, f.read v = .num true m e → m ≠ 0 →
          sfSqrt f mode v = (f.nanBits, fNV) ∧ sfRsqrt f v = (f.nanBits, fNV) ∧ sfLog2 f v = (f.nanBits, fNV))
      ∧ (∀ m e u, f.read v = .num false m e → u ≤ e → u ≤ 0 → top.toNat * 2 ^ (-u).toNat ≤ m * 2 ^ (e - u).toNat →
          sfExp2 f v = (f.infBits false, fOF ||| fNX))
      ∧ (∀ n m e u (k : Int), f.read v = .num n m e → u ≤ e → u ≤ 0 → f.qmin ≤ k → k < top →
          (if n then -((m * 2 ^ (e - u).toNat : Nat) : Int) else (m * 2 ^ (e - u).toNat : Nat)) = k * (2 ^ (-u).toNat : Nat) →
          (sfExp2 f v).2 = 0 ∧ (sfExp2 f v).1 ≤ f.maxCode ∧ f.count f.qmin (sfExp2 f v).1 = 2 ^ (k - f.qmin).toNat)
      ∧ ∀ (j : Nat) e, f.read v = .num false (2 ^ j : Nat) e →
          ∃ c, c ≤ f.maxCode ∧ sfLog2 f v = (f.sign (decide ((j : Int) + e < 0)) c, 0)
            ∧ f.count f.qmin c = ((j : Int) + e).natAbs * 2 ^ (-f.qmin).toNat)
  ∧ ∀ v,
      (∀ s, F32.read v = .nan s → ∀ r ∈ [sfTrig false F32 v, sfTrig true F32 v, sfTanh F32 v, sfLgst F32 v],
        r = (0x7FC00000, if s then fNV else 0))
      ∧ (∀ n, F32.read v = .inf n → sfTrig false F32 v = (0x7FC00000, fNV) ∧ sfTrig true F32 v = (0x7FC00000, fNV)
          ∧ sfTanh F32 v = (F32.sign n 0x3F800000, 0) ∧ sfLgst F32 v = (if n then 0 else 0x3F800000, 0))
      ∧ ∀ n e, F32.read v = .num n 0 e → sfTrig false F32 v = (F32.sign n 0, 0) ∧ sfTrig true F32 v = (0x3F800000, 0)
          ∧ sfTanh F32 v = (F32.sign n 0, 0) ∧ sfLgst F32 v = (0x3F000000, 0)

/-- R60 to R64, R73: what the floating words round. A magnitude, exact or known to lie between two neighbouring multiples, becomes the
nearest code of the format, or the next one toward or away from zero, with overflow from half a unit beyond the largest (directed: from
one unit, or at once) and with NX and UF as R62 has them; sums, products and fused sums are exact before it; `sqrt`, `rcp` and `rsqrt`
start from the greatest multiple that their exact result reaches. `rsqrt` answers within 1 ulp; the others of R73 take their value from
an enclosure, of which every value taken is within k ulp (log 6); that the series enclose the exact results is not stated. -/
def Obligations.FloatRounding : Prop :=
  ∀ f ∈ [F32, F64, F16, BF16, TF19, E5M2, E4M3, E3M4, E3M2, E2M3, E2M1],
    (∀ (neg : Bool) (x : Mag) (p : Nat) (u : Int), x.n ≠ 0 → (x.more = false ∨ 2 ^ (f.F + 1) ≤ x.n) → x.Has p u → u ≤ f.qmin →
      let top := f.count u f.maxCode
      let ulp := top - f.count u (f.maxCode - 1)
      let normal := f.count u (2 ^ f.F)
      let low := f.count u 1
      let flags := fun (c : Nat) (tiny : Prop) [Decidable tiny] =>
        if f.count u c = p then 0 else if tiny then fUF ||| fNX else fNX
      (∀ mode, mode = 0 ∨ mode = 4 →
        let r := f.round mode neg x
        let large := if mode = 0 ∧ f.maxCode % 2 = 0 then 2 * top + ulp < 2 * p else 2 * top + ulp ≤ 2 * p
        (large → r = (f.inf.getD f.maxCode, fOF ||| fNX))
        ∧ (¬ large → f.Nearest u p r.1 (mode == 4) ∧ r.2 = flags r.1 (4 * p + low < 4 * normal)))
      ∧ ∀ mode, mode = 1 ∨ mode = 2 ∨ mode = 3 →
        let r := f.round mode neg x
        let up := mode = 2 ∧ neg = false ∨ mode = 3 ∧ neg = true
        (up → (top < p → r = (f.inf.getD f.maxCode, fOF ||| fNX))
          ∧ (p ≤ top → r.1 ≤ f.maxCode ∧ p ≤ f.count u r.1 ∧ (∀ d, d ≤ f.maxCode → p ≤ f.count u d → r.1 ≤ d)
              ∧ r.2 = flags r.1 (2 * p + low ≤ 2 * normal)))
        ∧ (¬ up → (top + ulp ≤ p → r = (f.maxCode, fOF ||| fNX))
          ∧ (p < top + ulp → r.1 ≤ f.maxCode ∧ f.count u r.1 ≤ p ∧ (∀ d, d ≤ f.maxCode → f.count u d ≤ p → d ≤ r.1)
              ∧ r.2 = flags r.1 (p < normal))))
    ∧ (∀ (neg : Bool) c, c ≤ f.maxCode → ∃ m e, f.read c = .num false m e ∧ f.read (f.sign neg c) = .num neg m e)
    ∧ (∀ mode a m e b n g,
        let q := min e g
        let z : Int := (if a then -1 else 1) * (m * 2 ^ (e - q).toNat : Nat) + (if b then -1 else 1) * (n * 2 ^ (g - q).toNat : Nat)
        f.addVals mode (.num a m e) (.num b n g) = (if z = 0 then (f.sign (if a = b then a else mode == 3) 0, 0)
          else (f.sign (decide (z < 0)) (f.round mode (decide (z < 0)) { n := z.natAbs, e := q }).1
            , (f.round mode (decide (z < 0)) { n := z.natAbs, e := q }).2))
        ∧ f.mulVals mode (.num a m e) (.num b n g) = (if m * n = 0 then (f.sign (a != b) 0, 0)
          else (f.sign (a != b) (f.round mode (a != b) { n := m * n, e := e + g }).1, (f.round mode (a != b) { n := m * n, e := e + g }).2))
        ∧ ∀ z, f.fmaVals mode (.num a m e) (.num b n g) z = f.addVals mode (.num (a != b) (m * n) (e + g)) z)
    ∧ (∀ mode v a m e, f.read v = .num a m e → m ≠ 0 →
        (let x := Mag.recip m e
         sfRcp f mode v = f.pack mode a x ∧ 2 ^ (f.F + 1) ≤ x.n ∧ e + x.e ≤ 0
           ∧ (let P := 2 ^ (-(e + x.e)).toNat
              m * x.n ≤ P ∧ P < m * (x.n + 1) ∧ (x.more = false ↔ m * x.n = P)))
        ∧ (a = false →
          (let x := Mag.root m e
           sfSqrt f mode v = f.pack mode false x ∧ 2 ^ (f.F + 1) ≤ x.n ∧ 2 * x.e ≤ e
             ∧ (let P := m * 2 ^ (e - 2 * x.e).toNat
                x.n ^ 2 ≤ P ∧ P < (x.n + 1) ^ 2 ∧ (x.more = false ↔ x.n ^ 2 = P)))
          ∧ (let x := Mag.rroot m e
             let P := 2 ^ (-(e + 2 * x.e)).toNat
             e + 2 * x.e ≤ 0 ∧ m * x.n ^ 2 ≤ P ∧ P < m * (x.n + 1) ^ 2 ∧ (x.more = false ↔ m * x.n ^ 2 = P)
               ∧ (f = F32 ∨ f = F64 → ∃ c, c ≤ f.maxCode ∧ (sfRsqrt f v).1 = c ∧ ∀ p u, x.Has p u → u ≤ f.qmin →
                  ((f.count u c : Int) - p).natAbs ≤ 2 ^ (max ((Nat.log2 x.n : Int) + x.e - f.F) f.qmin - u).toNat
                  ∧ (sfRsqrt f v).2 = (if x.more = false ∧ f.count u c = p then 0 else fNX)))))
    ∧ ∀ (k fn v : Nat) (neg : Bool) (lo hi : Nat) (e u : Int), 0 < k → lo ≤ hi → u ≤ e → u ≤ f.qmin →
        let q := if lo = 0 then f.qmin else max ((Nat.log2 lo : Int) + e - f.F) f.qmin
        let ulp := 2 ^ (q - u).toNat
        let A := lo * 2 ^ (e - u).toNat
        let B := hi * 2 ^ (e - u).toNat
        let r := f.within k fn v neg lo hi e
        B ≤ A + ulp → B ≤ f.count u f.maxCode + k * ulp →
        ∃ (c : Nat) (back : Bool), c ≤ f.maxCode ∧ r.1 = f.sign (neg != back) c ∧ r.2.getLsbD 0 = true
          ∧ (let y : Int := if back then -(f.count u c : Int) else f.count u c
             (B : Int) ≤ y + (k * ulp : Nat) ∧ y ≤ (A + k * ulp : Nat))

/-- R114, R122, R28: `rand`, `scmp` and `mfsr` to lane registers write their results in each issuing lane and nothing else. -/
def Obligations.LaneSpecialResults : Prop :=
  ∀ (s : State) (i : Instr) (w : Nat → Write), s.Ready i → (∀ l, laneSpecialWrite (s.before i) l i = some (w l)) →
    ∃ t, exec i s = .next t ∧ (s.before i).Wrote t i w

/-- R75, R78 to R86: when the last lane of a strand has come to a cross-lane word, it executes once for all of them, and each
receives its result. -/
def Obligations.CrossLaneResults : Prop :=
  ∀ (s : State) (i : Instr), crossLaneWord i = true → s.Ready i → (s.before i).Met →
    ∃ t, exec i s = .next t ∧ (s.before i).whole.Wrote t i fun l => crossWrite (s.before i).whole l i

/-- R75, R76, R94: while a lane of the strand that has not exited runs elsewhere or is parked, the issuing lanes wait at the cross-lane
word or `reconv`, which has no other effect. When all of them wait, but neither at one cross-lane word nor at `reconv` words of one key, the
lowest-numbered takes the cross-lane mismatch trap, kind 12, at the word at which it waits. -/
def Obligations.GatheringWaits : Prop :=
  ∀ (s : State) (i : Instr), s.Ready i →
    let b := s.before i
    FMap.wf {} b.curParty.lanes = true →
    (∀ l, l ∈ b.curParty.active → l ∉ s.cur.lanes → (b.curParty.lane l).wait.gathers = false →
      (crossLaneWord i = true ∨ (∃ d a u t m st, i = .tcon d a u t m st) → exec i s = .next (b.hold .crossLane))
      ∧ ∀ k st, i = .reconv k st → exec i s = .next (b.hold (.reconv k.toNat st)))
    ∧ ∀ w, s.curTeam.halt = .running →
      ((crossLaneWord i = true ∨ (∃ d a u t m st, i = .tcon d a u t m st)) ∧ w = Wait.crossLane
        ∨ ∃ k st, i = .reconv k st ∧ w = Wait.reconv k.toNat st) →
      (∀ l ∈ b.curParty.active, l ∉ s.cur.lanes → (b.curParty.lane l).wait.gathers = true) →
      let c := b.hold w
      let x := fun (l : Nat) => c.curParty.lane l
      (∃ l ∈ c.curParty.active, ∃ j ∈ c.curParty.active, (x l).pc ≠ (x j).pc ∨ (x l).wait.key ≠ (x j).wait.key) →
      (∃ l ∈ c.curParty.active, ∃ j ∈ c.curParty.active, (x l).wait.key ≠ (x j).wait.key ∨ (x l).wait.key = none) →
      ∀ low ∈ c.curParty.active, (∀ l ∈ c.curParty.active, low ≤ l) →
        ∃ t, exec i s = .next t ∧ c.Trapped t [low] low { kind := 12 }

/-- R82: `elect` sets its flag, which vd[1:0] names, in the lowest-numbered participant and clears it in every other; a word of its
major with another bit of vd, va, vb or mod set is refused. -/
def Obligations.ElectPicksTheLowest : Prop :=
  (∀ w : W32, w.extractLsb' 25 7 = 0x24#7 → decode w =
    if w.extractLsb' 20 5 = 0 ∧ w.extractLsb' 2 16 = 0 then .ok (.elect (w.extractLsb' 18 2) (w.extractLsb' 0 2)) else .error .reserved)
  ∧ ∀ (s : State) (d st : BitVec 2) (low : Nat), s.Ready (.elect d st) → (s.before (.elect d st)).Met →
    low ∈ (s.before (.elect d st)).curParty.active → (∀ l ∈ (s.before (.elect d st)).curParty.active, low ≤ l) →
    ∃ t, exec (.elect d st) s = .next t
      ∧ ∀ l ∈ (s.before (.elect d st)).curParty.active, (t.curParty.lane l).flag d.toNat = decide (l = low)

/-! ### Uniform words -/

/-- R121 to R124, R131, R151, R178, R180: a uniform word that writes one register goes to the next word with its result and changes
nothing else. After a `mtsr` the special register reads as written in the fields that R132 gives it: bits [2:0] of sr.round, [31:0] of
sr.stacklim, all but the reserved [59:56] of sr.fault, bit 0 of sr.priv, and each lane's own [4:0] of sr.fflags; a register of the
strand takes the value of the lowest issuing lane (R27, R131). -/
def Obligations.UniformResults : Prop :=
  (∀ (s : State) (i : Instr) (d : BitVec 6) (x : W64), s.Ready i → uniformWrite (s.before i) i = some (d, x) →
    ∃ t, exec i s = .next t ∧ (s.before i).WroteS t i d x)
  ∧ (∀ (s : State) (d : BitVec 6) (r : BitVec 10) (st : BitVec 2), s.Ready (.mtsrUniform d r st) →
      let b := s.before (.mtsrUniform d r st)
      let v := b.rdS d.toNat
      b.curTeam.specialReserved b.curParty b.standing r.toNat v.toNat = false → (specialKept r.toNat).isSome = true →
      ∃ t m, exec (.mtsrUniform d r st) s = .next t ∧ specialKept r.toNat = some m
        ∧ ∀ l, t.specialReg s.cur.team s.cur.party l r.toNat = v &&& m)
  ∧ ∀ (s : State) (d : BitVec 6) (h : BitVec 1) (r : BitVec 10) (st : BitVec 2), s.Ready (.mtsrLane d h r st) →
      let b := s.before (.mtsrLane d h r st)
      let v := fun (l : Nat) => ((b.curParty.lane l).rd b.free l (64 * h.toNat + d.toNat)).setWidth 64
      (r = 8 → ∃ t, exec (.mtsrLane d h r st) s = .next t
        ∧ ∀ l, t.specialReg s.cur.team s.cur.party l 8 = if l ∈ s.cur.lanes then v l &&& 0x1F else b.specialReg s.cur.team s.cur.party l 8)
      ∧ (r = 9 ∨ r = 14 → b.curTeam.specialReserved b.curParty b.standing r.toNat (v b.firstLane).toNat = false →
          ∃ t m, exec (.mtsrLane d h r st) s = .next t ∧ specialKept r.toNat = some m
            ∧ ∀ l, t.specialReg s.cur.team s.cur.party l r.toNat = v b.firstLane &&& m)

/-- R127: `sloop` at n goes back with n − 1 while n exceeds 1, and else goes on with 0; n is read as unsigned. A word of its major
with a nonzero sa is refused. -/
def Obligations.LoopCountsDown : Prop :=
  (∀ w : W32, w.extractLsb' 25 7 = 0x4E#7 → decode w =
    if w.extractLsb' 13 6 = 0 then .ok (.sloop (w.extractLsb' 19 6) (w.extractLsb' 2 11) (w.extractLsb' 0 2)) else .error .reserved)
  ∧ ∀ (s : State) (d : BitVec 6) (o : BitVec 11) (st : BitVec 2), s.Ready (.sloop d o st) →
    let b := s.before (.sloop d o st)
    let n := b.rdS d.toNat
    ∃ t, exec (.sloop d o st) s = .next t
      ∧ t.curParty.sreg d.toNat = (if n.toNat ≤ 1 then 0 else n - 1)
      ∧ ∀ l ∈ s.cur.lanes, (t.curParty.lane l).pc =
          if n.toNat ≤ 1 then (b.curParty.lane l).pc + 4 else (b.curParty.lane b.firstLane).pc + 4#64 * o.signExtend 64

/-! ### Control words -/

/-- R88 to R91, R126 to R128: branches, jumps through the table, calls, returns and `lpad` send each lane where their rule says,
push or pop its return stack, record the branch, and change nothing else. One lane's `call` pushes the address of the next word and
raises its depth by one; a `ret` goes to the entry last pushed and lowers it; of the rest of the lane and the other lanes nothing changes,
and of memory at most the 8 backing bytes of a spilled entry (R89, R257). -/
def Obligations.ControlResults : Prop :=
  (∀ (s : State) (i : Instr) (e : Completion), s.Ready i → controlEffect (s.before i) i = some e →
    ∃ t, exec i s = .next t ∧ t.Ends i e)
  ∧ ∀ (b : State) (l : Nat),
    let x := b.curParty.lane l
    (∀ c, b.callLane l = .ok c →
      let y := c.curParty.lane l
      y.depth = x.depth + 1 ∧ y.depth ≤ b.curParty.stacklim.toNat / (8 * b.curTeam.hdr.width)
      ∧ y.stack = (x.pc + 4) :: x.stack.take 3 ∧ { y with depth := x.depth, stack := x.stack } = x
      ∧ (∀ j, j ≠ l → c.curParty.lane j = b.curParty.lane j) ∧ c.curParty.s = b.curParty.s
      ∧ (x.stack.length < 4 → c.near = b.near ∧ c.far = b.far)
      ∧ (∀ p v, 4 ≤ x.stack.length → x.stack.getLast? = some v → b.backingPlace .write l (x.depth - x.stack.length) = .ok (.near p) →
          BytesWritten b.near c.near p 8 v.toNat ∧ c.far = b.far)
      ∧ ∀ d q, c.retLane l = .ok (d, q) → q = x.pc + 4 ∧ (d.curParty.lane l).depth = x.depth)
    ∧ ∀ c q, b.retLane l = .ok (c, q) →
      let y := c.curParty.lane l
      y.depth + 1 = x.depth ∧ (∀ a rest, x.stack = a :: rest → q = a ∧ (rest ≠ [] → y.stack = rest))
      ∧ { y with depth := x.depth, stack := x.stack } = x
      ∧ (∀ j, j ≠ l → c.curParty.lane j = b.curParty.lane j) ∧ c.curParty.s = b.curParty.s ∧ c.near = b.near ∧ c.far = b.far

/-- R92: the control-flow traps, each at its word. `brx` and `sjmp` trap with kind 2 and the detail of the jump table: 1 for an index at
or above its limit, 2 for an entry of another form, 3 where no `lpad` stands, 4 for one of another key. `ret` traps with detail 5 on an
empty return stack, and `call` with kind 3 on a full one (R89). Where lanes of one word trap and others do not, the others have the word's
full effect and go on, every trapping lane stays at the word with its registers and return stack, and sr.fault records the cause of the
lowest-numbered one. -/
def Obligations.ControlTraps : Prop :=
  (∀ s : State, s.curTeam.halt = .running → s.curParty.seq = false →
    ∀ l, s.cur.lanes = [l] →
    (∀ (a : BitVec 7) (st : BitVec 2) (d : Nat), s.Ready (.brx a st) →
      let b := s.before (.brx a st)
      b.jumpTable ((b.curParty.lane l).rd b.free l a.toNat).toNat = .bad d →
      ∃ t, exec (.brx a st) s = .next t
        ∧ (b.keepJump ((b.curParty.lane l).rd b.free l a.toNat).toNat).Trapped t [l] l { kind := 2, detail := d })
    ∧ (∀ st : BitVec 2, s.Ready (.ret st) →
      let b := s.before (.ret st)
      (b.curParty.lane l).depth = 0 → ∃ t, exec (.ret st) s = .next t ∧ b.Trapped t [l] l { kind := 2, detail := 5 })
    ∧ ∀ (o : BitVec 20) (st : BitVec 2), s.Ready (.call o st) →
      let b := s.before (.call o st)
      b.curParty.stacklim.toNat / (8 * b.curTeam.hdr.width) ≤ (b.curParty.lane l).depth →
      ∃ t, exec (.call o st) s = .next t ∧ b.Trapped t [l] l { kind := 3 })
  ∧ (∀ (s : State) (a : BitVec 6) (st : BitVec 2) (d : Nat), s.curTeam.halt = .running → s.Ready (.sjmp a st) →
      let b := s.before (.sjmp a st)
      b.jumpTable (b.rdS a.toNat).toNat = .bad d →
      ∃ t, exec (.sjmp a st) s = .next t
        ∧ (b.keepJump (b.rdS a.toNat).toNat).Trapped t s.cur.lanes 0xFF { kind := 2, detail := d })
  ∧ (∀ (s : State) (i : Instr), s.curTeam.halt = .running → s.Ready i →
      (match i with | .brx .. | .call .. | .ret .. => True | _ => False) →
      let b := s.before i
      let r := b.controlOuts i
      let cause := fun (l : Nat) (c : Cause) => (l, Out.trap c) ∈ r.2
      (∀ l ∈ s.cur.lanes, l < 64) →
      (∀ e ∈ r.2, (∃ v, e.2 = .done v) ∨ ∃ c, e.2 = .trap c ∧ (c.kind = 2 ∨ c.kind = 3)) →
      ∀ low c, cause low c → (∀ l d, cause l d → low ≤ l) →
      ∃ t, exec i s = .next t ∧ t.curTeam.halt = .skid b.cur.party b.now ∧ t.near = r.1.near ∧ t.far = r.1.far
        ∧ (∃ d, cause low d ∧ t.curParty.fault = faultWord d.kind d.detail low 0 d.info)
        ∧ (∀ l v, (l, Out.done v) ∈ r.2 → (t.curParty.lane l).pc = w64 v ∧ (t.curParty.lane l).wait = .none
            ∧ (t.curParty.lane l).depth = (r.1.curParty.lane l).depth ∧ (t.curParty.lane l).stack = (r.1.curParty.lane l).stack)
        ∧ (∀ l d, cause l d → (t.curParty.lane l).pc = (b.curParty.lane l).pc ∧ (t.curParty.lane l).wait = .stopped
            ∧ (t.curParty.lane l).depth = (r.1.curParty.lane l).depth ∧ (t.curParty.lane l).stack = (r.1.curParty.lane l).stack)
        ∧ t.curParty.s = b.curParty.s
        ∧ ∀ l, (t.curParty.lane l).v = (b.curParty.lane l).v ∧ (t.curParty.lane l).c = (b.curParty.lane l).c
            ∧ (t.curParty.lane l).fflags = (b.curParty.lane l).fflags)
  ∧ ∀ (b : State) (n : Nat),
      let T := b.curTeam
      let base := T.hdrAddr + T.hdr.jtbase
      (T.hdr.jtlimit.toNat ≤ n → b.jumpTable n = .bad 1)
      ∧ ∀ e, n < T.hdr.jtlimit.toNat → b.readCode b.cur.team (base + w64 (8 * n)).toNat 8 = .ok e →
        let at_ := base + (BitVec.ofNat 32 e).signExtend 64
        (bits e 63 48 ≠ 0 ∨ e % 4 ≠ 0 → b.jumpTable n = .bad 2)
        ∧ ∀ w, bits e 63 48 = 0 → e % 4 = 0 → b.readCode b.cur.team at_.toNat 4 = .ok w →
          (bits w 31 18 ≠ 0x1500 → b.jumpTable n = .bad 3)
          ∧ (bits w 31 18 = 0x1500 → bits w 17 2 ≠ bits e 47 32 → b.jumpTable n = .bad 4)
          ∧ (bits w 31 18 = 0x1500 → bits w 17 2 = bits e 47 32 → b.jumpTable n = .to at_)

/-- R94: when every lane of the strand that has not exited waits at a `reconv` of the key, each goes on behind its own. -/
def Obligations.ReconvReleases : Prop :=
  ∀ (s : State) (k : BitVec 16) (st : BitVec 2), s.Ready (.reconv k st) →
    let b := s.before (.reconv k st)
    FMap.wf {} b.curParty.lanes = true →
    (∀ l ∈ b.curParty.active, l ∉ s.cur.lanes → ∃ own, (b.curParty.lane l).wait = .reconv k.toNat own) →
    ∃ t, exec (.reconv k st) s = .next t ∧ b.whole.Passed t (.reconv k st)

/-- R95: the lanes that issue `exit` finish: their program counters and return stacks are discarded. Beside the trace, every other
lane and party, the uniform registers, every memory and every table of the device are as before. -/
def Obligations.ExitEndsLanes : Prop :=
  ∀ (s : State) (st : BitVec 2), s.Ready (.exit st) →
    let b := s.before (.exit st)
    ∃ t, exec (.exit st) s = .next t
      ∧ (∀ l ∈ s.cur.lanes, (t.curParty.lane l).exited = true ∧ (t.curParty.lane l).stack = [] ∧ (t.curParty.lane l).depth = 0
          ∧ (t.curParty.lane l).pc = 0 ∧ (t.curParty.lane l).wait = .none ∧ (t.curParty.lane l).v = (b.curParty.lane l).v)
      ∧ (∀ l, l ∉ s.cur.lanes → { t.curParty.lane l with skipped := (b.curParty.lane l).skipped } = b.curParty.lane l)
      ∧ b.TracedFrom t ∧ t.cur = b.cur
      ∧ (∀ j, j ≠ s.cur.team → t.team j = b.team j)
      ∧ (∀ k, k ≠ s.cur.party → t.party s.cur.team k = b.party s.cur.team k)
      ∧ { t.curTeam with parties := b.curTeam.parties, lastIssue := b.curTeam.lastIssue, swapIn := b.curTeam.swapIn } = b.curTeam
      ∧ { t.curParty with
          lanes := b.curParty.lanes, lastIssue := b.curParty.lastIssue, peerBuf := b.curParty.peerBuf
          refused := b.curParty.refused } = b.curParty

/-! ### Memory words -/

/-- R96 to R113, R125: a memory word whose lanes' accesses are all performed, one after the other in the order of service, writes
what they read, goes to the next word, and changes nothing but what the accesses change. A `red` adds, compares or combines as `atom`
does, adds AF modulo 2^w, so that the contributions to a location give their sum in whatever order they come, or adds binary32 to nearest
even; its contribution of a binary32 source is the source on the anchor, clamped, with the flags of R108. A `qop` takes the oldest item of
its queue or appends one, answers that the queue is empty or full with no effect, and traps as R112 says at a descriptor that is none. -/
def Obligations.MemoryResults : Prop :=
  (∀ (s : State) (i : Instr) (e : Completion), s.Ready i → memoryEffect (s.before i) i = some e →
    ∃ t, exec i s = .next t ∧ t.Ends i e)
  ∧ (∀ ty n old x,
      (∀ op, op < 6 → redNew op ty n old x = atomNew op ty n old x 0)
      ∧ redNew 6 ty n old x = (old + x) % 2 ^ (8 * n)
      ∧ redNew 7 ty n old x = (F32.addVals 0 (F32.read old) (F32.read x)).1
      ∧ (∀ xs : List Nat, xs ≠ [] → xs.foldl (fun m x => redNew 6 ty n m x) old = (old + xs.sum) % 2 ^ (8 * n)))
  ∧ (∀ ctl src,
      let w := 8 * redBytes ctl
      (ctl % 16 ≠ 6 → redValue ctl src = (src, 0))
      ∧ (ctl % 16 = 6 → (w = if bits ctl 6 4 % 2 = 0 then 32 else 64)
        ∧ (bits ctl 7 7 = 1 → redValue ctl src = (src % 2 ^ w, 0))
        ∧ (bits ctl 7 7 = 0 →
          (∀ s, F32.read (src % 2 ^ 32) = .nan s → redValue ctl src = (0, fNV))
          ∧ ∀ x, F32.read (src % 2 ^ 32) = x → x.isNan = false →
            let r := roundToAnchor x (signed 8 (bits ctl 15 8))
            let e := max (-(2 ^ (w - 1) - 1)) (min (2 ^ (w - 1) - 1) r.1)
            (redValue ctl src).1 < 2 ^ w ∧ ((redValue ctl src).1 : Int) % 2 ^ w = e % 2 ^ w
            ∧ (redValue ctl src).2 = (if r.2 then fNX else 0) ||| (if e = r.1 then 0 else fOF))))
  ∧ ∀ (b : State) (push : Bool) (off src : Nat),
      let M := b.curTeam.mem
      let A := b.curTeam.alloc
      let D := Mem.read M off 16
      let head := bits D 31 0
      let tail := bits D 63 32
      let ring := bits D 95 64
      let k := bits D 103 96
      let used := (tail + 2 ^ 32 - head) % 2 ^ 32
      let slot := ring + 4 * ((if push then tail else head) % 2 ^ k)
      let bad := bits D 127 104 ≠ 0 ∨ 16 < k ∨ ring % 4 ≠ 0 ∨ 2 ^ k < used
      (off % 16 ≠ 0 → b.queueStep push off src = (b, .trap { kind := 4, info := off }))
      ∧ (off % 16 = 0 → A < off + 16 → b.queueStep push off src = (b, .trap { kind := 5, detail := 3, info := off }))
      ∧ (off % 16 = 0 → off + 16 ≤ A → b.rangeBusy b.cur.team off 16 = false →
        (bad → b.queueStep push off src = (b, .trap { kind := 5, detail := 14, info := off }))
        ∧ (¬ bad → A < ring + 4 * 2 ^ k → b.queueStep push off src = (b, .trap { kind := 5, detail := 3, info := off }))
        ∧ (¬ bad → ring + 4 * 2 ^ k ≤ A → b.rangeBusy b.cur.team slot 4 = false →
          (push = false → used = 0 → b.queueStep push off src = (b, .done 0))
          ∧ (push = true → used = 2 ^ k → b.queueStep push off src = (b, .done 0))
          ∧ (push = false → used ≠ 0 → ∃ t, b.queueStep push off src = (t, .done (2 ^ 32 + Mem.read M slot 4))
              ∧ BytesWritten M t.curTeam.mem off 4 (head + 1) ∧ t.near = b.near ∧ t.far = b.far
              ∧ ∀ j, j ≠ b.cur.team → t.team j = b.team j)
          ∧ (push = true → used ≠ 2 ^ k → ∃ t m, b.queueStep push off src = (t, .done (2 ^ 32))
              ∧ BytesWritten M m slot 4 src ∧ BytesWritten m t.curTeam.mem (off + 4) 4 (tail + 1)
              ∧ t.near = b.near ∧ t.far = b.far ∧ ∀ j, j ≠ b.cur.team → t.team j = b.team j)))

/-- R98, R266: accesses of the local window. Loads write the zero-extended bytes at each lane's address and change nothing else. A store
of one lane writes the low bytes of its registers there; every other byte of the window, every other window, near and far memory, and
every register are as before. -/
def Obligations.LocalAccesses : Prop :=
  (∀ (s : State) (i : Instr) (d a : BitVec 7) (e : BitVec 3) (n k : Nat) (off : Nat → Nat), s.Ready i →
    loadForm i = some (d, a, e, n, k) →
    (∀ l ∈ s.cur.lanes, (s.before i).laneAddr e a l % n = 0 ∧ (s.before i).Local ((s.before i).laneAddr e a l) n (off l)) →
    ∃ t, exec i s = .next t ∧ (s.before i).Wrote t i fun l => .group d k (Mem.read (s.before i).curTeam.mem (off l) n))
  ∧ ∀ (s : State) (i : Instr) (d a : BitVec 7) (e : BitVec 3) (n k l off : Nat), s.Ready i → storeForm i = some (d, a, e, n, k) →
    s.cur.lanes = [l] →
    let b := s.before i
    let v := b.groupOf l d.toNat k
    b.laneAddr e a l % n = 0 → b.Local (b.laneAddr e a l) n off →
    ∃ t, exec i s = .next t ∧ (b.writeLocal b.cur.team off n (v % 2 ^ (8 * n))).Passed t i
      ∧ BytesWritten b.curTeam.mem t.curTeam.mem off n v
      ∧ t.near = b.near ∧ t.far = b.far ∧ ∀ j, j ≠ b.cur.team → t.team j = b.team j

/-- R98, R105, R106, R326: accesses of one lane through a page of near memory. A load writes the zero-extended bytes there and changes
nothing but the translation cache; a store writes the low bytes of its registers there, and every other byte of near memory, far memory
and every local window are as before; an `atom` reads the old value into vd and writes the new one in the same step, which R106 gives for
each operation and type. No access reaches the bytes that back a return stack (R257), which read as anything (log 15) and keep their
values. -/
def Obligations.NearAccesses : Prop :=
  (∀ (s : State) (i : Instr) (d a : BitVec 7) (e : BitVec 3) (n k l p : Nat), s.Ready i → loadForm i = some (d, a, e, n, k) →
    s.cur.lanes = [l] →
    let b := s.before i
    let A := b.laneAddr e a l
    A % n = 0 → b.locate b.curTeam.slot b.curTeam.alloc .read A n = .ok (.phys (.near p)) → b.isBad (.near p) n = false →
    ∃ t v, exec i s = .next t ∧ (b.keepLeaf b.curTeam.slot A).Wrote t i (fun _ => .group d k v) ∧ BytesRead b.backings b.near p n v
      ∧ t.near = b.near ∧ t.far = b.far ∧ t.curTeam.mem = b.curTeam.mem)
  ∧ (∀ (s : State) (i : Instr) (d a : BitVec 7) (e : BitVec 3) (n k l p : Nat), s.Ready i → storeForm i = some (d, a, e, n, k) →
    s.cur.lanes = [l] →
    let b := s.before i
    let A := b.laneAddr e a l
    let v := b.groupOf l d.toNat k
    A % n = 0 → b.locate b.curTeam.slot b.curTeam.alloc .write A n = .ok (.phys (.near p)) →
    ∃ t, exec i s = .next t ∧ ((b.keepLeaf b.curTeam.slot A).storePlace (.near p) n (v % 2 ^ (8 * n))).Passed t i
      ∧ BytesStored b.backings b.near t.near p n v ∧ t.far = b.far ∧ (∀ j, (t.team j).mem = (b.team j).mem))
  ∧ (∀ ty old x y, ty < 5 → old < 2 ^ (8 * atomBytes ty) → x < 2 ^ (8 * atomBytes ty) → y < 2 ^ (8 * atomBytes ty) →
      let w := 8 * atomBytes ty
      let less := if ty = 0 ∨ ty = 2 then (BitVec.ofNat w old).toInt < (BitVec.ofNat w x).toInt else old < x
      let new := fun (op : Nat) => atomNew op ty (atomBytes ty) old x y
      (w = if ty < 2 then 32 else if ty < 4 then 64 else 128)
      ∧ new 0 = (old + x) % 2 ^ w
      ∧ (less → new 1 = old ∧ new 2 = x) ∧ (¬ less → new 1 = x ∧ new 2 = old)
      ∧ (∀ j, (new 3).testBit j = (old.testBit j && x.testBit j) ∧ (new 4).testBit j = (old.testBit j || x.testBit j)
          ∧ (new 5).testBit j = (old.testBit j != x.testBit j))
      ∧ new 6 = x ∧ new 7 = if old = x then y else old)
  ∧ ∀ (s : State) (d a : BitVec 7) (e c o : BitVec 3) (st : BitVec 2) (l p : Nat),
    let i := Instr.atom d a e c o st
    s.Ready i → s.cur.lanes = [l] →
    let b := s.before i
    let A := b.laneAddr e a l
    let op := b.control e % 16
    let ty := bits (b.control e) 6 4
    let n := atomBytes ty
    let k := atomRegs (b.control e)
    let new := fun (old : Nat) => atomNew op ty n old (b.groupOf l d.toNat k) (if op = 7 then b.groupOf l (d.toNat + k) k else 0)
    A % n = 0 → b.locate b.curTeam.slot b.curTeam.alloc .atomic A n = .ok (.phys (.near p)) → b.isBad (.near p) n = false →
    ∃ t old, exec i s = .next t ∧ BytesRead b.backings b.near p n old
      ∧ ((b.keepLeaf b.curTeam.slot A).storePlace (.near p) n (new old)).Wrote t i (fun _ => .group d k old)
      ∧ BytesStored b.backings b.near t.near p n (new old)

/-- R96, R100, R101, R331: a lane of a load, store, versioned load, `atom` or `red` that makes no access. At an address that is no
multiple of the access size it takes the misaligned-access trap; where no translation is found it parks there with one record in the
fault queue; where the access is refused it takes the access violation with the detail of R331, which is logged (R333). -/
def Obligations.LaneAccessesStop : Prop :=
  ∀ (s : State) (i : Instr) (a : BitVec 7) (e : BitVec 3) (n l : Nat) (acc : Acc), s.Ready i → s.curTeam.halt = .running →
    s.cur.lanes = [l] → s.curParty.seq = false →
    let b := s.before i
    let A := b.laneAddr e a l
    let slot := b.curTeam.slot
    laneForm b i = some (a, e, n, acc) →
    (A % n ≠ 0 → ∃ t, exec i s = .next t ∧ b.Trapped t [l] l { kind := 4, info := A })
    ∧ (A % n = 0 → b.locate slot b.curTeam.alloc acc A n = .error .absent → ∃ t, exec i s = .next t ∧ b.ParkedOn t [l] (w64 A))
    ∧ ∀ d, A % n = 0 → b.locate slot b.curTeam.alloc acc A n = .error (.bad d) →
        ∃ t, exec i s = .next t ∧ ((b.keepLeaf slot A).logFor b.cur.team b.cur.party l A d acc).Trapped t [l] l
          { kind := 5, detail := d, info := A }

/-! ### Barriers, fences and counters -/

/-- R161, R162, R165 to R167: a barrier word, fence or code word that goes on changes its barrier as R161 gives, or what R166 and
R167 name, and nothing else. -/
def Obligations.BarrierResults : Prop :=
  ∀ (s : State) (i : Instr) (e : Completion), s.Ready i → (s.before i).Acts i → barrierEffect (s.before i) i = some e →
    ∃ t, exec i s = .next t ∧ t.Ends i e

/-- R160, R161: a sequencer context, or a strand whose last lane has come, waits at `bar.wait` for a phase above Target(x), read when the
word issues; the barrier is homed by it, and nothing else of it changes. -/
def Obligations.BarrierWaits : Prop :=
  ∀ (s : State) (k : BitVec 5) (p : BitVec 3) (st : BitVec 2) (x : Barrier), s.Ready (.barWait k p st) →
    let b := s.before (.barWait k p st)
    let c := if b.curParty.seq then b else b.metAt .rendezvous
    b.curParty.seq = true ∨ b.Met → b.curWait = .none → c.namedBarrier p k = some x →
    exec (.barWait k p st) s = .next ((c.withBarrier p k x).hold (.barrier (p != 2) k.toNat (x.target (c.barParty (p != 2))) none))
    ∧ x.phase ≤ x.target (c.barParty (p != 2))

/-- R161: Complete() runs while e is not 0 and a reaches e, each phase taking the arrivals made toward it; a barrier that it leaves
has a below e or e at 0, for an arrival on a barrier that it had left so. -/
def Obligations.ArrivalsCompletePhases : Prop :=
  ∀ (b : Barrier) (x : Nat), (b.e = 0 ∨ b.a < b.e) → (b.e = 0 ∨ b.n < b.e) → b.ahead x = false →
    let c := b.arrive x
    (c.e = b.e) ∧ (c.e = 0 ∨ c.a < c.e)
    ∧ (c.phase = b.phase ∧ c.a + c.n = b.a + b.n + 1 ∨ b.e ≠ 0 ∧ c.phase = b.phase + 1 ∧ c.a + b.e = b.a + b.n + 1 ∧ c.n = 0)

/-- R168, R169: a counter word that goes on changes its counter, and the tasks linked to it, as its row says, returns what its row
says, and changes nothing else. -/
def Obligations.CounterResults : Prop :=
  ∀ (s : State) (i : Instr) (e : Completion), s.Ready i → counterEffect (s.before i) i = some e →
    ∃ t, exec i s = .next t ∧ t.Ends i e

/-! ### Engines, training and system words -/

/-- Special-register writes, clauses, matrix and tile words, box copies, submissions, launches and replays complete in the state that
their rules give (R27 to R42, R117, R131 to R174). The model's choices in it: the task number (log 55), the order of a launch's reads
(log 56), a long word that no event began (log 26), the stopped words that `acc.free` and `acc.anc` do not wait for (log 64), copies that
take no range entry (log 66), and the region of a column-order `copyt` (log 67). -/
def Obligations.EngineResults : Prop :=
  ∀ (s : State) (i : Instr) (r : State), s.Ready i → (s.before i).Gathered i → engineResult (s.before i) i = some r →
    exec i s = .next (s.after i r)

/-- Steps, versions, checkpoints, collectives, patterns and the stash: their words complete in the state that R175 to R185 give. -/
def Obligations.TrainingResults : Prop :=
  ∀ (s : State) (i : Instr) (r : State), s.Ready i → (s.before i).Gathered i → trainingResult (s.before i) i = some r →
    exec i s = .next (s.after i r)

/-- The words of major 0x3F complete in the state that R188 and R189 give. The model's choices in it: the layout of a context image
beyond R349 (log 18), `fq.pop` at a record in error (log 59), and the party that the record of a halted team names (log 71). -/
def Obligations.SystemResults : Prop :=
  ∀ (s : State) (i : Instr) (r : State), s.Ready i → systemResult (s.before i) i = some r → exec i s = .next (s.after i r)

/-- R84, R145, R146, R148, R152: what the matrix engine computes, in exact integers. A product is exact; each is rounded to the nearest
multiple of 2^anchor, of two the even one; an entry adds them to its old value, clamped to ±(2^95 − 1), or becomes the NaN pattern or
infinite as R146 has it; with integer elements and an anchor of at most 0 it adds the sum of their products. `mma` of one row enters it
in row 0 of its tile, and `acc.rd` of one row stores the 64 entries down-converted: each the one rounding of E × 2^anchor × scale. -/
def Obligations.MatrixEntries : Prop :=
  (∀ (neg : Bool) (m : Nat) (e a u : Int), u ≤ a → u ≤ e →
    let r := roundToAnchor (.num neg m e) a
    let P : Int := (if neg then -1 else 1) * (m * 2 ^ (e - u).toNat : Nat)
    let A : Nat := 2 ^ (a - u).toNat
    2 * (r.1 * A - P).natAbs ≤ A ∧ (2 * (r.1 * A - P).natAbs = A → r.1 % 2 = 0) ∧ (r.2 = true ↔ r.1 * A ≠ P))
  ∧ (∀ a m e b n g p i d q j h,
      exactProduct (.real (.num a m e)) (.real (.num b n g)) none none = .num (a != b) (m * n) (e + g)
      ∧ exactProduct (.real (.num a m e)) (.real (.num b n g)) (some (.num p i d)) (some (.num q j h))
        = .num (((a != b) != p) != q) (m * n * i * j) (e + g + d + h)
      ∧ exactProduct (.log a d) (.log b e) none none = .num (a != b) (logTable ((d + e) % 8).toNat) ((d + e) / 8 - 16)
      ∧ (∀ x, (exactProduct (.real (.nan a)) x none none).isNan = true ∧ (exactProduct x (.real (.nan a)) none none).isNan = true)
      ∧ (exactProduct (.real (.inf a)) (.real (.num b 0 g)) none none).isNan = true
      ∧ (n ≠ 0 → exactProduct (.real (.inf a)) (.real (.num b n g)) none none = .inf (a != b)))
  ∧ (∀ fmt v z, intElem fmt v = some z → decodeElem fmt v = .real (.num (decide (z < 0)) z.natAbs 0))
  ∧ (∀ (t : Tile) (B : Bank) (i : Nat) (row : List (Elem × Option FVal)),
      let u := t.enterRow B i row
      u.anchor = t.anchor ∧ u.allocated = t.allocated ∧ (∀ j n, n < 64 → j ≠ i → u.entry j n = t.entry j n)
      ∧ ∀ n, n < 64 →
        let ps := B.products row n
        let nan := (∃ p ∈ ps, p.isNan = true) ∨ FVal.inf false ∈ ps ∧ FVal.inf true ∈ ps
        (nan → u.entry i n = nanPattern ∧ u.nan = true)
        ∧ (¬ nan → t.entry i n = nanPattern → u.entry i n = nanPattern)
        ∧ (¬ nan → t.entry i n ≠ nanPattern →
          (∀ s, FVal.inf s ∈ ps → u.entry i n = BitVec.ofInt 96 ((if s then -1 else 1) * (2 ^ 95 - 1)) ∧ u.sat = true)
          ∧ ((∀ s, FVal.inf s ∉ ps) →
            let S := (t.entry i n).toInt + (ps.map fun p => (roundToAnchor p t.exponent).1).sum
            u.entry i n = BitVec.ofInt 96 (max (-(2 ^ 95 - 1)) (min (2 ^ 95 - 1) S)) ∧ (2 ^ 95 ≤ S.natAbs → u.sat = true)
            ∧ ((∃ p ∈ ps, (roundToAnchor p t.exponent).2 = true) → u.inexact = true))))
  ∧ (∀ (t : Tile) (B : Bank) (i n : Nat) (as : List Int) (w : Nat → Int), n < 64 → B.scaled = false → t.exponent ≤ 0 →
      (∀ k, k < as.length → intElem B.fmt.toNat (FMap.get 0 B.w (64 * k + n)).toNat = some (w k)) → t.entry i n ≠ nanPattern →
      let S := (t.entry i n).toInt + (as.zipIdx.map fun x => x.1 * w x.2).sum * (2 ^ (-t.exponent).toNat : Nat)
      (t.enterRow B i (as.map fun z => (.real (.ofInt z), none))).entry i n
        = BitVec.ofInt 96 (max (-(2 ^ 95 - 1)) (min (2 ^ 95 - 1) S)))
  ∧ (∀ (s : State) (h a e : BitVec 6) (st : BitVec 2), s.Ready (.mma h a e st) →
      let b := s.before (.mma h a e st)
      let d := b.desc a
      let B := b.bank b.curParty.cur
      let w := fmtBits d.fmt
      let n := fmtDepth d.fmt * w / 8
      let rows := d.rows 1 n
      let v := Mem.read b.curTeam.mem (bits d.word0 31 0) n
      b.cur.units = none → (b.curParty.lane b.firstLane).unit = 0 → b.rdS e.toNat = 1 → d.bad = false → d.scaled = false →
      d.column = false → rows.misplaced = false → rows.end_ ≤ b.curTeam.alloc → b.busyRow rows = none →
      B.loaded = true → B.bad = false → fmtMeet d.fmt B.fmt.toNat = true → b.tilesOk h.toNat 1 = true → (b.tile h.toNat).bad = false →
      ∃ t, exec (.mma h a e st) s = .next t
        ∧ t.tile h.toNat = (b.tile h.toNat).enterRow B 0 ((List.range (fmtDepth d.fmt)).map fun k =>
            (decodeElem d.fmt (v / 2 ^ (w * k) % 2 ^ w), none))
        ∧ (∀ j, j ≠ h.toNat → t.tile j = b.tile j) ∧ t.curTeam.mem = b.curTeam.mem ∧ t.near = b.near
        ∧ ∀ l ∈ s.cur.lanes, (t.curParty.lane l).pc = b.nextPc l)
  ∧ (∀ (s : State) (h a e : BitVec 6) (z : BitVec 1) (st : BitVec 2), s.Ready (.accRd h a e z st) →
      let b := s.before (.accRd h a e z st)
      let c := (b.convRecord a []).1
      let w := fmtBits c.fmt
      let place := b.rdS e.toNat
      let rows := placeRows place 1 (8 * w)
      b.cur.units = none → (b.curParty.lane b.firstLane).unit = 0 → bits (b.rdS a.toNat).toNat 31 19 = 0 → c.rows = 1 →
      c.fmt ∈ [0, 1, 2, 3, 5, 6, 7, 11, 12, 14] → c.rnd ∈ [0, 1, 2, 3, 5] → (∃ n m g, c.scale = .num n m g) →
      place.toNat < 2 ^ 48 → rows.misplaced = false → rows.end_ ≤ b.curTeam.alloc → b.busyRow rows = none →
      b.tilesOk h.toNat 1 = true → (b.tile h.toNat).bad = false →
      ∃ t v, exec (.accRd h a e z st) s = .next t ∧ BytesWritten b.curTeam.mem t.curTeam.mem rows.off (8 * w) v
        ∧ (∀ n, n < 64 → v / 2 ^ (w * n) % 2 ^ w = downConvert (b.tile h.toNat) 0 n h.toNat c % 2 ^ w)
        ∧ (∀ j n, n < 64 → (t.tile h.toNat).entry j n = if z = 1 ∧ j = 0 then 0 else (b.tile h.toNat).entry j n)
        ∧ ∀ l ∈ s.cur.lanes, (t.curParty.lane l).pc = b.nextPc l)
  ∧ ∀ (t : Tile) (i n h : Nat) (c : ConvRecord) (f : Fmt), fmtFloat c.fmt = some f →
      let E := (t.entry i n).toInt
      let widen := fun v => if c.fmt = 1 then v * 2 ^ 13 else v
      let word := (philox 10 (w32 n, w32 i, w32 h, 0) (c.seed.setWidth 32) (c.seed.extractLsb' 32 32)).1.toNat
      (t.entry i n = nanPattern → downConvert t i n h c = widen f.nanBits)
      ∧ ∀ s m e, c.scale = .num s m e → t.entry i n ≠ nanPattern →
        let neg := decide (E < 0) != s
        let x : Mag := { n := E.natAbs * m, e := t.exponent + e }
        (x.n = 0 → downConvert t i n h c = 0)
        ∧ (x.n ≠ 0 → c.rnd ≠ 0 → c.rnd ≠ 5 → downConvert t i n h c = widen (f.sign neg (f.round c.rnd neg x).1))
        ∧ (x.n ≠ 0 → c.rnd = 0 → ∀ p u, x.Has p u → u ≤ f.qmin →
          (f.count u f.maxCode < p → downConvert t i n h c = widen (f.sign neg (f.inf.getD f.maxCode)))
          ∧ (p ≤ f.count u f.maxCode → downConvert t i n h c = widen (f.sign neg (f.round 0 neg x).1)))
        ∧ (x.n ≠ 0 → c.rnd = 5 → ∀ p u, x.Has p u → u ≤ f.qmin →
          (∀ k, k ≤ f.maxCode → f.count u k = p → downConvert t i n h c = widen (f.sign neg k))
          ∧ (f.count u f.maxCode < p → downConvert t i n h c = widen (f.sign neg (f.inf.getD f.maxCode)))
          ∧ ∀ k, k < f.maxCode → f.count u k < p → p < f.count u (k + 1) →
            let gap := f.count u (k + 1) - f.count u k
            downConvert t i n h c = widen (f.sign neg (
              if neg then (if word < (f.count u (k + 1) - p) * 2 ^ 32 / gap then k else k + 1)
              else (if word < (p - f.count u k) * 2 ^ 32 / gap then k + 1 else k))))

/-! ### What words of the device leave alone -/

/-- What settling leaves alone: behind the effect r of a word, only the issuing party's lanes, its skid and times, its team's time
of last issue, and the bytes fetched for the word differ from r. Of a lane that issued only its stall count, scoreboard, breakpoint pass,
counts and registers in error may differ (R17, R201, R212, R338, R351, R432); of another lane only the count of R201. -/
def Obligations.SettlingFrame : Prop :=
  ∀ (s r : State) (i : Instr),
    let t := s.after i r
    ({ t with teams := r.teams } = r)
    ∧ (∀ j, j ≠ r.cur.team → t.team j = r.team j)
    ∧ (∀ k, k ≠ r.cur.party → t.party r.cur.team k = r.party r.cur.team k)
    ∧ ({ t.curTeam with parties := r.curTeam.parties, lastIssue := r.curTeam.lastIssue, swapIn := r.curTeam.swapIn } = r.curTeam)
    ∧ t.curParty.s = r.curParty.s ∧ t.curParty.round = r.curParty.round ∧ t.curParty.fault = r.curParty.fault
    ∧ (∀ l, { t.curParty.lane l with
        ready := (r.curParty.lane l).ready, pend := (r.curParty.lane l).pend, skipped := (r.curParty.lane l).skipped
        pass := (r.curParty.lane l).pass, lastPc := (r.curParty.lane l).lastPc, bad := (r.curParty.lane l).bad } = r.curParty.lane l)
    ∧ (∀ l, l ∉ r.cur.lanes → { t.curParty.lane l with skipped := (r.curParty.lane l).skipped } = r.curParty.lane l)

/-- Words of the device that move no byte of any memory: each leaves near and far memory, every local window and return stack, and the
registers of every lane and of the other parties as they were; all but `acc.alloc`, `acc.free` and `acc.anc` leave every tile so. -/
def Obligations.QuietWords : Prop :=
  ∀ (s : State) (i : Instr) (r : State), s.Ready i → (s.before i).Gathered i →
    (match i with
      | .clause .. | .clend .. | .wswap .. | .accAlloc .. | .accFree .. | .accAnc .. | .tshape .. | .mtsrLane .. | .mtsrUniform .. =>
        engineResult (s.before i) i = some r
      | .collOpen .. | .collWait .. | .collStat .. | .gauge .. | .patDone .. | .stashPut .. | .stashGet .. =>
        trainingResult (s.before i) i = some r
      | .tlbinv .. => systemResult (s.before i) i = some r
      | _ => False) →
    ∃ t, exec i s = .next t
      ∧ t.near = (s.before i).near ∧ t.far = (s.before i).far ∧ (∀ j, (t.team j).mem = ((s.before i).team j).mem)
      ∧ (∀ j k, (j, k) ≠ (s.cur.team, s.cur.party) → (t.party j k).s = ((s.before i).party j k).s
          ∧ ∀ l, ((t.party j k).lane l).v = (((s.before i).party j k).lane l).v)
      ∧ (∀ l, (t.curParty.lane l).v = ((s.before i).curParty.lane l).v)
      ∧ (∀ j k l, ((t.party j k).lane l).stack = (((s.before i).party j k).lane l).stack
          ∧ ((t.party j k).lane l).depth = (((s.before i).party j k).lane l).depth)
      ∧ (match i with
        | .accAlloc .. | .accFree .. | .accAnc .. => True
        | _ => ∀ j, (t.team j).tiles = ((s.before i).team j).tiles)

/-- R188: a `map` that finds its tables writes the 8 bytes of the entry, little-endian, where the walk of the address ends, and no
other byte of near memory; the destination register reads 0. -/
def Obligations.MapWritesItsEntry : Prop :=
  ∀ (s : State) (d a e : BitVec 6) (st : BitVec 2) (slot p : Nat), s.Ready (.map d a e st) →
    let b := s.before (.map d a e st)
    let entry := (b.rdS (a.toNat + 1)).toNat
    entryOk entry = true → b.slotOf ((b.rdS e.toNat).extractLsb' 0 16) = some slot →
    b.entryAt slot (b.rdS a.toNat).toNat (entryStop entry) = some (.near p) →
    ∃ t, exec (.map d a e st) s = .next t ∧ BytesWritten b.near t.near p 8 entry ∧ t.far = b.far
      ∧ (∀ j, (t.team j).mem = (b.team j).mem) ∧ t.curParty.sreg d.toNat = 0 ∧ (∀ n, n ≠ d.toNat → t.curParty.sreg n = b.curParty.sreg n)

/-! ### Traps and handlers -/

/-- R186: `trap` and `brk` complete, and then their lanes trap: kind 13 or 9, the code in info, and the lanes recorded at the next
word. `halt` stops the team behind the word without a trap; sr.fault, every register and every memory stay. -/
def Obligations.StoppingWords : Prop :=
  (∀ (s : State) (c k : BitVec 6) (st : BitVec 2),
    (s.Ready (.trap c k st) →
      let b := (s.before (.trap c k st)).completed (.trap c k st)
      ∃ t, exec (.trap c k st) s = .next t ∧ b.Trapped t s.cur.lanes 0xFF { kind := 13, info := 64 * c.toNat + k.toNat }
        ∧ ∀ l ∈ s.cur.lanes, (t.curParty.lane l).pc = (s.before (.trap c k st)).nextPc l)
    ∧ (s.Ready (.brk c k st) →
      let b := (s.before (.brk c k st)).completed (.brk c k st)
      ∃ t, exec (.brk c k st) s = .next t ∧ b.Trapped t s.cur.lanes 0xFF { kind := 9, info := 64 * c.toNat + k.toNat }
        ∧ ∀ l ∈ s.cur.lanes, (t.curParty.lane l).pc = (s.before (.brk c k st)).nextPc l))
  ∧ ∀ (s : State) (st : BitVec 2), s.Ready (.halt st) →
    let b := s.before (.halt st)
    ∃ t, exec (.halt st) s = .next t ∧ t.curTeam.halt = .halted
      ∧ (∀ l ∈ s.cur.lanes, (t.curParty.lane l).pc = b.nextPc l ∧ (t.curParty.lane l).wait = .stopped)
      ∧ t.curParty.fault = b.curParty.fault ∧ t.curParty.s = b.curParty.s
      ∧ (∀ l, (t.curParty.lane l).v = (b.curParty.lane l).v) ∧ t.near = b.near ∧ t.far = b.far ∧ t.curTeam.mem = b.curTeam.mem

/-- R187: `eret` in a handler restores each lane's program counter, temporaries t0 to t7, clause and progress index and sr.priv, clears
sr.fault.kind, and lets the team run again; flags, registers and memory stay. Outside a handler it traps with detail 3. -/
def Obligations.EretReturns : Prop :=
  ∀ (s : State) (st : BitVec 2), s.Ready (.eret st) →
    let b := s.before (.eret st)
    (∀ v, b.curParty.save = some v →
    ∃ t, exec (.eret st) s = .next t
      ∧ (∀ l ∈ b.curParty.active, (t.curParty.lane l).pc = FMap.get (b.curParty.lane l).pc v.pcs l
          ∧ ((t.curParty.lane l).unit, (t.curParty.lane l).units) = FMap.get (0, 0) v.units l
          ∧ (t.curParty.lane l).clause = FMap.get none v.clauses l
          ∧ ∀ j, j < 8 → FMap.get 0 (t.curParty.lane l).t j = FMap.get 0 v.temps (8 * l + j))
      ∧ t.curParty.priv = v.priv ∧ t.curParty.save = none
      ∧ t.curParty.fault = b.curParty.fault &&& 0x0FFFFFFFFFFFFFFF#64
      ∧ (FMap.wf {} b.curTeam.parties = true → (∀ k, k ≠ s.cur.party → (b.party s.cur.team k).save = none) →
          t.curTeam.halt = .running)
      ∧ t.curParty.s = b.curParty.s ∧ t.curParty.round = b.curParty.round
      ∧ (∀ l, (t.curParty.lane l).v = (b.curParty.lane l).v ∧ (t.curParty.lane l).c = (b.curParty.lane l).c
          ∧ (t.curParty.lane l).fflags = (b.curParty.lane l).fflags)
      ∧ t.near = b.near ∧ t.far = b.far ∧ ∀ j, (t.team j).mem = (b.team j).mem)
    ∧ (b.curParty.save = none → s.curTeam.halt = .running →
        ∃ t, exec (.eret st) s = .next t ∧ b.Trapped t s.cur.lanes 0xFF { kind := 1, detail := 3 })

/-- R33: a word that may not stand where it stands traps at that word with the lowest detail of the causes that apply, and has no
effect on any register, flag, memory or engine; so do a privileged word at user level and a register that R27 forbids. A word that one
lane may not issue traps in it: a temporary outside a clause (detail 5), a register in uncorrectable error (R351), an undersized read
under check (R211), an error that a peer has answered (R461). The model's choices in it: in part which register values count as
reserved for detail 3 (log 43), which registers count as pairs (log 75), and the producer named of several undersized reads (log 80). -/
def Obligations.IllegalWordsTrap : Prop :=
  ∀ (s : State) (i : Instr), isEvent i = false → s.Looks →
    let b := s.looked i
    let u := b.uses i
    let lane := if uniformWord i = true ∨ b.curParty.seq = true then 0xFF else b.firstLane
    (∀ d, b.wordDetail i u = some d → ∃ t, exec i s = .next t ∧ b.Trapped t s.cur.lanes lane { kind := 1, detail := d })
    ∧ (∀ d, b.wordDetail i u = some d ↔ b.Illegal i u d ∧ ∀ c, c < d → ¬ b.Illegal i u c)
    ∧ (privileged i = true → b.curParty.priv = false →
        ∃ t d, d ≤ 8 ∧ exec i s = .next t ∧ b.Trapped t s.cur.lanes lane { kind := 1, detail := d })
    ∧ (srForbidden i b.curParty.seq b.curParty.priv = true →
        ∃ t d, d ≤ 9 ∧ exec i s = .next t ∧ b.Trapped t s.cur.lanes lane { kind := 1, detail := d })
    ∧ (∀ l c, s.cur.lanes = [l] → b.wordDetail i u = none → b.owedExports u = [] → b.laneCause i u l = some c →
        ∃ t, exec i s = .next t ∧ (b.countBad i u).Trapped t [l] lane c)
    ∧ ∀ l,
        let x := b.curParty.lane l
        let temps := (u.vs ++ u.vd).any isTemp
        (x.clause = none → temps = true → b.laneCause i u l = some { kind := 1, detail := 5 })
        ∧ ((x.clause.isSome = true ∨ temps = false) →
          (∀ e, x.dueError i u = some e → b.laneCause i u l = some { kind := 5, detail := e.detail, info := e.info.toNat, acc := e.acc })
          ∧ (x.dueError i u = none →
            ((∃ r ∈ u.sources, r ∈ x.bad) → b.laneCause i u l = some { kind := 5, detail := 4 })
            ∧ ∀ pre post r e, (∀ q ∈ u.sources, q ∉ x.bad) → x.stackBad = false → b.curCtx.control.getLsbD 3 = true →
              u.sources = pre ++ r :: post → (∀ q ∈ pre, ∀ p, x.pendOf q = some p → p.early = false) →
              x.pendOf r = some e → e.early = true → b.laneCause i u l = some { kind := 10, detail := 0, info := e.producer.toNat }))

/-- R431: a lane that stands at a breakpoint does not issue its word: it traps there with kind 9, detail 1 and the breakpoint's
number, and passes when it comes back. -/
def Obligations.BreakpointsTrap : Prop :=
  ∀ (s : State) (i : Instr) (l n : Nat), isEvent i = false → s.issuing = true → s.curTeam.halt = .running → s.dbg.trcStall = false →
    s.cur.lanes = [l] → s.breakAt l = some n →
    let b := s.begin
    ∃ t, exec i s = .next t
      ∧ b.Trapped t [l] (if uniformWord i = true ∨ b.curParty.seq = true then 0xFF else l) { kind := 9, detail := 1, info := 2 ^ 31 + n }
      ∧ (t.curParty.lane l).pass = true

/-- R33, R93: where no instruction stands, the lanes trap with kind 1 and the detail of R33; a fetch that may not be made traps with
kind 5 at its address; a missing translation parks the lanes there. -/
def Obligations.BadWordsTrap : Prop :=
  ∀ s : State, s.Looks →
    (∀ (d : Nat), let i := Instr.illegalInstruction d
      s.Ready i → let b := s.before i
      ∃ t, exec i s = .next t
        ∧ b.Trapped t s.cur.lanes (if b.standsAtUniform = true ∨ b.curParty.seq = true then 0xFF else b.firstLane) { kind := 1, detail := d })
    ∧ (∀ (d : Nat) (a : W64), let i := Instr.instructionFetchFault (.violation d) a
      s.Ready i → let b := s.before i
      let c := b.logFor b.cur.team b.cur.party (if b.curParty.seq then 0 else b.firstLane) a.toNat d .fetch
      ∃ t, exec i s = .next t
        ∧ c.Trapped t s.cur.lanes (if b.curParty.seq then 0xFF else b.firstLane) { kind := 5, detail := d, info := a.toNat })
    ∧ (∀ (a : W64), let i := Instr.instructionFetchFault .missing a
      s.Ready i → let b := s.before i
      ∃ t, exec i s = .next t ∧ b.ParkedOn t s.cur.lanes a)

/-- R338 to R342: TEAM_HALT ends a skid. The party that holds the trap enters the handler of its kind; with no handler, or for a
trap in a handler, the team stays halted with a fault record. -/
def Obligations.TrapsEnterHandlers : Prop :=
  ∀ (s : State) (t k since : Nat), s.running = true → (s.team t).halt = .skid k since →
    let b := s.raised.endTries t
    let h := if (b.party t k).seq then (b.ctx (b.team t).slot).seqhandler else (b.ctx (b.team t).slot).handler
    ((b.party t k).save = none → h ≠ 0 →
      ∃ u, exec (.teamHalt t) s = .next u ∧ (u.team t).halt = .handler k ∧ (b.party t k).Entered (u.party t k) h
        ∧ (∀ j, j ≠ t → u.team j = b.team j) ∧ { u with teams := b.teams } = b)
    ∧ ((b.party t k).save.isSome = true ∨ h = 0 →
      ∃ u, exec (.teamHalt t) s = .next u ∧ (u.team t).halt = .halted
        ∧ u.fq.count + u.fq.held.length = b.fq.count + b.fq.held.length + 1 ∧ u.far = b.far
        ∧ (∀ j, j ≠ t → u.team j = b.team j) ∧ (∀ l, ((u.party t k).lane l).v = ((b.party t k).lane l).v))

/-! ### Events -/

/-- Events of one party. PENDING_REGISTER_WRITE: the register then reads as stored (R209, R212). BAR_TRY_TIMEOUT: the lane takes its flag
clear and goes on, for its bound has passed (R300). STALENESS_FAULT: the lane traps with kind 6 (R368). FRAME_OPEN_RETRY: a parked lane that
has a frame is to replay (R292). LONG_WORD_UNIT_COMPLETE: the run that the party issues next performs one unit of its long word, or begins
one where its port may, and moves on behind the last unit (R157, R206). -/
def Obligations.PartyEvents : Prop :=
  ∀ (s : State) (t k l : Nat), s.running = true →
    (∀ r, (s.team t).live = true →
      ∃ u, exec (.pendingRegisterWrite t k l r) s = .next u ∧ { u with teams := s.teams } = s.raised
        ∧ { (u.party t k).lane l with pend := ((s.party t k).lane l).pend } = (s.party t k).lane l
        ∧ ((∀ e ∈ ((s.party t k).lane l).pend, e.reg = r → e.tag = 0) →
            ∀ n free, r = .v n → ((u.party t k).lane l).rd free l n = ((s.party t k).lane l).reg n))
    ∧ (∀ n st, (s.team t).mayIssue k = true → l ∈ (s.party t k).active → n < 4 → ((s.party t k).lane l).wait = .expired n st →
      ∃ u, exec (.barTryTimeout t k) s = .next u ∧ { u with teams := s.teams } = s.raised
        ∧ ((u.party t k).lane l).flag n = false
        ∧ ((u.party t k).lane l).ready = s.now + weight st
        ∧ { (u.party t k).lane l with
            c := ((s.party t k).lane l).c, ready := ((s.party t k).lane l).ready, pend := ((s.party t k).lane l).pend
            skipped := ((s.party t k).lane l).skipped, pass := ((s.party t k).lane l).pass, lastPc := ((s.party t k).lane l).lastPc
            bad := ((s.party t k).lane l).bad } = ((s.party t k).lane l).next)
    ∧ (∀ a v, s.staleDue t k l = true → ((s.party t k).lane l).wait = .parked a v →
      ∃ u, exec (.stalenessFault t k l) s = .next u
        ∧ State.Trapped { s.raised with cur := { team := t, party := k, lanes := [l] } } u [l] l { kind := 6, info := a.toNat })
    ∧ (∀ a, l ∈ (s.party t k).active → ((s.party t k).lane l).wait = .parked a true → s.raised.readsVersion t k l = false →
      s.raised.frameReady (s.team t).slot (s.team t).step a.toNat = true →
      ∃ u, exec (.frameOpenRetry t k) s = .next u ∧ (u.party t k).lane l = { (s.party t k).lane l with marked := true }
        ∧ u.near = s.near ∧ u.far = s.far)
    ∧ (∀ i ls N unit q p d, s.raised.nextRun t k = l :: ls → s.raised.wordAt t k l = some i → longWord i = true →
      (((s.party t k).lane l).units ≠ 0 ∨ s.raised.mayBegin t k = true) →
      let c := s.raised.unitState t k (l :: ls)
      c.Ready i → ((∃ d a u f m st, i = .tcon d a u f m st) → (c.before i).Met) →
      longPlan (c.before i) i = some (.ok (N, unit), q) → p = (q.curParty.lane q.firstLane).unit → p < N → unit q p = .ok d →
      exec (.longWordUnitComplete t k) s = .next (
        let r := if p + 1 = N then d.advance else (d.standAt (p + 1) N).mapLanes fun _ x => { x with wait := .none }
        let v : State := { c.after i r with cur := { (c.after i r).cur with units := none } }
        if v.curParty.lastIssue = v.now then v.busyNow v.cur.team else v))
    ∧ (∀ i ls, s.raised.nextRun t k = l :: ls → s.raised.wordAt t k l = some i → longWord i = true →
      s.raised.unitTurn t k = some (i, { s.raised with cur := { team := t, party := k, lanes := l :: ls, units := some 1 } }))

/-- R4, R42, R197: a team is placed whole: its strands' lanes stand at the entry with registers, flags and return stacks zero and
the launch's parameters in s56 on; the other teams stay. -/
def Obligations.NewTeamsStartClean : Prop :=
  ∀ (s : State) (key core a c : Nat) (L : Launch), s.launch key = some L → s.reserve L.slot L.hdr = some (a, c) →
    let u := s.placeFresh key core false
    let T := u.team s.disp.nextTeam
    (T.live = true ∧ T.resident = true ∧ T.halt = .running ∧ T.core = core ∧ T.mem = [] ∧ T.slot = L.slot)
    ∧ (∀ j, j ≠ s.disp.nextTeam → u.team j = s.team j)
    ∧ ∀ k, k < L.hdr.strands →
        ((T.party k).seq = false ∧ (T.party k).priv = (s.ctx L.slot).control.getLsbD 8 ∧ (T.party k).fault = 0)
        ∧ (∀ n, (T.party k).sreg n = if 56 ≤ n then (L.params[n - 56]?).getD 0 else 0)
        ∧ ∀ l, l < L.hdr.width →
            ((T.party k).lane l).pc = L.hdrAddr + L.hdr.entry ∧ ((T.party k).lane l).exited = false ∧ ((T.party k).lane l).stack = []
            ∧ ((T.party k).lane l).c = 0 ∧ ∀ n, ((T.party k).lane l).reg n = 0

/-- Events of the dispatcher: placing and pre-empting (R216 to R218), swaps (R222), parked shares (R337), the drain limit (R313),
retirement (R214), and teardown (R317). The order in which teams saved at one event return to their queue is the model's choice (log 79). -/
def Obligations.DispatcherEvents : Prop :=
  ∀ s : State, s.running = true →
    let b := s.raised
    (∀ die,
      let c := b.startPreemption
      (c.cyc.placed.contains die = true ∨ c.dieOffer die = none → exec (.teamPlace die) s = .next c)
      ∧ (∀ q o k, c.cyc.placed.contains die = false → c.dieOffer die = some (q, o, k) →
          exec (.teamPlace die) s = .next (c.place q o k false))
      ∧ ∀ pre q post o k,
          let kept := c.duePreemption.getD []
          let here := fun (x : Nat) => (c.placement x kept ((List.range 8).filter (· != die))).isSome
          c.readyQueues = pre ++ q :: post →
          (∀ x ∈ pre, ∀ y z, c.placement x kept c.cyc.placed = some (y, z) → dieOf z ≠ die ∧ here x = false) →
          c.placement q kept c.cyc.placed = some (o, k) →
          (dieOf k = die → c.dieOffer die = some (q, o, k)) ∧ (dieOf k ≠ die → here q = true → c.dieOffer die = none))
    ∧ (b.duePreemption = none → b.startPreemption = b)
    ∧ (∀ ts, b.duePreemption = some ts →
      ((∀ t ∈ ts, (b.team t).drainFrom.isSome = true) → b.startPreemption = b)
      ∧ ∀ t ∈ ts, (b.team t).drainFrom = none →
          b.startPreemption = (ts.foldl (fun (s : State) t => (s.busyNow t).preempt t false) b).finishSaves)
    ∧ (∀ core t, b.swapVictim core = some t → b.preemptionDueOn core = false →
      exec (.dispatchSwap core) s
        = .next (State.preempt { b with disp := { b.disp with swapping := b.disp.swapping ++ [(t, core)] } } t false).finishSaves)
    ∧ (∀ slot core, b.shareReached slot core = true →
      exec (.parkedShareSwitch slot core) s = .next (((b.teams.filter fun e => e.2.occupies core && e.2.slot == slot).map (·.1)).foldl
        (fun (s : State) t => s.preempt t true) b).finishSaves)
    ∧ (∀ t, b.drainOver t = true → exec (.engdrainExpiry t) s = .next (b.squash t (· == .running)).finishSaves)
    ∧ (∀ t, (b.team t).mayRetire = true →
      let c := (List.range (b.team t).hdr.cores).foldl (fun (s : State) j =>
        s.drain ((b.team t).core + j) fun w => w.parties.any fun q => q.1 == t) b
      c.teamBusy t = false →
      exec (.teamRetire t) s = .next (State.countRetired { c.setTeam t {} with cyc := { c.cyc with left := b.team t :: c.cyc.left } }
        (b.team t).launchKey).updateStep)
    ∧ (∀ slot, (b.ctx slot).resident = true →
      ∃ u, exec (.contextTeardown slot) s = .next u ∧ (u.ctx slot).resident = false ∧ (∀ j, j ≠ slot → u.ctx j = s.ctx j)
        ∧ (∀ e ∈ u.teams, e.2.slot ≠ slot) ∧ (∀ k ∈ u.tasks, k.slot ≠ slot) ∧ (∀ x ∈ u.instances, x.slot ≠ slot)
        ∧ u.counters = s.counters)

/-- Events of the task unit: start and completion (R303, R305, R307), parking (R170), the end of a running job past the drain limit of its
team (R313), and the start of a replay instance when every earlier one of its object has completed and entries are free (R316). The model's
choices in it: a job does in one step what it does without waiting (log 82), the failing addresses of refused cards (log 65), and an instance
that cannot be read (log 17). -/
def Obligations.TaskEvents : Prop :=
  (∀ (s : State) (n : Nat) (k : Task), s.running = true → s.task n = some k →
    let b := s.raised
    (b.mayStart k = true → exec (.taskStart n) s = .next (match k.job with
      | .signal => b.endTask n none
      | .launch h w p => b.startLaunch k h w p
      | .contribution a _ => b.startContribution k a
      | _ => b.setTask { k with state := .running, before := b.sourcesBefore k }))
    ∧ (k.state = .running → b.windowAway k = false → b.drainedOut k = true →
      exec (.jobComplete n) s = .next (b.squash k.team (· == .running)))
    ∧ (∀ c, k.state = .running → b.windowAway k = false → b.drainedOut k = false →
      (match k.job with | .launch .. => False | _ => True) → k.failed = none →
      b.runJob k.n (k.total + 1) = (c, none) → exec (.jobComplete n) s = .next (c.endTask k.n none))
    ∧ (∀ key h w p, k.state = .running → b.windowAway k = false → b.drainedOut k = false → k.job = .launch h w p → k.failed = none →
      k.launched = some key →
      FMap.get none b.disp.launches key = none → exec (.jobComplete n) s = .next (b.endTask n none))
    ∧ (∀ c a acc q, k.state = .running → b.windowAway k = false → b.drainedOut k = false → k.launched = none →
      b.runJob n (k.total + 1) = (c, some (.park a acc q)) → exec (.jobPark n) s = .next (c.stopJob n (.park a acc q))))
  ∧ ∀ (s : State) (x : Instance) (v bs patch : Nat) (cards : List Nat), s.running = true →
    let b := s.raised
    (b.instances.find? fun j => j.order == x.order) = some x → x.started = false →
    (b.instances.find? fun j => j.asid == x.asid && j.object == x.object) = some x →
    b.readAs x.slot x.object.toNat 64 64 = .ok v →
    let g := graphOf v
    let A := x.object.toNat
    g.ncards ≤ b.freeEntries → b.readAs x.slot (A + g.bindbase) (8 * g.nbind) (8 * g.nbind) = .ok bs →
    b.readAs x.slot (A + g.slotbase + 8 * g.pwords * x.index) (8 * g.pwords) (8 * g.pwords) = .ok patch →
    b.instanceCards x g (numbersOf bs 8 g.nbind) patch (List.range g.ncards) = .ok cards →
    exec (.replayInstanceStart x.order) s
      = .next ((cards.foldl (fun (s : State) c => s.receiveCard x c) (b.markStarted x.order)).endInstance x.order)

/-- Events of steps and versions: publication (R293), the end of a checkpoint's drain (R384), the tide's beacons and expiries (R363,
R364), and its enabling (R360). -/
def Obligations.StepEvents : Prop :=
  ∀ s : State, s.running = true →
    let b := s.raised
    (∀ ring step, b.publishing.contains (ring, step) = true → exec (.framePublish ring step) s = .next (b.publish ring step))
    ∧ (∀ n failed, (s.ckpt n).state = 1 → failed = true ∨ (s.ckpt n).broken = true →
      exec (.ckptDrainEnd n failed) s = .next (b.endCkpt n true))
    ∧ (∀ n, (s.ckpt n).state = 1 → (s.ckpt n).broken = false → b.ckptIsHere (s.ckpt n) = true →
      exec (.ckptDrainEnd n false) s = .next ((b.ckptHere (s.ckpt n)).1.endCkpt n (b.ckptHere (s.ckpt n)).2))
    ∧ (∀ n, (s.ckpt n).state = 1 → (s.ckpt n).broken = false → b.ckptIsHere (s.ckpt n) = false → b.ckptAwaits (s.ckpt n) = false →
      exec (.ckptDrainEnd n false) s = .next (b.endCkpt n false))
    ∧ (∀ (c : State) n failed, ((c.endCkpt n failed).ckpt n).state = (if failed then 3 else 2) ∧ ((c.endCkpt n failed).ckpt n).frames = []
        ∧ (failed = false → ((c.endCkpt n failed).ckpt n).bytes = (c.ckpt n).total)
        ∧ (∀ m, m ≠ n → (c.endCkpt n failed).ckpt m = c.ckpt m) ∧ (c.endCkpt n failed).far = c.far)
    ∧ (∀ v : W64, v.getLsbD 16 = true → s.ctrl.tideEnable = false →
      ∃ u, exec (.tideEnable v) s = .next u ∧ u.ctrl.tideEnable = true ∧ u.ctrl.tideAsid = v.extractLsb' 24 16
        ∧ u.ctrl.leader = v.getLsbD 17 ∧ State.SameStores s u)
    ∧ (b.beaconDue = true →
      let c : State := State.ownEntry { b with tide := { s.tide with due := false, lastBeat := s.now } }
      ∃ u, exec .tideBeaconSend s = .next u ∧ u.tide = c.tide ∧ State.SameStores s u
        ∧ ∀ e ∈ c.tide.entries, e.2.state ≠ 3 → e.2.module.toNat ≠ s.systemModule → b.reaches e.2.module.toNat = true →
            let m := e.2.module.toNat
            let p := Packet.beacon m (c.beaconStep e.2)
            (∃ x ∈ u.fab.unacked, x.module = m ∧ x.bulk = false ∧ x.packet = p)
            ∧ (b.routePorts m ≠ [] → ∃ r ∈ u.out, ∃ q, r = .routed q p ∧ q.traffic = .message))
    ∧ (∀ m x, s.ctrl.tideEnable = true → FMap.wf {} s.tide.entries = true →
      ∃ u, exec (.tideBeaconReceive m x) s = .next u ∧ State.SameStores s u
        ∧ ∀ e, u.tideEntry e = if (s.tideEntry e).state = 3 ∨ (s.tideEntry e).module.toNat ≠ m ∨ FMap.get {} s.tide.entries e = {} then
              s.tideEntry e
            else { s.tideEntry e with
              step := x, heard := s.dieCycle 0, silentFrom := s.now
              state := if (s.tideEntry e).state = 1 then 0 else (s.tideEntry e).state })
    ∧ (∀ e, s.ctrl.tideEnable = true → (s.tideEntry e).module.toNat ≠ s.systemModule →
      ((s.tideEntry e).state = 0 → (s.tideEntry e).silentFrom + 4096 * s.ctrl.late.toNat ≤ s.now →
        exec (.tideLateExpiry e) s = .next (b.setTideEntry e { s.tideEntry e with state := 1 }))
      ∧ ((s.tideEntry e).covered = true → s.ctrl.absent ≠ 0 → (s.tideEntry e).silentFrom + 65536 * s.ctrl.absent.toNat ≤ s.now →
        exec (.tideAbsentExpiry e) s = .next (b.setTideEntry e { s.tideEntry e with state := 2 })))

/-- Events of the core's peer side and of the links: drains (R288, R289), requests at their target in sequence order (R417), answers
(R406, R451), acknowledgements (R423), replays and retrains (R422), and unreachable modules (R424). The model's choices in it: a connection
beyond the pod closes when no unit to its module is left unacknowledged (log 53), a retrain that a partner asks for ends in a later turn, and
the cycle from which a module counts as without a route (log 87). -/
def Obligations.FabricEvents : Prop :=
  ∀ s : State, s.running = true →
    let b := s.raised
    (∀ c, exec (.wcbAgeDrain c) s = .next (b.drain c fun l => decide (l.since + s.ctrl.wcbAge.toNat ≤ s.now)))
    ∧ exec .wcbFlush s = .next ((s.cores.map (·.1)).foldl (fun (s : State) c => s.drain c fun _ => true) b)
    ∧ (∀ r : PeerReq, r.dst = s.module →
      let g := s.ingressOf r
      (r.seq = g.next → exec (.peerRequestReceive r) s = .next ((b.deliver r).deliverAhead r g.ahead.length))
      ∧ (g.next < r.seq → (g.ahead.any fun q => q.seq == r.seq) = false →
          exec (.peerRequestReceive r) s = .next (b.setIngress r { g with ahead := g.ahead ++ [r] }))
      ∧ (g.next < r.seq → (g.ahead.any fun q => q.seq == r.seq) = true → exec (.peerRequestReceive r) s = .next b)
      ∧ (∀ n a, r.seq < g.next → (g.stored.find? fun e => e.1 == r.seq) = some (r.seq, n, a) →
          exec (.peerRequestReceive r) s = .next (b.answer r a))
      ∧ (r.seq < g.next → (g.stored.find? fun e => e.1 == r.seq) = none → exec (.peerRequestReceive r) s = .next b))
    ∧ (∀ c m q o d, b.takeOutstanding c m q = some (o, d) →
      (∀ vs, o.reads = true → o.window = none → o.task = none → exec (.peerResponseLand c m q (.data vs)) s = .next ((d.landData o vs).pumpAll c))
      ∧ (∀ e, o.reads = true → o.window = none → o.task = none → exec (.peerResponseLand c m q (.error e)) s = .next ((d.failRead o e).pumpAll c))
      ∧ (∀ n a, o.reads = true → o.window = none → o.task = some n →
          exec (.peerResponseLand c m q a) s = .next ((d.landTask o n a).pumpAll c))
      ∧ (∀ w a, o.reads = true → o.window = some w → exec (.peerResponseLand c m q a) s = .next ((d.landWindow w a).pumpAll c))
      ∧ (o.reads = false → exec (.peerAckLand c m q none) s = .next (d.pumpAll c))
      ∧ (∀ e, o.reads = false → o.task = none → o.party ≠ jobParty → exec (.peerAckLand c m q (some e)) s = .next ((d.failWrite o e).pumpAll c))
      ∧ (∀ n e, o.reads = false → o.task = some n → exec (.peerAckLand c m q (some e)) s = .next ((d.landTask o n (.error e)).pumpAll c)))
    ∧ (∀ p, p < 28 →
      (let recent := s.now :: (s.port p).recent.filter fun c => decide (s.now < c + 65536)
       let x : Port := { s.port p with replays := satInc (s.port p).replays, recent := recent }
       (24 ≤ p ∨ recent.length ≤ s.ctrl.errthr.toNat ∨ (s.port p).up = false → exec (.linkReplay p) s = .next (b.setPort p x))
       ∧ (p < 24 → s.ctrl.errthr.toNat < recent.length → (s.port p).up = true →
          exec (.linkReplay p) s
            = .next ((b.setPort p { x with state := 1, retrains := satInc (s.port p).retrains, recent := [] }).reroute p)))
      ∧ (∀ w ok, ok = (if p < 24 then widthOk s.ctrl.minw w else w == 4) → (s.port p).state = 1 →
        exec (.linkRetrain p w) s = .next ((b.setPort p { s.port p with
          state := if ok = false then 4 else if w = 4 then 2 else 3, width := if ok then BitVec.ofNat 3 w else 0 }).testRoutes.reroute p))
      ∧ (∀ w, (s.port p).state ≠ 1 → exec (.linkRetrain p w) s = .next (State.later ((b.setPort p { s.port p with
          state := 1, retrains := satInc (s.port p).retrains, recent := [] }).reroute p) (.linkRetrain p w)))
      ∧ ∀ (x : Port), (b.setPort p x).port p = { x with left := if (s.port p).up = true ∧ x.up = false then s.now else x.left })
    ∧ (∀ m, s.lost m = false →
      let mark := fun (n : Nat) => ({ b with fab := { s.fab with routeless := FMap.set 0 s.fab.routeless m n } } : State)
      (b.routePorts m ≠ [] → exec (.moduleUnreachable m) s = .next ((mark 0).rerouteTo m))
      ∧ (b.routePorts m = [] → b.lossDue m = true → exec (.moduleUnreachable m) s = .next (b.loseModule m))
      ∧ (b.routePorts m = [] → b.lossDue m = false → FMap.get 0 s.fab.routeless m = 0 →
          exec (.moduleUnreachable m) s = .next (mark (s.now + 1)))
      ∧ (b.routePorts m = [] → b.lossDue m = false → FMap.get 0 s.fab.routeless m ≠ 0 → exec (.moduleUnreachable m) s = .next b))
    ∧ (∀ m n, m / 1024 ≠ s.pod →
      let c : State := { b with fab := { s.fab with unacked := s.fab.unacked.filter fun u => !(u.module == m && u.number == n) } }
      ((∃ u ∈ s.fab.unacked, u.module = m ∧ u.number ≠ n) → exec (.endToEndAckReceive m n) s = .next c)
      ∧ ((∀ u ∈ s.fab.unacked, u.module = m → u.number = n) → exec (.endToEndAckReceive m n) s = .next (c.disconnect m)))
    ∧ (∀ m n, m / 1024 = s.pod → exec (.endToEndAckReceive m n) s = .next { b with fab := { s.fab with
        unacked := s.fab.unacked.filter fun u => !(u.module == m && u.number == n)
        ingress := s.fab.ingress.map fun e => if e.1 / 2048 = m % 1024 then (e.1, { e.2 with stored := e.2.stored.filter fun x => x.2.1 != n }) else e } })

/-- Events of collectives: contributions at an owner, judged with the rest of the cycle's (R373, R374), its timer (R374), closes at a
member (R377), the gauge's digests (R382), and partial sums (R428). -/
def Obligations.CollectiveEvents : Prop :=
  ∀ (s : State) (h : Nat), s.running = true → (s.coll h).isOpen = true →
    let b := s.raised
    let C := s.coll h
    (∀ c k, C.record.moduleOf (C.record.owner c) = s.systemModule → c < C.record.chunks →
      let x := (C.chunk c).receive k s.now (!(C.chunk c).lastCovered.isEmpty)
      let d := b.setColl h { C with owned := FMap.set {} C.owned c x }
      ((C.chunk c).tooEarly k = true → (64 < C.record.total ∨ C.ownShares k ≠ []) →
          exec (.collContributionArrival h c k) s = .next (b.setColl h { C with engine := C.engine ++ [(c, k)] }))
      ∧ ((C.chunk c).tooEarly k = true → C.record.total ≤ 64 → C.ownShares k = [] → exec (.collContributionArrival h c k) s = .next b)
      ∧ ((C.chunk c).tooEarly k = false → s.moreArrivals h c = true → exec (.collContributionArrival h c k) s = .next d)
      ∧ ((C.chunk c).tooEarly k = false → s.moreArrivals h c = false →
          exec (.collContributionArrival h c k) s = .next (d.closeAtQuorum h c (x.early.length + x.waiting.length + 1))))
    ∧ (∀ c t, (C.chunk c).since = some t → C.record.timer ≠ 0 → t + 1024 * C.record.timer ≤ s.now →
      exec (.collTimerClose h c) s = .next ((b.closeChunk h c true).closeAtQuorum h c ((C.chunk c).waiting.length + 2)))
    ∧ (∀ k : ChunkClose, k.chunk < C.record.chunks →
      let place := if C.record.kind = 1 then k.chunk / C.record.n else k.chunk
      let result := if k.result = [] then []
        else [(C.record.result.toNat + C.record.resultBytes * place, C.record.resultBytes, packBytes C.record.outBytes k.result)]
      let w := b.engineWrite h k.step (result ++ [(C.record.closerec.toNat + C.record.closeBytes * k.chunk, C.record.closeBytes, closeRecordOf k)])
      let D := w.coll h
      let E := { D with
        closes := FMap.set none D.closes (closeKey k.chunk k.step) (some { k with result := [] })
        newest := some (match D.newest with | none => k.step | some n => if n < k.step then k.step else n) }
      let got := (List.range C.record.chunks).map fun c => FMap.get none E.closes (closeKey c k.step)
      (got.all Option.isSome = false → exec (.collCloseReceive h k) s
          = .next ((State.wakeEngine (w.setColl h E) h k.chunk).sendWaiting E.asid E.address k.chunk))
      ∧ (got.all Option.isSome = true → exec (.collCloseReceive h k) s
          = .next ((State.wakeEngine ((w.setColl h E).gaugeStep h k.step (got.filterMap fun g => g.map (·.bitmap))) h k.chunk).sendWaiting
              E.asid E.address k.chunk)))
    ∧ (∀ step m d, ((C.gaugeOf step).got.any fun e => e.1 == m) = false →
      exec (.gaugeDigestReceive h step m d) s = .next ((b.setColl h (C.putGauge { C.gaugeOf step with
        got := (C.gaugeOf step).got ++ [(m, d)] })).decideGauge h step))
    ∧ (∀ c k, s.ctrl.window = 0 → exec (.partialArrival h c k) s = .next (b.forwardPartial h c k))
    ∧ (∀ c k, s.ctrl.window ≠ 0 →
      let same := fun (w : Combine) => w.handle == h && w.chunk == c && w.step == k.step
      let put := fun (ws : List Combine) => ({ b with fab := { s.fab with combining := ws } } : State)
      let fresh : Combine := { handle := h, chunk := c, step := k.step, parts := k, since := s.now }
      (s.fab.combining.find? same = none → exec (.partialArrival h c k) s = .next (put (s.fab.combining ++ [fresh])))
      ∧ ∀ w, s.fab.combining.find? same = some w →
        (s.now < w.since + s.ctrl.window.toNat → exec (.partialArrival h c k) s
          = .next (put (s.fab.combining.map fun x => if same x then { x with parts := addParts x.parts k } else x)))
        ∧ (w.since + s.ctrl.window.toNat ≤ s.now → exec (.partialArrival h c k) s
          = .next ((put (s.fab.combining.map fun x => if same x then fresh else x)).forwardPartial h c w.parts)))
    ∧ (∀ c step w, (s.fab.combining.find? fun w => w.handle == h && w.chunk == c && w.step == step) = some w →
      w.since + s.ctrl.window.toNat ≤ s.now →
      exec (.combineWindowExpiry h c step) s
        = .next (State.forwardPartial { b with fab := { s.fab with combining := s.fab.combining.erase w } } h c w.parts))

/-- Events of the pattern: signals and credits (R396, R398), the hand-out of the head (R397), and PATCFG.enable (R394). The channel on which
a kernel header in a peer window is read is the model's choice (log 16). -/
def Obligations.PatternEvents : Prop :=
  ∀ s : State, s.running = true →
    let b := s.raised
    (∀ asid n, s.patServes asid = true →
      exec (.patternSignalReceive asid n) s = .next { b with pat := { s.pat with
        arrivals := FMap.set 0 s.pat.arrivals (n % 256) (Nat.min 255 (FMap.get 0 s.pat.arrivals (n % 256) + 1)) } })
    ∧ (∀ asid, s.patServes asid = true → s.pat.credit < 255 →
      exec (.creditReceive asid) s = .next { b with pat := { s.pat with credit := s.pat.credit + 1 } })
    ∧ (∀ e w, s.ctrl.patEnable = true → s.pat.stopped = false → s.patHead = some e → s.patUnmet e = none → e.kernel = 0 →
      b.patNextWaiter = some w →
      exec .patternHandout s = .next ((b.patConsume e).patGive w e.word0 e.param))
    ∧ (∀ e, s.ctrl.patEnable = true → s.pat.stopped = false → s.patHead = some e → s.patUnmet e = none → e.kernel ≠ 0 →
      exec .patternHandout s = .next (b.patLaunch e))
    ∧ (∀ v : W64, v.getLsbD 0 = true → s.ctrl.patEnable = false →
      ∃ u, exec (.patcfgEnable v) s = .next u ∧ u.ctrl.patEnable = true ∧ u.ctrl.patAsid = v.extractLsb' 48 16
        ∧ u.pat.entries = [] ∧ u.pat.arrivals = [] ∧ u.pat.slots = [] ∧ u.pat.credit = bits v.toNat 19 12 ∧ State.SameStores s u)
    ∧ (∀ v : W64, v.getLsbD 0 = false → s.ctrl.patEnable = true →
      ∃ u, exec (.patcfgDisable v) s = .next u ∧ u.ctrl.patEnable = false ∧ u.pat.entries = [] ∧ u.pat.slots = []
        ∧ u.near = s.near ∧ u.far = s.far ∧ u.counters = s.counters)

/-- Events of the debugger and the trace: samples (R435, R436), frames and overflow records (R440), halts and releases (R433), and
the data port (R434). -/
def Obligations.DebugEvents : Prop :=
  ∀ s : State, s.running = true →
    let b := s.raised
    (s.dbg.sampEnable = false ∨ s.now < s.dbg.sampAt → exec .sampleTick s = .next b)
    ∧ (s.dbg.sampEnable = true → s.dbg.sampAt ≤ s.now →
      ∃ u, exec .sampleTick s = .next u ∧ u.far = s.far ∧ u.teams = s.teams ∧ u.counters = s.counters
        ∧ u.dbg.sampAt = s.now + s.dbg.sampInterval.toNat
        ∧ (∀ c o t k, s.teams = [(t, s.team t)] → (s.team t).parties = [(k, s.party t k)] → (s.party t k).core = c →
            b.sampleParty c = some (o, t, k) → u.dbg.sampNext = s.dbg.sampNext + 1))
    ∧ (∀ die r rest, (s.traceDie die).buffer = r :: rest →
      exec (.traceFrameSend die) s = .next ((b.setTraceDie die { s.traceDie die with
        buffer := rest, frame := (s.traceDie die).frame + 1 }).send (.trace die (frameHeader die (s.traceDie die).frame r) r)))
    ∧ (∀ die, (s.traceDie die).lost ≠ 0 → (s.traceDie die).buffer.length < 131072 →
      ∃ u, exec (.traceOverflowRecord die) s = .next u ∧ (u.traceDie die).lost = 0
        ∧ (u.traceDie die).buffer = (s.traceDie die).buffer
            ++ [traceRecord 6 0 0 0 false 0 (s.dieCycle die) 0 (w64 (s.traceDie die).lost)] ∧ State.SameStores s u)
    ∧ (∀ (v : W64) t, v.getLsbD 46 = true → v.getLsbD 47 = false → s.named v = some t → (s.team t).resident = true →
      ((s.team t).halt = .running ∨ ∃ k, (s.team t).halt = .handler k) →
      ∃ u, exec (.debugHalt v) s = .next u ∧ (u.team t).halt = .debugSkid s.now ∧ (∀ j, j ≠ t → u.team j = s.team j)
        ∧ (u.team t).mem = (s.team t).mem ∧ u.near = s.near ∧ u.far = s.far
        ∧ ∀ k l, (u.party t k).lane l = (s.party t k).lane l)
    ∧ (∀ (v : W64) t, v.getLsbD 47 = true → v.getLsbD 46 = false → s.named v = some t → (s.team t).resident = true →
      (s.team t).halt = .halted → (∀ e ∈ (s.team t).parties, e.2.save = none) →
      ∃ u, exec (.debugRelease v) s = .next u ∧ (u.team t).halt = .running ∧ (∀ j, j ≠ t → u.team j = s.team j)
        ∧ ∀ k l, ((u.party t k).lane l).pc = ((s.party t k).lane l).pc ∧ ((u.party t k).lane l).v = ((s.party t k).lane l).v)
    ∧ (s.host.powerOff = false →
      (∀ x, s.raised.readSelected = some x → exec .dbgdataRead s = .next (b.send (.debugData x)))
      ∧ (∀ v t, s.raised.writeSelected v = some t → exec (.dbgdataWrite v) s = .next { t with dbg := { t.dbg with data := v } }))

/-- The pins and the management ports act in every module, frozen or not: freeze (R443), JTAG (R444), the semaphore (R452), identity
and attestation (R456). -/
def Obligations.PortEvents : Prop :=
  ∀ s : State,
    let b := s.raised
    let z : State := { b with host := { s.host with frozen := true } }
    let ir := fun (x : W8) => ({ b with host := { s.host with jtagIR := x } } : State)
    exec .freezePin s = .next z
    ∧ (∀ p, p = 1 ∨ p = 2 → exec (.mgmtFreeze p) s = .next z)
    ∧ (∀ x, exec (.jtagExtest x) s = .next ({ ir 0 with host := { (ir 0).host with boundary := x, pins := x } }.send (.jtag s.host.pins)))
    ∧ (∃ x, exec .jtagIdcode s = .next ((ir 1).send (.jtag x)) ∧ x.length = 32)
    ∧ (∀ x, exec (.jtagSamplePreload x) s = .next ({ ir 2 with host := { (ir 2).host with boundary := x } }.send (.jtag s.host.pins)))
    ∧ (exec (.jtagFreeze true) s = .next { z with host := { z.host with jtagIR := 0x10 } })
    ∧ (∀ x, exec (.jtagBypass x) s = .next ((ir 0xFF).send (.jtag [false, x])))
    ∧ (s.host.powerOff = false →
        (∀ v, ∃ u, exec (.jtagDsel v) s = .next u ∧ u.dbg.sel = v.setWidth 40 ∧ State.SameStores s u)
        ∧ (∀ x, (ir 0x12).readSelected = some x → exec (.jtagDdata none) s = .next ((ir 0x12).send (.jtagWord x)))
        ∧ (∀ v t, (ir 0x12).writeSelected v = some t → exec (.jtagDdata (some v)) s = .next { t with dbg := { t.dbg with data := v } }))
    ∧ (∀ p, p = 1 ∨ p = 2 →
        (s.host.semOwner = 0 → exec (.mgmtsemAcquire p) s = .next { b with
            host := { s.host with semOwner := BitVec.ofNat 2 p }, cyc := { s.cyc with semTaken := s.cyc.semTaken || p == 2 } })
        ∧ (s.host.semOwner.toNat = p → exec (.mgmtsemRelease p) s = .next { b with host := { s.host with semOwner := 0 } })
        ∧ (s.host.semOwner ≠ 0 → s.host.semOwner.toNat ≠ p → exec (.mgmtsemAcquire p) s = .next (b.send (.mgmtError p)))
        ∧ (∀ d, s.host.semOwner.toNat = p → FMap.get 0 s.host.mgmtDown p = d + 1 →
            (d + 2100000000 ≤ s.now → exec (.mgmtLinkLossRelease p) s = .next { b with host := { s.host with semOwner := 0 } })
            ∧ (s.now < d + 2100000000 → exec (.mgmtLinkLossRelease p) s = .next b))
        ∧ (FMap.get 0 s.host.mgmtDown p = 0 → exec (.mgmtLinkLossRelease p) s = .next b)
        ∧ (∃ c, exec (.identity p) s = .next (b.send (.mgmtReply p c)))
        ∧ (∀ n, ∃ u d1 d2 sig, exec (.attest p n) s = .next u ∧ u = b.send (.attestation p n d1 s.host.fwDigest d2 s.host.fwVersion
            s.host.straps sig)))

/-- Events of the host: far memory through BAR 2 (R448), doorbells and the launches that they enqueue (R451, R464), MSI-X masks (R447), key
slots (R457), the registers of the control window, field by field (R13, R449): a reserved value leaves its field, a one clears, a read
index stays in the unread range, and what else a write does (R222, R287, R312, R333, R335, R361, R425, R430, R435, R438, R459, R460); and
launch windows, whose fields read as they were written (R450). -/
def Obligations.HostEvents : Prop :=
  ∀ s : State, s.running = true →
    let b := s.raised
    let key := s.host.farwin.toNat
    (∀ o n, o + n ≤ 3 * 2 ^ 39 →
      (s.hasKey key = true →
        (s.isBad (.far o key) n = false → ∃ p, exec (.hostFarRead o n) s = .next (b.send (.hostRead o (some p))) ∧ p.length = n)
        ∧ (s.isBad (.far o key) n = true → ∃ u, exec (.hostFarRead o n) s = .next u ∧ Packet.hostAbort o ∈ u.out ∧ u.far = s.far)
        ∧ (∀ bytes, bytes.length = n → exec (.hostFarWrite o bytes) s = .next (b.writePlace (.far o key) n (ofBytes bytes))))
      ∧ (s.hasKey key = false →
        (∃ u, exec (.hostFarRead o n) s = .next u ∧ Packet.hostAbort o ∈ u.out ∧ u.far = s.far)
        ∧ (∀ bytes, bytes.length = n → ∃ u, exec (.hostFarWrite o bytes) s = .next u ∧ Packet.hostAbort o ∈ u.out ∧ u.far = s.far)))
    ∧ (∀ o n, 3 * 2 ^ 39 < o + n →
      (∃ u, exec (.hostFarRead o n) s = .next u ∧ Packet.hostAbort o ∈ u.out ∧ u.far = s.far)
      ∧ (∀ bytes, bytes.length = n → ∃ u, exec (.hostFarWrite o bytes) s = .next u ∧ Packet.hostAbort o ∈ u.out ∧ u.far = s.far))
    ∧ (∀ q, q < 64 →
      ((s.window q).busy = true → exec (.doorbell q) s = .next b)
      ∧ ((s.window q).busy = false → exec (.doorbell q) s = .next (b.setWindow q { s.window q with
          busy := true, rung := ((s.window q).header, (s.window q).launch, (s.window q).params), header64 := none })))
    ∧ (∀ (q slot : Nat), let w := s.window q
      let f := s.rungFields w
      let H := f.1.toNat
      (((s.host.windows.filter fun e => e.2.busy).map fun e => e.1) = [q] → s.judgeWindows = s.judge q)
      ∧ (s.queueOwner q = none → s.judge q = s.endWindow q 1)
      ∧ (s.queueOwner q = some slot → w.header64 = some none → s.judge q = s.endWindow q 3)
      ∧ (s.queueOwner q = some slot → w.header64 = none → s.asking q = false →
        ((s.ctx slot).badLaunchWord f.2.1.toNat = true ∨ H % 64 ≠ 0 → s.judge q = s.endWindow q 1)
        ∧ ((s.ctx slot).badLaunchWord f.2.1.toNat = false → H % 64 = 0 →
          (∀ m x, s.locate slot 0 .read H 8 = .ok (.peer m x) →
            s.judge q = (s.setWindow q { w with rung := (f.1, w.rung.2) }).askHeader windowCore q slot H m x)
          ∧ (∀ a d, (∀ m x, s.locate slot 0 .read H 8 ≠ .ok (.peer m x)) → s.readAs slot H 64 64 = .error (a, .bad d) →
            s.judge q = (s.logAs slot 0 0 a d .read true).endWindow q 3)
          ∧ ∀ v, s.readAs slot H 64 64 = .ok v →
            (parseHeader H v = none → s.judge q = s.endWindow q 1)
            ∧ ∀ h, parseHeader H v = some h →
              (8 < h.params ∨ 56 ≤ q ∧ h.seq = true → s.judge q = s.endWindow q 1)
              ∧ (h.params ≤ 8 → (56 ≤ q → h.seq = false) → 256 ≤ (s.queue q).length → s.judge q = s.endWindow q 2)
              ∧ (h.params ≤ 8 → (56 ≤ q → h.seq = false) → (s.queue q).length < 256 →
                  let L : Launch := { slot := slot, hdrAddr := f.1, hdr := h, word := f.2.1, params := (List.range h.params).map f.2.2
                                      queue := q, src := .host q }
                  s.judge q = (s.enqueueLaunch L).1.endWindow q 0)))
      ∧ ∀ (c : State) n, ((c.endWindow q n).window q).busy = false ∧ ((c.endWindow q n).window q).result = BitVec.ofNat 2 n)
    ∧ (∀ v, v < 64 →
      ∃ u, exec (.msixUnmask v) s = .next u ∧ FMap.get false u.host.unmasked v = true ∧ State.SameStores s u
        ∧ (FMap.get false s.host.pendingV v = true → s.host.maskAll = false → u.out = .msix v :: s.out))
    ∧ (∀ p (v : W64), p = 1 ∨ p = 2 → s.host.semOwner.toNat = p → s.host.powerOff = false →
      (bits v.toNat 15 14 = 1 → bits v.toNat 12 0 = 0 → (s.ctxs.any fun e => e.2.resident) = true →
        ∃ u, exec (.keyLoad p v) s = .next u ∧ u.host.keyErr = true ∧ u.host.keys = s.host.keys ∧ State.SameStores s u)
      ∧ (bits v.toNat 15 14 = 1 → bits v.toNat 12 0 ≠ 0 ∨ (s.ctxs.any fun e => e.2.resident) = false →
        ∃ u, exec (.keyLoad p v) s = .next u ∧ FMap.get none u.host.keys (bits v.toNat 12 0) = some s.host.keyWords
          ∧ (∀ j, j ≠ bits v.toNat 12 0 → FMap.get none u.host.keys j = FMap.get none s.host.keys j) ∧ State.SameStores s u)
      ∧ (bits v.toNat 15 14 = 2 →
        ∃ u, exec (.keyEmpty p v) s = .next u ∧ FMap.get none u.host.keys (bits v.toNat 12 0) = none ∧ u.host.keydata = []
          ∧ State.SameStores s u))
    ∧ (∀ v : W64, s.host.powerOff = false →
      (∃ u, exec (.registerWrite 0 .control 0x5000 v) s = .next u ∧ u.host.keyErr = true ∧ u.host.keys = s.host.keys)
      ∧ (∃ u, exec (.registerWrite 0 .control 0x2048 v) s = .next u ∧ u.host.farwin = v.extractLsb' 0 13 ∧ State.SameStores s u)
      ∧ (∃ u, exec (.registerWrite 0 .control 0x6000 v) s = .next u
          ∧ u.host.eccCorrected = s.host.eccCorrected &&& ~~~v.extractLsb' 0 32
          ∧ u.host.eccUncorrected = s.host.eccUncorrected &&& ~~~v.extractLsb' 32 32)
      ∧ (∃ u, exec (.registerWrite 0 .launch 0x3008 v) s = .next u ∧ (u.window 3).launch = v ∧ ∀ j, j ≠ 3 → u.window j = s.window j))
    ∧ (∀ v : W64, s.host.powerOff = false →
      let field := fun (hi lo : Nat) => bits v.toNat hi lo
      let c := s.ctrl
      let d := s.dbg
      let h := s.host
      let put := fun (o : Nat) (x : Ctrl) => exec (.registerWrite 0 .control o v) s = .next { b with ctrl := x }
      put 0x2000 { c with dswapEnable := v.getLsbD 32, dswapCycles := if 1024 ≤ field 31 0 then v.extractLsb' 0 32 else c.dswapCycles }
      ∧ put 0x2008 { c with mcfgShare := if c.mcfgFixed = false ∧ field 1 0 ≠ 3 then v.extractLsb' 0 2 else c.mcfgShare }
      ∧ (v.getLsbD 20 = false → put 0x2010 { c with wcbAge := if 64 ≤ field 19 0 then v.extractLsb' 0 20 else c.wcbAge })
      ∧ (v.getLsbD 20 = true → exec (.registerWrite 0 .control 0x2010 v) s = .next (State.flushAll { b with
          ctrl := { c with wcbAge := if 64 ≤ field 19 0 then v.extractLsb' 0 20 else c.wcbAge } }))
      ∧ put 0x2018 { c with engLimit := if field 15 0 ≠ 0 then v.extractLsb' 0 16 else c.engLimit }
      ∧ put 0x2020 { c with
          vlogBase := v.extractLsb' 15 17, vlogLost := c.vlogLost &&& ~~~v.extractLsb' 32 16
          vlogRead := if v.extractLsb' 48 10 - c.vlogRead ≤ c.vlogNext - c.vlogRead then v.extractLsb' 48 10 else c.vlogRead }
      ∧ put 0x2028 { c with
          fqCounter := v.extractLsb' 38 12, fqValid := v.getLsbD 37
          fqBase := if s.fq.count = 0 ∧ s.fq.held = [] then v.extractLsb' 17 15 else c.fqBase }
      ∧ put 0x2040 { c with
          lossto := if field 63 40 ≠ 0 then v.extractLsb' 40 24 else c.lossto
          errthr := if field 39 32 ≠ 0 then v.extractLsb' 32 8 else c.errthr
          arity := if 2 ≤ field 23 20 then v.extractLsb' 20 4 else c.arity, window := v.extractLsb' 8 12
          minw := if field 1 0 ≠ 3 then v.extractLsb' 0 2 else c.minw }
      ∧ (v.getLsbD 0 = c.ueptValid → put 0x2038 { c with ueptBase := v.extractLsb' 21 11 })
      ∧ exec (.registerWrite 0 .control 0x2030 v) s
        = .next { b with fq := { s.fq with peak := (BitVec.ofNat 13 s.fq.peak &&& ~~~v.extractLsb' 16 13).toNat } }
      ∧ (∀ p, p < 28 → exec (.registerWrite 0 .control (0x2100 + 8 * p) v) s = .next (b.setPort p { s.port p with
          replays := (s.port p).replays &&& ~~~v.extractLsb' 32 16, retrains := (s.port p).retrains &&& ~~~v.extractLsb' 16 16 }))
      ∧ exec (.registerWrite 0 .control 0x3110 v) s = .next { b with pat := { s.pat with
          err := s.pat.err && !v.getLsbD 55, lost := (BitVec.ofNat 8 s.pat.lost &&& ~~~v.extractLsb' 40 8).toNat } }
      ∧ exec (.registerWrite 0 .control 0x4080 v) s = .next { b with dbg := { d with halt0 := v } }
      ∧ exec (.registerWrite 0 .control 0x40B0 v) s = .next { b with dbg := { d with
          sampRead := if v.extractLsb' 0 16 - d.sampRead ≤ d.sampNext - d.sampRead then v.extractLsb' 0 16 else d.sampRead } }
      ∧ put 0x3008 { c with
          beat := if field 47 32 ≠ 0 then v.extractLsb' 32 16 else c.beat, late := if field 31 16 ≠ 0 then v.extractLsb' 16 16 else c.late
          absent := v.extractLsb' 0 16 }
      ∧ put 0x3108 { c with patstash := if c.patEnable then c.patstash else v }
      ∧ (∀ n, n < 8 →
        let old := FMap.get 0 d.bp n
        exec (.registerWrite 0 .control (0x4000 + 16 * n) v) s
          = .next { b with dbg := { d with bp := FMap.set 0 d.bp n (old.extractLsb' 64 64 ++ (v &&& ~~~3#64)) } }
        ∧ (let new : BitVec 128 := ((v.extractLsb' 48 16 ++ 0#40) ++ v.extractLsb' 0 8) ++ old.extractLsb' 0 64
           exec (.registerWrite 0 .control (0x4008 + 16 * n) v) s = .next { b with dbg := { d with bp := FMap.set 0 d.bp n new } }))
      ∧ (let n := if 256 ≤ field 24 1 then v.extractLsb' 1 24 else d.sampInterval
         exec (.registerWrite 0 .control 0x40A0 v) s = .next { b with dbg := { d with
          sampEnable := v.getLsbD 0, sampInterval := n, sampLost := d.sampLost &&& ~~~v.extractLsb' 25 12
          sampBase := if d.sampEnable = false then v.extractLsb' 53 11 else d.sampBase
          sampAt := if v.getLsbD 0 = true ∧ (d.sampEnable = false ∨ n ≠ d.sampInterval) then s.now + n.toNat else d.sampAt } })
      ∧ (∃ u, exec (.registerWrite 0 .control 0x40A8 v) s = .next u
          ∧ { u with teams := s.teams } = { b with dbg := { d with
              trcEnable := v.getLsbD 0, trcStall := v.getLsbD 1, trcKinds := v.extractLsb' 2 4, trcAll := v.getLsbD 47
              trcAsid := v.extractLsb' 48 16 } }
          ∧ (v.getLsbD 0 = false ∨ d.trcEnable = true → u.teams = s.teams)
          ∧ (v.getLsbD 0 = true → d.trcEnable = false → ∀ t k l, (u.party t k).lane l =
              if l ∈ (s.party t k).active then { (s.party t k).lane l with anchorDue := true } else (s.party t k).lane l))
      ∧ exec (.registerWrite 0 .control 0x1020 v) s = .next { b with host := { h with
          powerCap := if 2000 ≤ field 29 16 ∧ field 29 16 ≤ 4800 then v.extractLsb' 16 14 else h.powerCap
          clockSet := if field 1 0 = 3 then h.clockSet else v.extractLsb' 0 2
          clockState := if field 1 0 = 3 then h.clockState else if h.throttled = true ∧ field 1 0 = 0 then 1 else v.extractLsb' 0 2 } }
      ∧ (let trip := if 95 ≤ field 47 40 ∧ field 47 40 ≤ 115 then v.extractLsb' 40 8 else h.trip
         let thr := if 80 ≤ field 39 32 ∧ field 39 32 ≤ 105 then v.extractLsb' 32 8 else h.throttle
         ∃ u, exec (.registerWrite 0 .control 0x1028 v) s = .next u ∧ State.SameStores s u ∧ u.ctrl = c
          ∧ u.host.trip = trip ∧ u.host.throttle = thr ∧ u.host.temp = h.temp
          ∧ (thr ≤ h.temp → u.host.throttled = true ∧ u.host.clockState ≠ 0)
          ∧ (h.temp < thr → h.throttled = true → h.temp.toNat + 5 ≤ thr.toNat → u.host.throttled = false ∧ u.host.clockState = h.clockSet)
          ∧ (h.temp < thr → (h.throttled = false ∨ thr.toNat < h.temp.toNat + 5) → u.host.throttled = h.throttled
              ∧ u.host.clockState = h.clockState)
          ∧ u.host.frozen = decide (trip ≤ h.temp) ∧ u.host.powerOff = decide (trip ≤ h.temp)))
    ∧ (∀ q o (v : W64), q < 64 → o % 8 = 0 → o < 0x50 →
      ∃ u, exec (.registerWrite 0 .launch (4096 * q + o) v) s = .next u ∧ u.readLaunch (4096 * q + o) = v
        ∧ u.readLaunch (4096 * q + 0x80) = 0 ∧ ∀ x, x ≠ 4096 * q + o → u.readLaunch x = s.readLaunch x)

/-- Power, temperature and reset: the cap (R459), throttling, its release and the trip (R460), and bring-up (R454, R455),
which ends ready, or at step 2 where the ROM refuses the image, and finds the module frozen where its temperature is at or above trip;
which images it accepts is open (log 9). -/
def Obligations.PowerEvents : Prop :=
  (∀ s : State, s.running = true →
    let b := s.raised
    (∀ w, s.host.powerCap.toNat < w → s.host.clockState.toNat < 2 →
      exec (.powerCapThrottle w) s = .next { b with host := { s.host with clockState := s.host.clockState + 1 } })
    ∧ (∀ x : W8, s.host.throttle ≤ x → x < s.host.trip →
      ∃ u, exec (.thermalThrottle x) s = .next u ∧ u.host.throttled = true ∧ u.host.temp = x ∧ u.host.clockState ≠ 0 ∧ State.SameStores s u)
    ∧ (∀ x : W8, s.host.throttled = true → x.toNat + 5 ≤ s.host.throttle.toNat → x < s.host.trip →
      ∃ u, exec (.thermalThrottleRelease x) s = .next u ∧ u.host.throttled = false ∧ u.host.clockState = s.host.clockSet
        ∧ State.SameStores s u)
    ∧ (∀ x : W8, s.host.trip ≤ x →
      ∃ u, exec (.thermalTrip x) s = .next u ∧ u.host.temp = x ∧ u.host.frozen = true ∧ u.host.powerOff = true ∧ State.SameStores s u))
  ∧ ∀ (s : State) (straps : W64) (f : Firmware),
    ∃ u, exec (.bringUp straps f) s = .next u ∧ u.cycles = [] ∧ u.now = 0 ∧ u.far = s.far ∧ u.farZero = s.farZero
      ∧ u.host.straps = straps &&& 0x3FEFFFF#64 ∧ u.host.frozen = decide (u.host.trip ≤ u.host.temp) ∧ u.host.temp = s.host.temp
      ∧ (if firmwareCode s.host.rollback f = 0 then
          u.host.rststat = 5 ∧ u.host.trip = 110 ∧ u.host.throttle = 100 ∧ (u.running = true ↔ s.host.temp < 110)
            ∧ u.host.throttled = decide (100 ≤ s.host.temp) ∧ u.near = [] ∧ u.teams = [] ∧ u.ctxs = [] ∧ u.host.keys = []
        else u.running = false ∧ u.host.rststat.toNat % 256 = 2 ∧ bits u.host.rststat.toNat 15 8 = firmwareCode s.host.rollback f)

/-- R443: freeze is left only through reset: a step of a frozen module whose turn is not a bring-up leaves it frozen. -/
def Obligations.FrozenStaysFrozen : Prop :=
  ∀ s t : State, s.host.frozen = true → (∀ v f rest, s.agenda ≠ .event (.bringUp v f) :: rest) → step s = .next t →
    t.host.frozen = true ∧ t.far = s.far ∧ t.now = s.now ∧ t.tasks = s.tasks ∧ t.ctxs = s.ctxs

/-- What reset leaves (R454 with the reset values of the registers' own rules): no context, team, task or key; every SRAM zero;
counters zero; the module runs. -/
def Obligations.ResetState : Prop :=
  let s := State.reset
  s.running = true ∧ s.near = [] ∧ s.ctxs = [] ∧ s.teams = [] ∧ s.tasks = [] ∧ s.host.keys = [] ∧ s.cycles = []
  ∧ (∀ i, s.counter i = { value := 0 }) ∧ s.ctrl.tideEnable = false ∧ s.ctrl.patEnable = false ∧ s.dbg.trcEnable = false
  ∧ s.dbg.sampEnable = false ∧ s.host.semOwner = 0 ∧ (∀ n, FMap.get 0 s.dbg.bp n = 0) ∧ FMap.wf 0 s.near = true
end

