-- ==== Sys2Proof/Laws/FMap.lean ====
section
/-! SUPPORT. Laws of sparse tables: a read after a write, and the canonical form under every operation of FMap. -/

namespace Sys2Proof

variable {α : Type}

@[simp] theorem FMap.get_nil (d : α) (k : Nat) : FMap.get d [] k = d := rfl

theorem FMap.get_drop (d : α) (m : List (Nat × α)) (k j : Nat) :
    FMap.get d (FMap.drop m k) j = if j = k then d else FMap.get d m j := by
  induction m with
  | nil => simp [FMap.drop]
  | cons p t ih =>
    unfold FMap.drop at ih ⊢
    by_cases h : p.1 = k
    · simp only [List.filter_cons, h, bne_self_eq_false, Bool.false_eq_true, ↓reduceIte, ih, FMap.get]
      by_cases hj : j = k
      · simp [hj]
      · have : ¬ k = j := fun e => hj e.symm
        simp [hj, this]
    · simp only [List.filter_cons, bne_iff_ne, ne_eq, h, not_false_eq_true, ↓reduceIte, FMap.get, ih]
      by_cases hp : p.1 = j
      · simp [hp]; intro e; exact absurd (hp.trans e) h
      · simp [hp]

theorem FMap.get_insert (d : α) (k j : Nat) (v : α) (m : List (Nat × α)) (h : ∀ p ∈ m, p.1 ≠ k) :
    FMap.get d (FMap.insert k v m) j = if j = k then v else FMap.get d m j := by
  induction m with
  | nil => simp [FMap.insert, FMap.get, eq_comm]
  | cons p t ih =>
    have hp : p.1 ≠ k := h p (by simp)
    have ht : ∀ q ∈ t, q.1 ≠ k := fun q hq => h q (by simp [hq])
    unfold FMap.insert
    split
    · simp [FMap.get, eq_comm]
    · simp only [FMap.get, ih ht]
      by_cases hj : p.1 = j
      · have : ¬ j = k := fun e => hp (hj.trans e)
        simp [hj, this]
      · simp [hj]

/-- Reading a table after writing it. -/
@[simp] theorem FMap.get_set [DecidableEq α] (d : α) (m : List (Nat × α)) (k j : Nat) (v : α) :
    FMap.get d (FMap.set d m k v) j = if j = k then v else FMap.get d m j := by
  unfold FMap.set
  split
  · next h => simp [FMap.get_drop, h]
  · rw [FMap.get_insert, FMap.get_drop]
    · by_cases hj : j = k <;> simp [hj]
    · intro p hp
      simp [FMap.drop] at hp
      exact hp.2

theorem FMap.drop_insert (k : Nat) (v : α) (m : List (Nat × α)) (h : ∀ p ∈ m, p.1 ≠ k) : FMap.drop (FMap.insert k v m) k = m := by
  induction m with
  | nil => simp [FMap.insert, FMap.drop]
  | cons p t ih =>
    have hp : p.1 ≠ k := h p (by simp)
    have ht : ∀ q ∈ t, q.1 ≠ k := fun q hq => h q (by simp [hq])
    unfold FMap.insert
    split
    · unfold FMap.drop
      rw [List.filter_cons_of_neg (by simp)]
      rw [List.filter_eq_self]
      intro q hq; simpa using h q hq
    · unfold FMap.drop at ih ⊢
      rw [List.filter_cons_of_pos (by simpa using hp), ih ht]

/-- The later of two writes to a key stands. -/
@[simp] theorem FMap.set_set [DecidableEq α] (d : α) (m : List (Nat × α)) (k : Nat) (v w : α) :
    FMap.set d (FMap.set d m k v) k w = FMap.set d m k w := by
  have hd : FMap.drop (FMap.set d m k v) k = FMap.drop m k := by
    unfold FMap.set
    split
    · simp [FMap.drop, List.filter_filter]
    · rw [FMap.drop_insert]
      intro p hp; simp [FMap.drop] at hp; exact hp.2
  unfold FMap.set at hd ⊢
  rw [hd]

/-- What is not the default is listed. -/
theorem FMap.mem_of_get_ne (d : α) (m : List (Nat × α)) (k : Nat) (h : FMap.get d m k ≠ d) : k ∈ m.map (·.1) := by
  induction m with
  | nil => exact absurd rfl h
  | cons p t ih =>
    by_cases hp : p.1 = k
    · simp [hp]
    · simp only [FMap.get, hp, if_false] at h
      simp only [List.map_cons, List.mem_cons]
      exact Or.inr (ih h)

/-! ### The canonical form -/

/-- Keys of a canonical table are above the bound. -/
theorem FMap.wfFrom_filter [DecidableEq α] (d : α) (p : Nat × α → Bool) (m : List (Nat × α)) :
    ∀ lo, FMap.wfFrom d lo m = true → FMap.wfFrom d lo (m.filter p) = true := by
  have weaken : ∀ (t : List (Nat × α)) (lo : Option Nat) (k : Nat), (match lo with | none => true | some l => decide (l < k)) = true →
      FMap.wfFrom d (some k) t = true → FMap.wfFrom d lo t = true := by
    intro t lo k hlo h
    cases t with
    | nil => rfl
    | cons q t =>
      simp only [FMap.wfFrom, Bool.and_eq_true, decide_eq_true_eq] at h ⊢
      refine ⟨⟨?_, h.1.2⟩, h.2⟩
      cases lo with
      | none => rfl
      | some l => simp only [decide_eq_true_eq] at hlo ⊢; exact Nat.lt_trans hlo h.1.1
  induction m with
  | nil => intro lo _; rfl
  | cons q t ih =>
    intro lo h
    simp only [FMap.wfFrom, Bool.and_eq_true, decide_eq_true_eq] at h
    by_cases hp : p q = true
    · rw [List.filter_cons_of_pos hp]
      simp only [FMap.wfFrom, Bool.and_eq_true, decide_eq_true_eq]
      exact ⟨h.1, ih _ h.2⟩
    · rw [List.filter_cons_of_neg hp]
      exact weaken _ _ _ h.1.1 (ih _ h.2)

theorem FMap.wfFrom_insert [DecidableEq α] (d : α) (k : Nat) (v : α) (hv : v ≠ d) (m : List (Nat × α)) :
    ∀ lo, (∀ p ∈ m, p.1 ≠ k) → (match lo with | none => true | some l => decide (l < k)) = true →
      FMap.wfFrom d lo m = true → FMap.wfFrom d lo (FMap.insert k v m) = true := by
  induction m with
  | nil => intro lo _ hlo _; simp [FMap.insert, FMap.wfFrom, hv]; exact hlo
  | cons q t ih =>
    intro lo hn hlo h
    simp only [FMap.wfFrom, Bool.and_eq_true, decide_eq_true_eq] at h
    unfold FMap.insert
    split
    · next hk => simp [FMap.wfFrom, hv, hk, h.2, h.1.2]; exact hlo
    · next hk =>
      simp only [FMap.wfFrom, Bool.and_eq_true, decide_eq_true_eq]
      refine ⟨h.1, ih _ (fun p hp => hn p (by simp [hp])) ?_ h.2⟩
      have : q.1 ≠ k := hn q (by simp)
      simp only [decide_eq_true_eq]; omega

/-- Writing keeps the canonical form. -/
theorem FMap.wf_set [DecidableEq α] (d : α) (m : List (Nat × α)) (k : Nat) (v : α) (h : FMap.wf d m = true) :
    FMap.wf d (FMap.set d m k v) = true := by
  unfold FMap.wf FMap.set at *
  split
  · exact FMap.wfFrom_filter d _ m _ h
  · next hv =>
    refine FMap.wfFrom_insert d k v hv _ _ ?_ rfl (FMap.wfFrom_filter d _ m _ h)
    intro p hp; simp [FMap.drop] at hp; exact hp.2

/-- Removing a key keeps the canonical form. -/
theorem FMap.wf_drop [DecidableEq α] (d : α) (m : List (Nat × α)) (k : Nat) (h : FMap.wf d m = true) :
    FMap.wf d (FMap.drop m k) = true := FMap.wfFrom_filter d _ m _ h

/-- Clearing a range keeps the canonical form. -/
theorem FMap.wf_clear [DecidableEq α] (d : α) (m : List (Nat × α)) (lo n : Nat) (h : FMap.wf d m = true) :
    FMap.wf d (FMap.clear m lo n) = true := FMap.wfFrom_filter d _ m _ h

/-- Slicing keeps the canonical form. -/
theorem FMap.wf_slice [DecidableEq α] (d : α) (m : List (Nat × α)) (lo n : Nat) (h : FMap.wf d m = true) :
    FMap.wf d (FMap.slice m lo n) = true := FMap.wfFrom_filter d _ m _ h

/-! ### Bytes -/

/-- Writing bytes keeps the canonical form. -/
theorem Mem.wf_write (n : Nat) : ∀ (m : List (Nat × W8)) (a v : Nat), Memory.wf m → Memory.wf (Mem.write m a n v) := by
  induction n with
  | zero => intro m a v h; exact h
  | succ n ih => intro m a v h; exact ih _ _ _ (FMap.wf_set 0 m a _ h)

/-- A fold of writes keeps the canonical form. -/
theorem FMap.wf_foldl_set [DecidableEq α] (d : α) {β : Type} (key : β → Nat) (val : β → α) (bs : List β) :
    ∀ m : List (Nat × α), FMap.wf d m = true → FMap.wf d (bs.foldl (fun m e => FMap.set d m (key e) (val e)) m) = true := by
  induction bs with
  | nil => intro m h; exact h
  | cons b t ih => intro m h; exact ih _ (FMap.wf_set d m _ _ h)

/-- A byte after a write of n bytes. -/
theorem Mem.get_write (n : Nat) : ∀ (m : List (Nat × W8)) (a v j : Nat),
    FMap.get 0 (Mem.write m a n v) j =
      if a ≤ j ∧ j < a + n then BitVec.ofNat 8 (v / 256 ^ (j - a)) else FMap.get 0 m j := by
  induction n with
  | zero => intro m a v j; have : ¬ (a ≤ j ∧ j < a + 0) := by omega
            simp only [Mem.write, this, ↓reduceIte]
  | succ n ih =>
    intro m a v j
    rw [Mem.write, ih, FMap.get_set]
    by_cases h1 : a + 1 ≤ j ∧ j < a + 1 + n
    · have h2 : a ≤ j ∧ j < a + (n + 1) := by omega
      have h3 : j - a = (j - (a + 1)) + 1 := by omega
      simp only [h1, and_self, ↓reduceIte, h2, h3, Nat.pow_succ', Nat.div_div_eq_div_mul]
    · rw [if_neg h1]
      by_cases h2 : j = a
      · subst h2; simp
      · rw [if_neg h2, if_neg]; omega

/-- Bytes outside a write stay. -/
theorem Mem.get_write_of_out (m : List (Nat × W8)) (a n v j : Nat) (h : j < a ∨ a + n ≤ j) :
    FMap.get 0 (Mem.write m a n v) j = FMap.get 0 m j := by
  rw [Mem.get_write, if_neg]; omega

/-- A read takes the bytes alone. -/
theorem Mem.read_congr (n : Nat) : ∀ (m m' : List (Nat × W8)) (a : Nat),
    (∀ i < n, FMap.get 0 m (a + i) = FMap.get 0 m' (a + i)) → Mem.read m a n = Mem.read m' a n := by
  induction n with
  | zero => intros; rfl
  | succ n ih =>
    intro m m' a h
    have h0 := h 0 (by omega)
    simp only [Nat.add_zero] at h0
    rw [Mem.read, Mem.read, h0, ih m m' (a + 1)]
    intro i hi
    have := h (i + 1) (by omega)
    rwa [show a + (i + 1) = a + 1 + i by omega] at this

/-- Reading the bytes just written gives their value. -/
theorem Mem.read_write_same (n : Nat) : ∀ (m : List (Nat × W8)) (a v : Nat),
    Mem.read (Mem.write m a n v) a n = v % 256 ^ n := by
  induction n with
  | zero => intro m a v; simp [Mem.read, Nat.mod_one]
  | succ n ih =>
    intro m a v
    have hb : FMap.get 0 (Mem.write m a (n + 1) v) a = BitVec.ofNat 8 v := by
      rw [Mem.get_write]; simp
    have hm : v % (256 * 256 ^ n) = v % 256 + 256 * (v / 256 % 256 ^ n) := Nat.mod_mul
    rw [Mem.read, hb, Mem.write, ih, BitVec.toNat_ofNat, Nat.pow_succ' (n := n), hm]

/-- A write elsewhere leaves a read alone. -/
theorem Mem.read_write_of_out (m : List (Nat × W8)) (a n v b k : Nat) (h : b + k ≤ a ∨ a + n ≤ b) :
    Mem.read (Mem.write m a n v) b k = Mem.read m b k := by
  apply Mem.read_congr
  intro i hi
  apply Mem.get_write_of_out; omega

end Sys2Proof
end

