-- ==== Sys2Proof/Laws/State.lean ====
section
/-! SUPPORT. What the plain updates of a state leave alone, field by field; reading a team, a party or a lane after
writing one. -/

namespace Sys2Proof.Machine

open Sys2Proof

/-! ### setTeam -/

@[simp] theorem State.setTeam_cur (s : State) (t : Nat) (x : Team) : (s.setTeam t x).cur = s.cur := rfl
@[simp] theorem State.setTeam_agenda (s : State) (t : Nat) (x : Team) : (s.setTeam t x).agenda = s.agenda := rfl
@[simp] theorem State.setTeam_free (s : State) (t : Nat) (x : Team) : (s.setTeam t x).free = s.free := rfl
@[simp] theorem State.setTeam_cycles (s : State) (t : Nat) (x : Team) : (s.setTeam t x).cycles = s.cycles := rfl
@[simp] theorem State.setTeam_now (s : State) (t : Nat) (x : Team) : (s.setTeam t x).now = s.now := rfl
@[simp] theorem State.setTeam_cyc (s : State) (t : Nat) (x : Team) : (s.setTeam t x).cyc = s.cyc := rfl
@[simp] theorem State.setTeam_farZero (s : State) (t : Nat) (x : Team) : (s.setTeam t x).farZero = s.farZero := rfl
@[simp] theorem State.setTeam_near (s : State) (t : Nat) (x : Team) : (s.setTeam t x).near = s.near := rfl
@[simp] theorem State.setTeam_far (s : State) (t : Nat) (x : Team) : (s.setTeam t x).far = s.far := rfl
@[simp] theorem State.setTeam_bad (s : State) (t : Nat) (x : Team) : (s.setTeam t x).bad = s.bad := rfl
@[simp] theorem State.setTeam_tlb (s : State) (t : Nat) (x : Team) : (s.setTeam t x).tlb = s.tlb := rfl
@[simp] theorem State.setTeam_icache (s : State) (t : Nat) (x : Team) : (s.setTeam t x).icache = s.icache := rfl
@[simp] theorem State.setTeam_ctxs (s : State) (t : Nat) (x : Team) : (s.setTeam t x).ctxs = s.ctxs := rfl
@[simp] theorem State.setTeam_disp (s : State) (t : Nat) (x : Team) : (s.setTeam t x).disp = s.disp := rfl
@[simp] theorem State.setTeam_cores (s : State) (t : Nat) (x : Team) : (s.setTeam t x).cores = s.cores := rfl
@[simp] theorem State.setTeam_counters (s : State) (t : Nat) (x : Team) : (s.setTeam t x).counters = s.counters := rfl
@[simp] theorem State.setTeam_tasks (s : State) (t : Nat) (x : Team) : (s.setTeam t x).tasks = s.tasks := rfl
@[simp] theorem State.setTeam_instances (s : State) (t : Nat) (x : Team) : (s.setTeam t x).instances = s.instances := rfl
@[simp] theorem State.setTeam_nextInst (s : State) (t : Nat) (x : Team) : (s.setTeam t x).nextInst = s.nextInst := rfl
@[simp] theorem State.setTeam_tags (s : State) (t : Nat) (x : Team) : (s.setTeam t x).tags = s.tags := rfl
@[simp] theorem State.setTeam_rings (s : State) (t : Nat) (x : Team) : (s.setTeam t x).rings = s.rings := rfl
@[simp] theorem State.setTeam_publishing (s : State) (t : Nat) (x : Team) : (s.setTeam t x).publishing = s.publishing := rfl
@[simp] theorem State.setTeam_colls (s : State) (t : Nat) (x : Team) : (s.setTeam t x).colls = s.colls := rfl
@[simp] theorem State.setTeam_ckpts (s : State) (t : Nat) (x : Team) : (s.setTeam t x).ckpts = s.ckpts := rfl
@[simp] theorem State.setTeam_tide (s : State) (t : Nat) (x : Team) : (s.setTeam t x).tide = s.tide := rfl
@[simp] theorem State.setTeam_pat (s : State) (t : Nat) (x : Team) : (s.setTeam t x).pat = s.pat := rfl
@[simp] theorem State.setTeam_fq (s : State) (t : Nat) (x : Team) : (s.setTeam t x).fq = s.fq := rfl
@[simp] theorem State.setTeam_fab (s : State) (t : Nat) (x : Team) : (s.setTeam t x).fab = s.fab := rfl
@[simp] theorem State.setTeam_dbg (s : State) (t : Nat) (x : Team) : (s.setTeam t x).dbg = s.dbg := rfl
@[simp] theorem State.setTeam_host (s : State) (t : Nat) (x : Team) : (s.setTeam t x).host = s.host := rfl
@[simp] theorem State.setTeam_ctrl (s : State) (t : Nat) (x : Team) : (s.setTeam t x).ctrl = s.ctrl := rfl
@[simp] theorem State.setTeam_images (s : State) (t : Nat) (x : Team) : (s.setTeam t x).images = s.images := rfl
@[simp] theorem State.setTeam_out (s : State) (t : Nat) (x : Team) : (s.setTeam t x).out = s.out := rfl

/-! ### setParty -/

@[simp] theorem State.setParty_cur (s : State) (t k : Nat) (x : Party) : (s.setParty t k x).cur = s.cur := rfl
@[simp] theorem State.setParty_agenda (s : State) (t k : Nat) (x : Party) : (s.setParty t k x).agenda = s.agenda := rfl
@[simp] theorem State.setParty_free (s : State) (t k : Nat) (x : Party) : (s.setParty t k x).free = s.free := rfl
@[simp] theorem State.setParty_cycles (s : State) (t k : Nat) (x : Party) : (s.setParty t k x).cycles = s.cycles := rfl
@[simp] theorem State.setParty_now (s : State) (t k : Nat) (x : Party) : (s.setParty t k x).now = s.now := rfl
@[simp] theorem State.setParty_cyc (s : State) (t k : Nat) (x : Party) : (s.setParty t k x).cyc = s.cyc := rfl
@[simp] theorem State.setParty_farZero (s : State) (t k : Nat) (x : Party) : (s.setParty t k x).farZero = s.farZero := rfl
@[simp] theorem State.setParty_near (s : State) (t k : Nat) (x : Party) : (s.setParty t k x).near = s.near := rfl
@[simp] theorem State.setParty_far (s : State) (t k : Nat) (x : Party) : (s.setParty t k x).far = s.far := rfl
@[simp] theorem State.setParty_bad (s : State) (t k : Nat) (x : Party) : (s.setParty t k x).bad = s.bad := rfl
@[simp] theorem State.setParty_tlb (s : State) (t k : Nat) (x : Party) : (s.setParty t k x).tlb = s.tlb := rfl
@[simp] theorem State.setParty_icache (s : State) (t k : Nat) (x : Party) : (s.setParty t k x).icache = s.icache := rfl
@[simp] theorem State.setParty_ctxs (s : State) (t k : Nat) (x : Party) : (s.setParty t k x).ctxs = s.ctxs := rfl
@[simp] theorem State.setParty_disp (s : State) (t k : Nat) (x : Party) : (s.setParty t k x).disp = s.disp := rfl
@[simp] theorem State.setParty_cores (s : State) (t k : Nat) (x : Party) : (s.setParty t k x).cores = s.cores := rfl
@[simp] theorem State.setParty_counters (s : State) (t k : Nat) (x : Party) : (s.setParty t k x).counters = s.counters := rfl
@[simp] theorem State.setParty_tasks (s : State) (t k : Nat) (x : Party) : (s.setParty t k x).tasks = s.tasks := rfl
@[simp] theorem State.setParty_instances (s : State) (t k : Nat) (x : Party) : (s.setParty t k x).instances = s.instances := rfl
@[simp] theorem State.setParty_nextInst (s : State) (t k : Nat) (x : Party) : (s.setParty t k x).nextInst = s.nextInst := rfl
@[simp] theorem State.setParty_tags (s : State) (t k : Nat) (x : Party) : (s.setParty t k x).tags = s.tags := rfl
@[simp] theorem State.setParty_rings (s : State) (t k : Nat) (x : Party) : (s.setParty t k x).rings = s.rings := rfl
@[simp] theorem State.setParty_publishing (s : State) (t k : Nat) (x : Party) : (s.setParty t k x).publishing = s.publishing := rfl
@[simp] theorem State.setParty_colls (s : State) (t k : Nat) (x : Party) : (s.setParty t k x).colls = s.colls := rfl
@[simp] theorem State.setParty_ckpts (s : State) (t k : Nat) (x : Party) : (s.setParty t k x).ckpts = s.ckpts := rfl
@[simp] theorem State.setParty_tide (s : State) (t k : Nat) (x : Party) : (s.setParty t k x).tide = s.tide := rfl
@[simp] theorem State.setParty_pat (s : State) (t k : Nat) (x : Party) : (s.setParty t k x).pat = s.pat := rfl
@[simp] theorem State.setParty_fq (s : State) (t k : Nat) (x : Party) : (s.setParty t k x).fq = s.fq := rfl
@[simp] theorem State.setParty_fab (s : State) (t k : Nat) (x : Party) : (s.setParty t k x).fab = s.fab := rfl
@[simp] theorem State.setParty_dbg (s : State) (t k : Nat) (x : Party) : (s.setParty t k x).dbg = s.dbg := rfl
@[simp] theorem State.setParty_host (s : State) (t k : Nat) (x : Party) : (s.setParty t k x).host = s.host := rfl
@[simp] theorem State.setParty_ctrl (s : State) (t k : Nat) (x : Party) : (s.setParty t k x).ctrl = s.ctrl := rfl
@[simp] theorem State.setParty_images (s : State) (t k : Nat) (x : Party) : (s.setParty t k x).images = s.images := rfl
@[simp] theorem State.setParty_out (s : State) (t k : Nat) (x : Party) : (s.setParty t k x).out = s.out := rfl

/-! ### setCurTeam -/

@[simp] theorem State.setCurTeam_cur (s : State) (x : Team) : (s.setCurTeam x).cur = s.cur := rfl
@[simp] theorem State.setCurTeam_agenda (s : State) (x : Team) : (s.setCurTeam x).agenda = s.agenda := rfl
@[simp] theorem State.setCurTeam_free (s : State) (x : Team) : (s.setCurTeam x).free = s.free := rfl
@[simp] theorem State.setCurTeam_cycles (s : State) (x : Team) : (s.setCurTeam x).cycles = s.cycles := rfl
@[simp] theorem State.setCurTeam_now (s : State) (x : Team) : (s.setCurTeam x).now = s.now := rfl
@[simp] theorem State.setCurTeam_cyc (s : State) (x : Team) : (s.setCurTeam x).cyc = s.cyc := rfl
@[simp] theorem State.setCurTeam_farZero (s : State) (x : Team) : (s.setCurTeam x).farZero = s.farZero := rfl
@[simp] theorem State.setCurTeam_near (s : State) (x : Team) : (s.setCurTeam x).near = s.near := rfl
@[simp] theorem State.setCurTeam_far (s : State) (x : Team) : (s.setCurTeam x).far = s.far := rfl
@[simp] theorem State.setCurTeam_bad (s : State) (x : Team) : (s.setCurTeam x).bad = s.bad := rfl
@[simp] theorem State.setCurTeam_tlb (s : State) (x : Team) : (s.setCurTeam x).tlb = s.tlb := rfl
@[simp] theorem State.setCurTeam_icache (s : State) (x : Team) : (s.setCurTeam x).icache = s.icache := rfl
@[simp] theorem State.setCurTeam_ctxs (s : State) (x : Team) : (s.setCurTeam x).ctxs = s.ctxs := rfl
@[simp] theorem State.setCurTeam_disp (s : State) (x : Team) : (s.setCurTeam x).disp = s.disp := rfl
@[simp] theorem State.setCurTeam_cores (s : State) (x : Team) : (s.setCurTeam x).cores = s.cores := rfl
@[simp] theorem State.setCurTeam_counters (s : State) (x : Team) : (s.setCurTeam x).counters = s.counters := rfl
@[simp] theorem State.setCurTeam_tasks (s : State) (x : Team) : (s.setCurTeam x).tasks = s.tasks := rfl
@[simp] theorem State.setCurTeam_instances (s : State) (x : Team) : (s.setCurTeam x).instances = s.instances := rfl
@[simp] theorem State.setCurTeam_nextInst (s : State) (x : Team) : (s.setCurTeam x).nextInst = s.nextInst := rfl
@[simp] theorem State.setCurTeam_tags (s : State) (x : Team) : (s.setCurTeam x).tags = s.tags := rfl
@[simp] theorem State.setCurTeam_rings (s : State) (x : Team) : (s.setCurTeam x).rings = s.rings := rfl
@[simp] theorem State.setCurTeam_publishing (s : State) (x : Team) : (s.setCurTeam x).publishing = s.publishing := rfl
@[simp] theorem State.setCurTeam_colls (s : State) (x : Team) : (s.setCurTeam x).colls = s.colls := rfl
@[simp] theorem State.setCurTeam_ckpts (s : State) (x : Team) : (s.setCurTeam x).ckpts = s.ckpts := rfl
@[simp] theorem State.setCurTeam_tide (s : State) (x : Team) : (s.setCurTeam x).tide = s.tide := rfl
@[simp] theorem State.setCurTeam_pat (s : State) (x : Team) : (s.setCurTeam x).pat = s.pat := rfl
@[simp] theorem State.setCurTeam_fq (s : State) (x : Team) : (s.setCurTeam x).fq = s.fq := rfl
@[simp] theorem State.setCurTeam_fab (s : State) (x : Team) : (s.setCurTeam x).fab = s.fab := rfl
@[simp] theorem State.setCurTeam_dbg (s : State) (x : Team) : (s.setCurTeam x).dbg = s.dbg := rfl
@[simp] theorem State.setCurTeam_host (s : State) (x : Team) : (s.setCurTeam x).host = s.host := rfl
@[simp] theorem State.setCurTeam_ctrl (s : State) (x : Team) : (s.setCurTeam x).ctrl = s.ctrl := rfl
@[simp] theorem State.setCurTeam_images (s : State) (x : Team) : (s.setCurTeam x).images = s.images := rfl
@[simp] theorem State.setCurTeam_out (s : State) (x : Team) : (s.setCurTeam x).out = s.out := rfl

/-! ### setCurParty -/

@[simp] theorem State.setCurParty_cur (s : State) (x : Party) : (s.setCurParty x).cur = s.cur := rfl
@[simp] theorem State.setCurParty_agenda (s : State) (x : Party) : (s.setCurParty x).agenda = s.agenda := rfl
@[simp] theorem State.setCurParty_free (s : State) (x : Party) : (s.setCurParty x).free = s.free := rfl
@[simp] theorem State.setCurParty_cycles (s : State) (x : Party) : (s.setCurParty x).cycles = s.cycles := rfl
@[simp] theorem State.setCurParty_now (s : State) (x : Party) : (s.setCurParty x).now = s.now := rfl
@[simp] theorem State.setCurParty_cyc (s : State) (x : Party) : (s.setCurParty x).cyc = s.cyc := rfl
@[simp] theorem State.setCurParty_farZero (s : State) (x : Party) : (s.setCurParty x).farZero = s.farZero := rfl
@[simp] theorem State.setCurParty_near (s : State) (x : Party) : (s.setCurParty x).near = s.near := rfl
@[simp] theorem State.setCurParty_far (s : State) (x : Party) : (s.setCurParty x).far = s.far := rfl
@[simp] theorem State.setCurParty_bad (s : State) (x : Party) : (s.setCurParty x).bad = s.bad := rfl
@[simp] theorem State.setCurParty_tlb (s : State) (x : Party) : (s.setCurParty x).tlb = s.tlb := rfl
@[simp] theorem State.setCurParty_icache (s : State) (x : Party) : (s.setCurParty x).icache = s.icache := rfl
@[simp] theorem State.setCurParty_ctxs (s : State) (x : Party) : (s.setCurParty x).ctxs = s.ctxs := rfl
@[simp] theorem State.setCurParty_disp (s : State) (x : Party) : (s.setCurParty x).disp = s.disp := rfl
@[simp] theorem State.setCurParty_cores (s : State) (x : Party) : (s.setCurParty x).cores = s.cores := rfl
@[simp] theorem State.setCurParty_counters (s : State) (x : Party) : (s.setCurParty x).counters = s.counters := rfl
@[simp] theorem State.setCurParty_tasks (s : State) (x : Party) : (s.setCurParty x).tasks = s.tasks := rfl
@[simp] theorem State.setCurParty_instances (s : State) (x : Party) : (s.setCurParty x).instances = s.instances := rfl
@[simp] theorem State.setCurParty_nextInst (s : State) (x : Party) : (s.setCurParty x).nextInst = s.nextInst := rfl
@[simp] theorem State.setCurParty_tags (s : State) (x : Party) : (s.setCurParty x).tags = s.tags := rfl
@[simp] theorem State.setCurParty_rings (s : State) (x : Party) : (s.setCurParty x).rings = s.rings := rfl
@[simp] theorem State.setCurParty_publishing (s : State) (x : Party) : (s.setCurParty x).publishing = s.publishing := rfl
@[simp] theorem State.setCurParty_colls (s : State) (x : Party) : (s.setCurParty x).colls = s.colls := rfl
@[simp] theorem State.setCurParty_ckpts (s : State) (x : Party) : (s.setCurParty x).ckpts = s.ckpts := rfl
@[simp] theorem State.setCurParty_tide (s : State) (x : Party) : (s.setCurParty x).tide = s.tide := rfl
@[simp] theorem State.setCurParty_pat (s : State) (x : Party) : (s.setCurParty x).pat = s.pat := rfl
@[simp] theorem State.setCurParty_fq (s : State) (x : Party) : (s.setCurParty x).fq = s.fq := rfl
@[simp] theorem State.setCurParty_fab (s : State) (x : Party) : (s.setCurParty x).fab = s.fab := rfl
@[simp] theorem State.setCurParty_dbg (s : State) (x : Party) : (s.setCurParty x).dbg = s.dbg := rfl
@[simp] theorem State.setCurParty_host (s : State) (x : Party) : (s.setCurParty x).host = s.host := rfl
@[simp] theorem State.setCurParty_ctrl (s : State) (x : Party) : (s.setCurParty x).ctrl = s.ctrl := rfl
@[simp] theorem State.setCurParty_images (s : State) (x : Party) : (s.setCurParty x).images = s.images := rfl
@[simp] theorem State.setCurParty_out (s : State) (x : Party) : (s.setCurParty x).out = s.out := rfl

/-! ### mapLanes -/

@[simp] theorem State.mapLanes_cur (s : State) (f : Nat → Lane → Lane) : (s.mapLanes f).cur = s.cur := rfl
@[simp] theorem State.mapLanes_agenda (s : State) (f : Nat → Lane → Lane) : (s.mapLanes f).agenda = s.agenda := rfl
@[simp] theorem State.mapLanes_free (s : State) (f : Nat → Lane → Lane) : (s.mapLanes f).free = s.free := rfl
@[simp] theorem State.mapLanes_cycles (s : State) (f : Nat → Lane → Lane) : (s.mapLanes f).cycles = s.cycles := rfl
@[simp] theorem State.mapLanes_now (s : State) (f : Nat → Lane → Lane) : (s.mapLanes f).now = s.now := rfl
@[simp] theorem State.mapLanes_cyc (s : State) (f : Nat → Lane → Lane) : (s.mapLanes f).cyc = s.cyc := rfl
@[simp] theorem State.mapLanes_farZero (s : State) (f : Nat → Lane → Lane) : (s.mapLanes f).farZero = s.farZero := rfl
@[simp] theorem State.mapLanes_near (s : State) (f : Nat → Lane → Lane) : (s.mapLanes f).near = s.near := rfl
@[simp] theorem State.mapLanes_far (s : State) (f : Nat → Lane → Lane) : (s.mapLanes f).far = s.far := rfl
@[simp] theorem State.mapLanes_bad (s : State) (f : Nat → Lane → Lane) : (s.mapLanes f).bad = s.bad := rfl
@[simp] theorem State.mapLanes_tlb (s : State) (f : Nat → Lane → Lane) : (s.mapLanes f).tlb = s.tlb := rfl
@[simp] theorem State.mapLanes_icache (s : State) (f : Nat → Lane → Lane) : (s.mapLanes f).icache = s.icache := rfl
@[simp] theorem State.mapLanes_ctxs (s : State) (f : Nat → Lane → Lane) : (s.mapLanes f).ctxs = s.ctxs := rfl
@[simp] theorem State.mapLanes_disp (s : State) (f : Nat → Lane → Lane) : (s.mapLanes f).disp = s.disp := rfl
@[simp] theorem State.mapLanes_cores (s : State) (f : Nat → Lane → Lane) : (s.mapLanes f).cores = s.cores := rfl
@[simp] theorem State.mapLanes_counters (s : State) (f : Nat → Lane → Lane) : (s.mapLanes f).counters = s.counters := rfl
@[simp] theorem State.mapLanes_tasks (s : State) (f : Nat → Lane → Lane) : (s.mapLanes f).tasks = s.tasks := rfl
@[simp] theorem State.mapLanes_instances (s : State) (f : Nat → Lane → Lane) : (s.mapLanes f).instances = s.instances := rfl
@[simp] theorem State.mapLanes_nextInst (s : State) (f : Nat → Lane → Lane) : (s.mapLanes f).nextInst = s.nextInst := rfl
@[simp] theorem State.mapLanes_tags (s : State) (f : Nat → Lane → Lane) : (s.mapLanes f).tags = s.tags := rfl
@[simp] theorem State.mapLanes_rings (s : State) (f : Nat → Lane → Lane) : (s.mapLanes f).rings = s.rings := rfl
@[simp] theorem State.mapLanes_publishing (s : State) (f : Nat → Lane → Lane) : (s.mapLanes f).publishing = s.publishing := rfl
@[simp] theorem State.mapLanes_colls (s : State) (f : Nat → Lane → Lane) : (s.mapLanes f).colls = s.colls := rfl
@[simp] theorem State.mapLanes_ckpts (s : State) (f : Nat → Lane → Lane) : (s.mapLanes f).ckpts = s.ckpts := rfl
@[simp] theorem State.mapLanes_tide (s : State) (f : Nat → Lane → Lane) : (s.mapLanes f).tide = s.tide := rfl
@[simp] theorem State.mapLanes_pat (s : State) (f : Nat → Lane → Lane) : (s.mapLanes f).pat = s.pat := rfl
@[simp] theorem State.mapLanes_fq (s : State) (f : Nat → Lane → Lane) : (s.mapLanes f).fq = s.fq := rfl
@[simp] theorem State.mapLanes_fab (s : State) (f : Nat → Lane → Lane) : (s.mapLanes f).fab = s.fab := rfl
@[simp] theorem State.mapLanes_dbg (s : State) (f : Nat → Lane → Lane) : (s.mapLanes f).dbg = s.dbg := rfl
@[simp] theorem State.mapLanes_host (s : State) (f : Nat → Lane → Lane) : (s.mapLanes f).host = s.host := rfl
@[simp] theorem State.mapLanes_ctrl (s : State) (f : Nat → Lane → Lane) : (s.mapLanes f).ctrl = s.ctrl := rfl
@[simp] theorem State.mapLanes_images (s : State) (f : Nat → Lane → Lane) : (s.mapLanes f).images = s.images := rfl
@[simp] theorem State.mapLanes_out (s : State) (f : Nat → Lane → Lane) : (s.mapLanes f).out = s.out := rfl

/-! ### setCtx -/

@[simp] theorem State.setCtx_cur (s : State) (k : Nat) (x : Ctx) : (s.setCtx k x).cur = s.cur := rfl
@[simp] theorem State.setCtx_agenda (s : State) (k : Nat) (x : Ctx) : (s.setCtx k x).agenda = s.agenda := rfl
@[simp] theorem State.setCtx_free (s : State) (k : Nat) (x : Ctx) : (s.setCtx k x).free = s.free := rfl
@[simp] theorem State.setCtx_cycles (s : State) (k : Nat) (x : Ctx) : (s.setCtx k x).cycles = s.cycles := rfl
@[simp] theorem State.setCtx_now (s : State) (k : Nat) (x : Ctx) : (s.setCtx k x).now = s.now := rfl
@[simp] theorem State.setCtx_cyc (s : State) (k : Nat) (x : Ctx) : (s.setCtx k x).cyc = s.cyc := rfl
@[simp] theorem State.setCtx_farZero (s : State) (k : Nat) (x : Ctx) : (s.setCtx k x).farZero = s.farZero := rfl
@[simp] theorem State.setCtx_near (s : State) (k : Nat) (x : Ctx) : (s.setCtx k x).near = s.near := rfl
@[simp] theorem State.setCtx_far (s : State) (k : Nat) (x : Ctx) : (s.setCtx k x).far = s.far := rfl
@[simp] theorem State.setCtx_bad (s : State) (k : Nat) (x : Ctx) : (s.setCtx k x).bad = s.bad := rfl
@[simp] theorem State.setCtx_tlb (s : State) (k : Nat) (x : Ctx) : (s.setCtx k x).tlb = s.tlb := rfl
@[simp] theorem State.setCtx_icache (s : State) (k : Nat) (x : Ctx) : (s.setCtx k x).icache = s.icache := rfl
@[simp] theorem State.setCtx_teams (s : State) (k : Nat) (x : Ctx) : (s.setCtx k x).teams = s.teams := rfl
@[simp] theorem State.setCtx_disp (s : State) (k : Nat) (x : Ctx) : (s.setCtx k x).disp = s.disp := rfl
@[simp] theorem State.setCtx_cores (s : State) (k : Nat) (x : Ctx) : (s.setCtx k x).cores = s.cores := rfl
@[simp] theorem State.setCtx_counters (s : State) (k : Nat) (x : Ctx) : (s.setCtx k x).counters = s.counters := rfl
@[simp] theorem State.setCtx_tasks (s : State) (k : Nat) (x : Ctx) : (s.setCtx k x).tasks = s.tasks := rfl
@[simp] theorem State.setCtx_instances (s : State) (k : Nat) (x : Ctx) : (s.setCtx k x).instances = s.instances := rfl
@[simp] theorem State.setCtx_nextInst (s : State) (k : Nat) (x : Ctx) : (s.setCtx k x).nextInst = s.nextInst := rfl
@[simp] theorem State.setCtx_tags (s : State) (k : Nat) (x : Ctx) : (s.setCtx k x).tags = s.tags := rfl
@[simp] theorem State.setCtx_rings (s : State) (k : Nat) (x : Ctx) : (s.setCtx k x).rings = s.rings := rfl
@[simp] theorem State.setCtx_publishing (s : State) (k : Nat) (x : Ctx) : (s.setCtx k x).publishing = s.publishing := rfl
@[simp] theorem State.setCtx_colls (s : State) (k : Nat) (x : Ctx) : (s.setCtx k x).colls = s.colls := rfl
@[simp] theorem State.setCtx_ckpts (s : State) (k : Nat) (x : Ctx) : (s.setCtx k x).ckpts = s.ckpts := rfl
@[simp] theorem State.setCtx_tide (s : State) (k : Nat) (x : Ctx) : (s.setCtx k x).tide = s.tide := rfl
@[simp] theorem State.setCtx_pat (s : State) (k : Nat) (x : Ctx) : (s.setCtx k x).pat = s.pat := rfl
@[simp] theorem State.setCtx_fq (s : State) (k : Nat) (x : Ctx) : (s.setCtx k x).fq = s.fq := rfl
@[simp] theorem State.setCtx_fab (s : State) (k : Nat) (x : Ctx) : (s.setCtx k x).fab = s.fab := rfl
@[simp] theorem State.setCtx_dbg (s : State) (k : Nat) (x : Ctx) : (s.setCtx k x).dbg = s.dbg := rfl
@[simp] theorem State.setCtx_host (s : State) (k : Nat) (x : Ctx) : (s.setCtx k x).host = s.host := rfl
@[simp] theorem State.setCtx_ctrl (s : State) (k : Nat) (x : Ctx) : (s.setCtx k x).ctrl = s.ctrl := rfl
@[simp] theorem State.setCtx_images (s : State) (k : Nat) (x : Ctx) : (s.setCtx k x).images = s.images := rfl
@[simp] theorem State.setCtx_out (s : State) (k : Nat) (x : Ctx) : (s.setCtx k x).out = s.out := rfl

/-! ### setCore -/

@[simp] theorem State.setCore_cur (s : State) (k : Nat) (x : Core) : (s.setCore k x).cur = s.cur := rfl
@[simp] theorem State.setCore_agenda (s : State) (k : Nat) (x : Core) : (s.setCore k x).agenda = s.agenda := rfl
@[simp] theorem State.setCore_free (s : State) (k : Nat) (x : Core) : (s.setCore k x).free = s.free := rfl
@[simp] theorem State.setCore_cycles (s : State) (k : Nat) (x : Core) : (s.setCore k x).cycles = s.cycles := rfl
@[simp] theorem State.setCore_now (s : State) (k : Nat) (x : Core) : (s.setCore k x).now = s.now := rfl
@[simp] theorem State.setCore_cyc (s : State) (k : Nat) (x : Core) : (s.setCore k x).cyc = s.cyc := rfl
@[simp] theorem State.setCore_farZero (s : State) (k : Nat) (x : Core) : (s.setCore k x).farZero = s.farZero := rfl
@[simp] theorem State.setCore_near (s : State) (k : Nat) (x : Core) : (s.setCore k x).near = s.near := rfl
@[simp] theorem State.setCore_far (s : State) (k : Nat) (x : Core) : (s.setCore k x).far = s.far := rfl
@[simp] theorem State.setCore_bad (s : State) (k : Nat) (x : Core) : (s.setCore k x).bad = s.bad := rfl
@[simp] theorem State.setCore_tlb (s : State) (k : Nat) (x : Core) : (s.setCore k x).tlb = s.tlb := rfl
@[simp] theorem State.setCore_icache (s : State) (k : Nat) (x : Core) : (s.setCore k x).icache = s.icache := rfl
@[simp] theorem State.setCore_ctxs (s : State) (k : Nat) (x : Core) : (s.setCore k x).ctxs = s.ctxs := rfl
@[simp] theorem State.setCore_teams (s : State) (k : Nat) (x : Core) : (s.setCore k x).teams = s.teams := rfl
@[simp] theorem State.setCore_disp (s : State) (k : Nat) (x : Core) : (s.setCore k x).disp = s.disp := rfl
@[simp] theorem State.setCore_counters (s : State) (k : Nat) (x : Core) : (s.setCore k x).counters = s.counters := rfl
@[simp] theorem State.setCore_tasks (s : State) (k : Nat) (x : Core) : (s.setCore k x).tasks = s.tasks := rfl
@[simp] theorem State.setCore_instances (s : State) (k : Nat) (x : Core) : (s.setCore k x).instances = s.instances := rfl
@[simp] theorem State.setCore_nextInst (s : State) (k : Nat) (x : Core) : (s.setCore k x).nextInst = s.nextInst := rfl
@[simp] theorem State.setCore_tags (s : State) (k : Nat) (x : Core) : (s.setCore k x).tags = s.tags := rfl
@[simp] theorem State.setCore_rings (s : State) (k : Nat) (x : Core) : (s.setCore k x).rings = s.rings := rfl
@[simp] theorem State.setCore_publishing (s : State) (k : Nat) (x : Core) : (s.setCore k x).publishing = s.publishing := rfl
@[simp] theorem State.setCore_colls (s : State) (k : Nat) (x : Core) : (s.setCore k x).colls = s.colls := rfl
@[simp] theorem State.setCore_ckpts (s : State) (k : Nat) (x : Core) : (s.setCore k x).ckpts = s.ckpts := rfl
@[simp] theorem State.setCore_tide (s : State) (k : Nat) (x : Core) : (s.setCore k x).tide = s.tide := rfl
@[simp] theorem State.setCore_pat (s : State) (k : Nat) (x : Core) : (s.setCore k x).pat = s.pat := rfl
@[simp] theorem State.setCore_fq (s : State) (k : Nat) (x : Core) : (s.setCore k x).fq = s.fq := rfl
@[simp] theorem State.setCore_fab (s : State) (k : Nat) (x : Core) : (s.setCore k x).fab = s.fab := rfl
@[simp] theorem State.setCore_dbg (s : State) (k : Nat) (x : Core) : (s.setCore k x).dbg = s.dbg := rfl
@[simp] theorem State.setCore_host (s : State) (k : Nat) (x : Core) : (s.setCore k x).host = s.host := rfl
@[simp] theorem State.setCore_ctrl (s : State) (k : Nat) (x : Core) : (s.setCore k x).ctrl = s.ctrl := rfl
@[simp] theorem State.setCore_images (s : State) (k : Nat) (x : Core) : (s.setCore k x).images = s.images := rfl
@[simp] theorem State.setCore_out (s : State) (k : Nat) (x : Core) : (s.setCore k x).out = s.out := rfl

/-! ### setCounter -/

@[simp] theorem State.setCounter_cur (s : State) (k : Nat) (x : Counter) : (s.setCounter k x).cur = s.cur := rfl
@[simp] theorem State.setCounter_agenda (s : State) (k : Nat) (x : Counter) : (s.setCounter k x).agenda = s.agenda := rfl
@[simp] theorem State.setCounter_free (s : State) (k : Nat) (x : Counter) : (s.setCounter k x).free = s.free := rfl
@[simp] theorem State.setCounter_cycles (s : State) (k : Nat) (x : Counter) : (s.setCounter k x).cycles = s.cycles := rfl
@[simp] theorem State.setCounter_now (s : State) (k : Nat) (x : Counter) : (s.setCounter k x).now = s.now := rfl
@[simp] theorem State.setCounter_cyc (s : State) (k : Nat) (x : Counter) : (s.setCounter k x).cyc = s.cyc := rfl
@[simp] theorem State.setCounter_farZero (s : State) (k : Nat) (x : Counter) : (s.setCounter k x).farZero = s.farZero := rfl
@[simp] theorem State.setCounter_near (s : State) (k : Nat) (x : Counter) : (s.setCounter k x).near = s.near := rfl
@[simp] theorem State.setCounter_far (s : State) (k : Nat) (x : Counter) : (s.setCounter k x).far = s.far := rfl
@[simp] theorem State.setCounter_bad (s : State) (k : Nat) (x : Counter) : (s.setCounter k x).bad = s.bad := rfl
@[simp] theorem State.setCounter_tlb (s : State) (k : Nat) (x : Counter) : (s.setCounter k x).tlb = s.tlb := rfl
@[simp] theorem State.setCounter_icache (s : State) (k : Nat) (x : Counter) : (s.setCounter k x).icache = s.icache := rfl
@[simp] theorem State.setCounter_ctxs (s : State) (k : Nat) (x : Counter) : (s.setCounter k x).ctxs = s.ctxs := rfl
@[simp] theorem State.setCounter_teams (s : State) (k : Nat) (x : Counter) : (s.setCounter k x).teams = s.teams := rfl
@[simp] theorem State.setCounter_disp (s : State) (k : Nat) (x : Counter) : (s.setCounter k x).disp = s.disp := rfl
@[simp] theorem State.setCounter_cores (s : State) (k : Nat) (x : Counter) : (s.setCounter k x).cores = s.cores := rfl
@[simp] theorem State.setCounter_tasks (s : State) (k : Nat) (x : Counter) : (s.setCounter k x).tasks = s.tasks := rfl
@[simp] theorem State.setCounter_instances (s : State) (k : Nat) (x : Counter) : (s.setCounter k x).instances = s.instances := rfl
@[simp] theorem State.setCounter_nextInst (s : State) (k : Nat) (x : Counter) : (s.setCounter k x).nextInst = s.nextInst := rfl
@[simp] theorem State.setCounter_tags (s : State) (k : Nat) (x : Counter) : (s.setCounter k x).tags = s.tags := rfl
@[simp] theorem State.setCounter_rings (s : State) (k : Nat) (x : Counter) : (s.setCounter k x).rings = s.rings := rfl
@[simp] theorem State.setCounter_publishing (s : State) (k : Nat) (x : Counter) : (s.setCounter k x).publishing = s.publishing := rfl
@[simp] theorem State.setCounter_colls (s : State) (k : Nat) (x : Counter) : (s.setCounter k x).colls = s.colls := rfl
@[simp] theorem State.setCounter_ckpts (s : State) (k : Nat) (x : Counter) : (s.setCounter k x).ckpts = s.ckpts := rfl
@[simp] theorem State.setCounter_tide (s : State) (k : Nat) (x : Counter) : (s.setCounter k x).tide = s.tide := rfl
@[simp] theorem State.setCounter_pat (s : State) (k : Nat) (x : Counter) : (s.setCounter k x).pat = s.pat := rfl
@[simp] theorem State.setCounter_fq (s : State) (k : Nat) (x : Counter) : (s.setCounter k x).fq = s.fq := rfl
@[simp] theorem State.setCounter_fab (s : State) (k : Nat) (x : Counter) : (s.setCounter k x).fab = s.fab := rfl
@[simp] theorem State.setCounter_dbg (s : State) (k : Nat) (x : Counter) : (s.setCounter k x).dbg = s.dbg := rfl
@[simp] theorem State.setCounter_host (s : State) (k : Nat) (x : Counter) : (s.setCounter k x).host = s.host := rfl
@[simp] theorem State.setCounter_ctrl (s : State) (k : Nat) (x : Counter) : (s.setCounter k x).ctrl = s.ctrl := rfl
@[simp] theorem State.setCounter_images (s : State) (k : Nat) (x : Counter) : (s.setCounter k x).images = s.images := rfl
@[simp] theorem State.setCounter_out (s : State) (k : Nat) (x : Counter) : (s.setCounter k x).out = s.out := rfl

/-! ### setTraceDie -/

@[simp] theorem State.setTraceDie_cur (s : State) (k : Nat) (x : TraceDie) : (s.setTraceDie k x).cur = s.cur := rfl
@[simp] theorem State.setTraceDie_agenda (s : State) (k : Nat) (x : TraceDie) : (s.setTraceDie k x).agenda = s.agenda := rfl
@[simp] theorem State.setTraceDie_free (s : State) (k : Nat) (x : TraceDie) : (s.setTraceDie k x).free = s.free := rfl
@[simp] theorem State.setTraceDie_cycles (s : State) (k : Nat) (x : TraceDie) : (s.setTraceDie k x).cycles = s.cycles := rfl
@[simp] theorem State.setTraceDie_now (s : State) (k : Nat) (x : TraceDie) : (s.setTraceDie k x).now = s.now := rfl
@[simp] theorem State.setTraceDie_cyc (s : State) (k : Nat) (x : TraceDie) : (s.setTraceDie k x).cyc = s.cyc := rfl
@[simp] theorem State.setTraceDie_farZero (s : State) (k : Nat) (x : TraceDie) : (s.setTraceDie k x).farZero = s.farZero := rfl
@[simp] theorem State.setTraceDie_near (s : State) (k : Nat) (x : TraceDie) : (s.setTraceDie k x).near = s.near := rfl
@[simp] theorem State.setTraceDie_far (s : State) (k : Nat) (x : TraceDie) : (s.setTraceDie k x).far = s.far := rfl
@[simp] theorem State.setTraceDie_bad (s : State) (k : Nat) (x : TraceDie) : (s.setTraceDie k x).bad = s.bad := rfl
@[simp] theorem State.setTraceDie_tlb (s : State) (k : Nat) (x : TraceDie) : (s.setTraceDie k x).tlb = s.tlb := rfl
@[simp] theorem State.setTraceDie_icache (s : State) (k : Nat) (x : TraceDie) : (s.setTraceDie k x).icache = s.icache := rfl
@[simp] theorem State.setTraceDie_ctxs (s : State) (k : Nat) (x : TraceDie) : (s.setTraceDie k x).ctxs = s.ctxs := rfl
@[simp] theorem State.setTraceDie_teams (s : State) (k : Nat) (x : TraceDie) : (s.setTraceDie k x).teams = s.teams := rfl
@[simp] theorem State.setTraceDie_disp (s : State) (k : Nat) (x : TraceDie) : (s.setTraceDie k x).disp = s.disp := rfl
@[simp] theorem State.setTraceDie_cores (s : State) (k : Nat) (x : TraceDie) : (s.setTraceDie k x).cores = s.cores := rfl
@[simp] theorem State.setTraceDie_counters (s : State) (k : Nat) (x : TraceDie) : (s.setTraceDie k x).counters = s.counters := rfl
@[simp] theorem State.setTraceDie_tasks (s : State) (k : Nat) (x : TraceDie) : (s.setTraceDie k x).tasks = s.tasks := rfl
@[simp] theorem State.setTraceDie_instances (s : State) (k : Nat) (x : TraceDie) : (s.setTraceDie k x).instances = s.instances := rfl
@[simp] theorem State.setTraceDie_nextInst (s : State) (k : Nat) (x : TraceDie) : (s.setTraceDie k x).nextInst = s.nextInst := rfl
@[simp] theorem State.setTraceDie_tags (s : State) (k : Nat) (x : TraceDie) : (s.setTraceDie k x).tags = s.tags := rfl
@[simp] theorem State.setTraceDie_rings (s : State) (k : Nat) (x : TraceDie) : (s.setTraceDie k x).rings = s.rings := rfl
@[simp] theorem State.setTraceDie_publishing (s : State) (k : Nat) (x : TraceDie) : (s.setTraceDie k x).publishing = s.publishing := rfl
@[simp] theorem State.setTraceDie_colls (s : State) (k : Nat) (x : TraceDie) : (s.setTraceDie k x).colls = s.colls := rfl
@[simp] theorem State.setTraceDie_ckpts (s : State) (k : Nat) (x : TraceDie) : (s.setTraceDie k x).ckpts = s.ckpts := rfl
@[simp] theorem State.setTraceDie_tide (s : State) (k : Nat) (x : TraceDie) : (s.setTraceDie k x).tide = s.tide := rfl
@[simp] theorem State.setTraceDie_pat (s : State) (k : Nat) (x : TraceDie) : (s.setTraceDie k x).pat = s.pat := rfl
@[simp] theorem State.setTraceDie_fq (s : State) (k : Nat) (x : TraceDie) : (s.setTraceDie k x).fq = s.fq := rfl
@[simp] theorem State.setTraceDie_fab (s : State) (k : Nat) (x : TraceDie) : (s.setTraceDie k x).fab = s.fab := rfl
@[simp] theorem State.setTraceDie_host (s : State) (k : Nat) (x : TraceDie) : (s.setTraceDie k x).host = s.host := rfl
@[simp] theorem State.setTraceDie_ctrl (s : State) (k : Nat) (x : TraceDie) : (s.setTraceDie k x).ctrl = s.ctrl := rfl
@[simp] theorem State.setTraceDie_images (s : State) (k : Nat) (x : TraceDie) : (s.setTraceDie k x).images = s.images := rfl
@[simp] theorem State.setTraceDie_out (s : State) (k : Nat) (x : TraceDie) : (s.setTraceDie k x).out = s.out := rfl

/-! ### send -/

@[simp] theorem State.send_cur (s : State) (p : Packet) : (s.send p).cur = s.cur := rfl
@[simp] theorem State.send_agenda (s : State) (p : Packet) : (s.send p).agenda = s.agenda := rfl
@[simp] theorem State.send_free (s : State) (p : Packet) : (s.send p).free = s.free := rfl
@[simp] theorem State.send_cycles (s : State) (p : Packet) : (s.send p).cycles = s.cycles := rfl
@[simp] theorem State.send_now (s : State) (p : Packet) : (s.send p).now = s.now := rfl
@[simp] theorem State.send_cyc (s : State) (p : Packet) : (s.send p).cyc = s.cyc := rfl
@[simp] theorem State.send_farZero (s : State) (p : Packet) : (s.send p).farZero = s.farZero := rfl
@[simp] theorem State.send_near (s : State) (p : Packet) : (s.send p).near = s.near := rfl
@[simp] theorem State.send_far (s : State) (p : Packet) : (s.send p).far = s.far := rfl
@[simp] theorem State.send_bad (s : State) (p : Packet) : (s.send p).bad = s.bad := rfl
@[simp] theorem State.send_tlb (s : State) (p : Packet) : (s.send p).tlb = s.tlb := rfl
@[simp] theorem State.send_icache (s : State) (p : Packet) : (s.send p).icache = s.icache := rfl
@[simp] theorem State.send_ctxs (s : State) (p : Packet) : (s.send p).ctxs = s.ctxs := rfl
@[simp] theorem State.send_teams (s : State) (p : Packet) : (s.send p).teams = s.teams := rfl
@[simp] theorem State.send_disp (s : State) (p : Packet) : (s.send p).disp = s.disp := rfl
@[simp] theorem State.send_cores (s : State) (p : Packet) : (s.send p).cores = s.cores := rfl
@[simp] theorem State.send_counters (s : State) (p : Packet) : (s.send p).counters = s.counters := rfl
@[simp] theorem State.send_tasks (s : State) (p : Packet) : (s.send p).tasks = s.tasks := rfl
@[simp] theorem State.send_instances (s : State) (p : Packet) : (s.send p).instances = s.instances := rfl
@[simp] theorem State.send_nextInst (s : State) (p : Packet) : (s.send p).nextInst = s.nextInst := rfl
@[simp] theorem State.send_tags (s : State) (p : Packet) : (s.send p).tags = s.tags := rfl
@[simp] theorem State.send_rings (s : State) (p : Packet) : (s.send p).rings = s.rings := rfl
@[simp] theorem State.send_publishing (s : State) (p : Packet) : (s.send p).publishing = s.publishing := rfl
@[simp] theorem State.send_colls (s : State) (p : Packet) : (s.send p).colls = s.colls := rfl
@[simp] theorem State.send_ckpts (s : State) (p : Packet) : (s.send p).ckpts = s.ckpts := rfl
@[simp] theorem State.send_tide (s : State) (p : Packet) : (s.send p).tide = s.tide := rfl
@[simp] theorem State.send_pat (s : State) (p : Packet) : (s.send p).pat = s.pat := rfl
@[simp] theorem State.send_fq (s : State) (p : Packet) : (s.send p).fq = s.fq := rfl
@[simp] theorem State.send_fab (s : State) (p : Packet) : (s.send p).fab = s.fab := rfl
@[simp] theorem State.send_dbg (s : State) (p : Packet) : (s.send p).dbg = s.dbg := rfl
@[simp] theorem State.send_host (s : State) (p : Packet) : (s.send p).host = s.host := rfl
@[simp] theorem State.send_ctrl (s : State) (p : Packet) : (s.send p).ctrl = s.ctrl := rfl
@[simp] theorem State.send_images (s : State) (p : Packet) : (s.send p).images = s.images := rfl

/-! ### nearWrite -/

@[simp] theorem State.nearWrite_cur (s : State) (a n v : Nat) : (s.nearWrite a n v).cur = s.cur := rfl
@[simp] theorem State.nearWrite_agenda (s : State) (a n v : Nat) : (s.nearWrite a n v).agenda = s.agenda := rfl
@[simp] theorem State.nearWrite_free (s : State) (a n v : Nat) : (s.nearWrite a n v).free = s.free := rfl
@[simp] theorem State.nearWrite_cycles (s : State) (a n v : Nat) : (s.nearWrite a n v).cycles = s.cycles := rfl
@[simp] theorem State.nearWrite_now (s : State) (a n v : Nat) : (s.nearWrite a n v).now = s.now := rfl
@[simp] theorem State.nearWrite_cyc (s : State) (a n v : Nat) : (s.nearWrite a n v).cyc = s.cyc := rfl
@[simp] theorem State.nearWrite_farZero (s : State) (a n v : Nat) : (s.nearWrite a n v).farZero = s.farZero := rfl
@[simp] theorem State.nearWrite_far (s : State) (a n v : Nat) : (s.nearWrite a n v).far = s.far := rfl
@[simp] theorem State.nearWrite_tlb (s : State) (a n v : Nat) : (s.nearWrite a n v).tlb = s.tlb := rfl
@[simp] theorem State.nearWrite_icache (s : State) (a n v : Nat) : (s.nearWrite a n v).icache = s.icache := rfl
@[simp] theorem State.nearWrite_ctxs (s : State) (a n v : Nat) : (s.nearWrite a n v).ctxs = s.ctxs := rfl
@[simp] theorem State.nearWrite_teams (s : State) (a n v : Nat) : (s.nearWrite a n v).teams = s.teams := rfl
@[simp] theorem State.nearWrite_disp (s : State) (a n v : Nat) : (s.nearWrite a n v).disp = s.disp := rfl
@[simp] theorem State.nearWrite_cores (s : State) (a n v : Nat) : (s.nearWrite a n v).cores = s.cores := rfl
@[simp] theorem State.nearWrite_counters (s : State) (a n v : Nat) : (s.nearWrite a n v).counters = s.counters := rfl
@[simp] theorem State.nearWrite_tasks (s : State) (a n v : Nat) : (s.nearWrite a n v).tasks = s.tasks := rfl
@[simp] theorem State.nearWrite_instances (s : State) (a n v : Nat) : (s.nearWrite a n v).instances = s.instances := rfl
@[simp] theorem State.nearWrite_nextInst (s : State) (a n v : Nat) : (s.nearWrite a n v).nextInst = s.nextInst := rfl
@[simp] theorem State.nearWrite_tags (s : State) (a n v : Nat) : (s.nearWrite a n v).tags = s.tags := rfl
@[simp] theorem State.nearWrite_rings (s : State) (a n v : Nat) : (s.nearWrite a n v).rings = s.rings := rfl
@[simp] theorem State.nearWrite_publishing (s : State) (a n v : Nat) : (s.nearWrite a n v).publishing = s.publishing := rfl
@[simp] theorem State.nearWrite_colls (s : State) (a n v : Nat) : (s.nearWrite a n v).colls = s.colls := rfl
@[simp] theorem State.nearWrite_ckpts (s : State) (a n v : Nat) : (s.nearWrite a n v).ckpts = s.ckpts := rfl
@[simp] theorem State.nearWrite_tide (s : State) (a n v : Nat) : (s.nearWrite a n v).tide = s.tide := rfl
@[simp] theorem State.nearWrite_pat (s : State) (a n v : Nat) : (s.nearWrite a n v).pat = s.pat := rfl
@[simp] theorem State.nearWrite_fq (s : State) (a n v : Nat) : (s.nearWrite a n v).fq = s.fq := rfl
@[simp] theorem State.nearWrite_fab (s : State) (a n v : Nat) : (s.nearWrite a n v).fab = s.fab := rfl
@[simp] theorem State.nearWrite_dbg (s : State) (a n v : Nat) : (s.nearWrite a n v).dbg = s.dbg := rfl
@[simp] theorem State.nearWrite_host (s : State) (a n v : Nat) : (s.nearWrite a n v).host = s.host := rfl
@[simp] theorem State.nearWrite_ctrl (s : State) (a n v : Nat) : (s.nearWrite a n v).ctrl = s.ctrl := rfl
@[simp] theorem State.nearWrite_images (s : State) (a n v : Nat) : (s.nearWrite a n v).images = s.images := rfl
@[simp] theorem State.nearWrite_out (s : State) (a n v : Nat) : (s.nearWrite a n v).out = s.out := rfl

/-! ### Tables of teams, parties and lanes -/

/-- Reading a team after writing one. -/
@[simp] theorem State.team_setTeam (s : State) (t j : Nat) (x : Team) : (s.setTeam t x).team j = if j = t then x else s.team j := by
  simp [State.team, State.setTeam]

/-- Reading a party after writing one. -/
@[simp] theorem Team.party_setParty (T : Team) (k j : Nat) (x : Party) : (T.setParty k x).party j = if j = k then x else T.party j := by
  simp [Team.party, Team.setParty]

/-- Reading a lane after writing one. -/
@[simp] theorem Party.lane_setLane (P : Party) (l j : Nat) (x : Lane) : (P.setLane l x).lane j = if j = l then x else P.lane j := by
  simp [Party.lane, Party.setLane]

/-- Reading a team after writing a party of one. -/
theorem State.team_setParty (s : State) (t k j : Nat) (x : Party) :
    (s.setParty t k x).team j = if j = t then (s.team t).setParty k x else s.team j := by
  simp [State.setParty]

/-- Reading a party of the state after writing one. -/
@[simp] theorem State.party_setParty (s : State) (t k t' k' : Nat) (x : Party) :
    (s.setParty t k x).party t' k' = if t' = t ∧ k' = k then x else s.party t' k' := by
  unfold State.party
  rw [State.team_setParty]
  by_cases h : t' = t
  · subst h; by_cases hk : k' = k <;> simp [hk]
  · simp [h]

/-- Each listed lane of a party is what f makes of it; the others stay. -/
@[simp] theorem Party.lane_mapLanes (P : Party) (ls : List Nat) (f : Nat → Lane → Lane) (j : Nat) :
    (P.mapLanes ls f).lane j = if j ∈ ls then f j (P.lane j) else P.lane j := by
  have h : ∀ (ls : List Nat) (m : FMap Lane),
      FMap.get {} (ls.foldl (fun m l => FMap.set {} m l (f l (P.lane l))) m) j
        = if j ∈ ls then f j (P.lane j) else FMap.get {} m j := by
    intro ls
    induction ls with
    | nil => intro m; simp
    | cons l t ih =>
      intro m
      rw [List.foldl_cons, ih, FMap.get_set]
      by_cases hj : j ∈ t
      · simp [hj]
      · by_cases hl : j = l <;> simp [hj, hl]
  exact h ls P.lanes

/-- The issuing party after each issuing lane was changed. -/
@[simp] theorem State.curParty_setCurParty (s : State) (x : Party) : (s.setCurParty x).curParty = x := by
  simp [State.curParty, State.setCurParty]

@[simp] theorem State.curParty_mapLanes (s : State) (f : Nat → Lane → Lane) :
    (s.mapLanes f).curParty = s.curParty.mapLanes s.cur.lanes f := by
  simp [State.mapLanes]

/-- The issuing team after its party was written. -/
@[simp] theorem State.curTeam_setCurParty (s : State) (x : Party) : (s.setCurParty x).curTeam = s.curTeam.setParty s.cur.party x := by
  simp [State.curTeam, State.setCurParty, State.team_setParty]

@[simp] theorem State.curTeam_setCurTeam (s : State) (x : Team) : (s.setCurTeam x).curTeam = x := by
  simp [State.curTeam, State.setCurTeam]

/-- Writing a party changes nothing else of its team. -/
@[simp] theorem Team.setParty_core (T : Team) (k : Nat) (x : Party) : { T.setParty k x with parties := T.parties } = T := rfl

/-- Changing lanes changes nothing else of a party. -/
@[simp] theorem Party.mapLanes_lanes (P : Party) (ls : List Nat) (f : Nat → Lane → Lane) : { P.mapLanes ls f with lanes := P.lanes } = P := rfl

/-- The later of two writes to a team stands. -/
@[simp] theorem State.setTeam_setTeam (s : State) (t : Nat) (x y : Team) : (s.setTeam t x).setTeam t y = s.setTeam t y := by
  simp [State.setTeam]

/-- The later of two writes to the issuing party stands. -/
@[simp] theorem State.setCurParty_setCurParty (s : State) (x y : Party) : (s.setCurParty x).setCurParty y = s.setCurParty y := by
  simp [State.setCurParty, State.setParty, State.setTeam, Team.setParty, State.team]

/-- A team written after its party. -/
theorem State.setCurTeam_setCurParty (s : State) (x : Party) (T : Team) : (s.setCurParty x).setCurTeam T = s.setCurTeam T := by
  simp [State.setCurTeam, State.setCurParty, State.setParty, State.setTeam]

/-- A lane of a party that has not exited is listed. -/
theorem Party.mem_lanes {P : Party} {l : Nat} (h : (P.lane l).exited = false) : l ∈ P.lanes.map (·.1) := by
  apply FMap.mem_of_get_ne ({} : Lane)
  intro e
  unfold Party.lane at h
  rw [e] at h
  exact absurd h (by decide)

/-- A lane that is not listed is the default. -/
theorem Party.lane_of_not_mem {P : Party} {l : Nat} (h : l ∉ P.lanes.map (·.1)) : P.lane l = {} := by
  unfold Party.lane
  exact Classical.byContradiction fun e => h (FMap.mem_of_get_ne _ _ _ e)

end Sys2Proof.Machine
end

