-- ==== Sys2Proof/Laws/Gate.lean ====
section
/-! SUPPORT. What every word goes through, said once: a word that is ready answers its own effect, settled. -/

namespace Sys2Proof.Machine

open Sys2Proof

theorem State.only_self (s : State) : s.only s.cur.lanes = s := rfl

theorem State.hits_nil {s : State} (h : ∀ l ∈ s.cur.lanes, s.breakAt l = none) : s.hits = [] := by
  unfold State.hits
  rw [List.filterMap_eq_nil_iff]
  intro l hl; simp [h l hl]

theorem State.takeCauses_nil (s : State) (u : Bool) : s.takeCauses u [] = s := rfl

theorem State.close_calm {r b : State} (h : b.curTeam.halt.calm = true) (ht : b.dbg.trcStall = false) : r.close b = r := by
  unfold State.close
  generalize b.curTeam.halt = x at h
  cases x <;> simp_all [Halt.calm]

/-- A word that no check stops is its own effect. -/
theorem State.guarded_clean {s : State} {i : Instr} {u : Uses} (body : State → State) (hw : s.wordDetail i u = none)
    (hc : ∀ l ∈ s.cur.lanes, s.laneCause i u l = none) (hx : s.owedExports u = []) (hne : s.cur.lanes ≠ []) :
    s.guarded i u body = (s.mapLanes fun _ x => x.prepare i u).act i u body := by
  have hcs : s.causes i u = [] := by
    unfold State.causes
    rw [List.filterMap_eq_nil_iff]
    intro l hl; simp [hc l hl]
  have hgo : (s.cur.lanes.filter fun l => (s.laneCause i u l).isNone) = s.cur.lanes := by
    rw [List.filter_eq_self]
    intro l hl; simp [hc l hl]
  have hb : s.countBad i u = s := by
    unfold State.countBad
    rw [if_neg]
    simp only [List.any_eq_true, not_exists, not_and]
    intro l hl hb
    have h := hc l hl
    unfold State.laneCause at h
    simp only [hb] at h
    split at h
    · simp at h
    · split at h <;> simp at h
  have hne' : s.cur.lanes.isEmpty = false := by cases hl : s.cur.lanes <;> simp_all
  unfold State.guarded
  rw [hw]
  simp only [hcs, hb, hgo, hx, List.isEmpty_nil, Bool.not_true, Bool.and_false, hne', Bool.false_eq_true, if_false]
  have ho : (s.mapLanes fun _ x => x.prepare i u).only s.cur.lanes = s.mapLanes fun _ x => x.prepare i u := rfl
  rw [ho]
  split <;> first | rfl | simp_all

/-- Draining a party's special-function results changes what its lanes still owe, and nothing else of them. -/
theorem Party.drained_lane (P : Party) (all : Bool) (now l : Nat) :
    ∃ q, (P.drained all now).lane l = { P.lane l with pend := q } := by
  unfold Party.drained
  rw [Party.lane_mapLanes]
  split <;> exact ⟨_, rfl⟩

/-- A word is looked at in the state as it is, or with its party's special-function results drained. -/
theorem State.looked_cases (s : State) (i : Instr) :
    s.looked i = s.begin ∨ ∃ all, s.looked i = s.begin.setCurParty (s.begin.curParty.drained all s.now) := by
  unfold State.looked State.drainFor
  split
  · exact .inr ⟨_, rfl⟩
  · exact .inl rfl

theorem State.looked_cur (s : State) (i : Instr) : (s.looked i).cur = { s.cur with trapped := false } := by
  rcases s.looked_cases i with h | ⟨_, h⟩ <;> rw [h] <;> rfl

theorem State.looked_now (s : State) (i : Instr) : (s.looked i).now = s.now := by
  rcases s.looked_cases i with h | ⟨_, h⟩ <;> rw [h] <;> rfl

theorem State.looked_dbg (s : State) (i : Instr) : (s.looked i).dbg = s.dbg := by
  rcases s.looked_cases i with h | ⟨_, h⟩ <;> rw [h] <;> rfl

theorem State.looked_team (s : State) (i : Instr) : { (s.looked i).curTeam with parties := s.curTeam.parties } = s.curTeam := by
  rcases s.looked_cases i with h | ⟨_, h⟩ <;> rw [h]
  · rfl
  · rw [State.curTeam_setCurParty]; rfl

theorem State.looked_halt (s : State) (i : Instr) : (s.looked i).curTeam.halt = s.curTeam.halt := by
  have e := congrArg Team.halt (s.looked_team i)
  exact e

/-- Every lane stands as it did when its word is looked at. -/
theorem State.looked_lane (s : State) (i : Instr) (l : Nat) : ∃ q, (s.looked i).curParty.lane l = { s.curParty.lane l with pend := q } := by
  rcases s.looked_cases i with h | ⟨_, h⟩ <;> rw [h]
  · exact ⟨_, rfl⟩
  · rw [State.curParty_setCurParty]; exact s.begin.curParty.drained_lane _ _ l

theorem State.looked_seq (s : State) (i : Instr) : (s.looked i).curParty.seq = s.curParty.seq := by
  rcases s.looked_cases i with h | ⟨_, h⟩ <;> rw [h]
  · rfl
  · rw [State.curParty_setCurParty]; rfl

theorem State.looked_breakAt (s : State) (i : Instr) (l : Nat) : (s.looked i).breakAt l = s.breakAt l := by
  obtain ⟨q, hq⟩ := s.looked_lane i l
  have ha : (s.looked i).curTeam.asid = s.curTeam.asid := by
    have e := congrArg Team.asid (s.looked_team i)
    exact e
  unfold State.breakAt
  simp only [hq, ha, State.looked_seq, State.looked_dbg]

/-- What `gate` answers for a word that is ready: its own effect on the lanes that issue it, settled. -/
theorem gate_ready {s : State} {i : Instr} (h : s.Ready i) (body : State → State) :
    gate i s body = .next (if returns i then s.returned i (body (s.before i)) else s.after i (body (s.before i))) := by
  have hne : s.cur.lanes ≠ [] := by
    have := h.issuing
    intro e
    simp [State.issuing, e] at this
  have hlanes : (s.looked i).cur.lanes = s.cur.lanes := by rw [State.looked_cur]
  have hb : ∀ l ∈ (s.looked i).cur.lanes, (s.looked i).breakAt l = none := by
    intro l hl
    rw [State.looked_breakAt]
    exact h.unbroken l (hlanes ▸ hl)
  have hh : (s.looked i).hits = [] := State.hits_nil hb
  have hrest : ((s.looked i).cur.lanes.filter fun l => ((s.looked i).breakAt l).isNone) = (s.looked i).cur.lanes := by
    rw [List.filter_eq_self]
    intro l hl
    simp [hb l hl]
  have hne' : (s.looked i).cur.lanes.isEmpty = false := by
    rw [hlanes]
    cases hl : s.cur.lanes <;> simp_all
  unfold gate
  rw [if_pos h.issuing]
  congr 1
  show State.close _ (s.looked i) = _
  rw [State.close_calm (b := s.looked i) (by rw [State.looked_halt]; exact h.calm) (by rw [State.looked_dbg]; exact h.untraced)]
  have hrun : ((if ((s.looked i).cur.lanes.filter fun l => ((s.looked i).breakAt l).isNone).isEmpty
        then (s.looked i).passHits (s.looked i).hits
        else (((s.looked i).passHits (s.looked i).hits).only
          ((s.looked i).cur.lanes.filter fun l => ((s.looked i).breakAt l).isNone)).guarded i ((s.looked i).uses i) body).takeCauses
          (uniformWord i) (s.looked i).hits) = (s.looked i).guarded i ((s.looked i).uses i) body := by
    have hp : (s.looked i).passHits [] = s.looked i := rfl
    rw [hrest, hh, State.takeCauses_nil, hne', hp, State.only_self]; rfl
  refine Eq.trans hrun ?_
  rw [State.guarded_clean body h.allowed (fun l hl => h.clean l (hlanes ▸ hl)) h.exported (hlanes ▸ hne)]
  unfold State.act
  have hd := h.drained
  unfold State.after State.returned
  unfold State.before at hd ⊢
  cases hr : systemRelease i
  · simp
  · simp only [hr, if_true, true_implies] at hd
    simp [hd]

/-! ### Settling -/

/-- The party after its issuing lanes settled, those of ls no longer passed over: b is the state before the word. -/
def settledLanes (b : State) (i : Instr) (u : Uses) (Q : Party) (ls : List Nat) : Party :=
  { (Q.mapLanes ls fun _ x => { x with skipped := 0 }).mapLanes b.cur.lanes
      (fun l x => Lane.settle b.now u ((b.curParty.lane l).stall i) b.curParty (b.curParty.lane l) x) with peerBuf := [], refused := [] }

/-- The party after the word, which counts as issued when no unit of it was performed before. -/
def settledParty (b : State) (i : Instr) (u : Uses) (Q : Party) : Party :=
  if (b.curParty.lane b.firstLane).unit = 0 then
    { (settledLanes b i u Q b.cur.lanes).mapLanes ((settledLanes b i u Q b.cur.lanes).active.filter fun l => !b.cur.lanes.contains l)
        (fun _ x => { x with skipped := x.skipped + 1 }) with lastIssue := b.now }
  else settledLanes b i u Q []

/-- The team after the word: one that a word has issued in has issued now. -/
def settledTeam (b : State) (T : Team) : Team :=
  if (b.curParty.lane b.firstLane).unit = 0 then { T with lastIssue := b.now, swapIn := none } else T

/-- Counting a word in a team without a skid. -/
theorem State.countIssue_calm (s : State) (t k : Nat) (went : List Nat) (h : (s.team t).halt.calm = true) :
    s.countIssue t k went = s.setTeam t (Team.setParty { s.team t with lastIssue := s.now, swapIn := none } k
      { (s.team t).party k |>.mapLanes (((s.team t).party k).active.filter fun l => !went.contains l) (fun _ x => { x with skipped := x.skipped + 1 })
        with lastIssue := s.now }) := by
  unfold State.countIssue
  generalize hx : (s.team t).halt = x at h
  cases x <;> first | exact absurd h Bool.false_ne_true | (simp only [hx]; rfl)

/-- A state c that an effect made of state b before the issuing lanes move on: who issues, when, the party and the halt of its
team are as before. -/
structure State.From (b c : State) : Prop where
  cur : c.cur = b.cur
  now : c.now = b.now
  party : c.curParty = b.curParty
  calm : c.curTeam.halt.calm = true
  lanes : b.cur.lanes ≠ []
  live : ∀ l ∈ b.cur.lanes, (b.curParty.lane l).exited = false

/-- Settling a word that then changed its party alone, in a team without a skid. -/
theorem State.settle_setCurParty {b c : State} (h : b.From c) (i : Instr) (u : Uses) (Q : Party)
    (hw : ∀ l ∈ b.cur.lanes, (Q.lane l).wait = .none ∧ (Q.lane l).units = 0) :
    (c.setCurParty Q).settle i u b = c.setCurTeam ((settledTeam b c.curTeam).setParty c.cur.party (settledParty b i u Q)) := by
  have hwent : (b.cur.lanes.filter fun l => (Q.lane l).wait == .none && (Q.lane l).units == 0) = b.cur.lanes := by
    rw [List.filter_eq_self]; intro l hl; simp [hw l hl]
  have hbegun : (b.cur.lanes.filter fun l => (Q.lane l).wait == .none) = b.cur.lanes := by
    rw [List.filter_eq_self]; intro l hl; simp [hw l hl]
  have he : b.cur.lanes.isEmpty = false := by have := h.lanes; cases hl : b.cur.lanes <;> simp_all
  have hc := h.calm
  have ht : ∀ R : Party, (c.setCurParty R).team b.cur.team = c.curTeam.setParty b.cur.party R := by
    intro R
    have e := State.curTeam_setCurParty c R
    unfold State.curTeam at e
    rw [State.setCurParty_cur, h.cur] at e
    unfold State.curTeam
    rw [h.cur]; exact e
  unfold State.settle settledTeam settledParty
  by_cases ho : (b.curParty.lane b.firstLane).unit = 0
  · simp only [State.curParty_setCurParty, State.setCurParty_cur, h.cur, hwent, hbegun, he, ho, Bool.and_false, Bool.false_eq_true, if_false,
      if_true, State.setCurParty_now, h.now, State.setCurParty_setCurParty]
    rw [State.countIssue_calm _ _ _ _ (by rw [ht]; exact hc), ht, State.setCurParty_now, h.now]
    unfold State.setCurParty State.setParty State.setCurTeam
    rw [h.cur, State.setTeam_setTeam]
    congr 1
    unfold Team.setParty Team.party
    simp only [FMap.get_set, FMap.set_set, if_true]
    rfl
  · simp only [State.curParty_setCurParty, State.setCurParty_cur, h.cur, hwent, he, ho, List.isEmpty_nil, Bool.true_and, Bool.false_eq_true,
      if_false, if_true, State.setCurParty_now, h.now, State.setCurParty_setCurParty]
    unfold State.setCurParty State.setParty State.setCurTeam State.curTeam
    rw [h.cur]
    rfl

/-- An issuing lane of the settled lanes. -/
theorem settledLanes_lane {b : State} {i : Instr} {u : Uses} {Q : Party} {l : Nat} (ls : List Nat) (hl : l ∈ b.cur.lanes) :
    (settledLanes b i u Q ls).lane l
      = Lane.settle b.now u ((b.curParty.lane l).stall i) b.curParty (b.curParty.lane l) (Q.lane l) := by
  show ((Q.mapLanes ls _).mapLanes b.cur.lanes _).lane l = _
  rw [Party.lane_mapLanes, if_pos hl, Party.lane_mapLanes]
  split <;> rfl

/-- Another lane of the settled lanes, when ls are issuing lanes. -/
theorem settledLanes_idle {b : State} {i : Instr} {u : Uses} {Q : Party} {l : Nat} {ls : List Nat} (hs : ls ⊆ b.cur.lanes)
    (hl : l ∉ b.cur.lanes) : (settledLanes b i u Q ls).lane l = Q.lane l := by
  show ((Q.mapLanes ls _).mapLanes b.cur.lanes _).lane l = _
  rw [Party.lane_mapLanes, if_neg hl, Party.lane_mapLanes, if_neg fun m => hl (hs m)]

/-- An issuing lane of a party whose word has settled. -/
theorem settledParty_lane {b : State} {i : Instr} {u : Uses} {Q : Party} {l : Nat} (hl : l ∈ b.cur.lanes) :
    (settledParty b i u Q).lane l
      = Lane.settle b.now u ((b.curParty.lane l).stall i) b.curParty (b.curParty.lane l) (Q.lane l) := by
  have outer : ∀ (R : Party) (ls : List Nat), l ∉ ls → (R.mapLanes ls fun _ x => { x with skipped := x.skipped + 1 }).lane l = R.lane l :=
    fun R ls e => by rw [Party.lane_mapLanes, if_neg e]
  unfold settledParty
  split
  · exact (outer _ _ (by simp [hl])).trans (settledLanes_lane _ hl)
  · exact settledLanes_lane _ hl

/-- Of another lane of the party nothing has changed but how often it was passed over. -/
theorem settledParty_idle {b : State} {i : Instr} {u : Uses} {Q : Party} {l : Nat} (hl : l ∉ b.cur.lanes) :
    { (settledParty b i u Q).lane l with skipped := (Q.lane l).skipped } = Q.lane l := by
  have outer : ∀ (R : Party) (ls : List Nat), R.lane l = Q.lane l →
      { (R.mapLanes ls fun _ x => { x with skipped := x.skipped + 1 }).lane l with skipped := (Q.lane l).skipped } = Q.lane l := by
    intro R ls e
    rw [Party.lane_mapLanes, e]
    split <;> rfl
  unfold settledParty
  split
  · exact outer _ _ (settledLanes_idle (List.Subset.refl _) hl)
  · rw [settledLanes_idle (List.nil_subset _) hl]

/-- Settling writes no uniform register. -/
theorem settledParty_sreg (b : State) (i : Instr) (u : Uses) (Q : Party) (n : Nat) : (settledParty b i u Q).sreg n = Q.sreg n := by
  unfold settledParty
  split <;> rfl

/-- The issuing party once a word that changed it has settled. -/
theorem State.curParty_settle {b c : State} (h : b.From c) (i : Instr) (u : Uses) (Q : Party)
    (hw : ∀ l ∈ b.cur.lanes, (Q.lane l).wait = .none ∧ (Q.lane l).units = 0) :
    ((c.setCurParty Q).settle i u b).curParty = settledParty b i u Q := by
  rw [State.settle_setCurParty h i u Q hw]
  show Team.party (State.team (State.setTeam c c.cur.team _) c.cur.team) c.cur.party = _
  rw [State.team_setTeam, if_pos rfl]
  show Team.party (Team.setParty _ _ _) _ = _
  rw [Team.party_setParty, if_pos rfl]

/-- A word that, from state c, changes only its lanes and uniform registers changes nothing else. -/
theorem kept_of_party {b c : State} (h : b.From c) (i : Instr) (u : Uses) (Q : Party)
    (hw : ∀ l ∈ b.cur.lanes, (Q.lane l).wait = .none ∧ (Q.lane l).units = 0)
    (hQ : { Q with lanes := b.curParty.lanes, s := b.curParty.s } = b.curParty)
    (hi : ∀ l, l ∉ b.cur.lanes → Q.lane l = b.curParty.lane l) :
    c.Kept ((c.setCurParty Q).settle i u b) := by
  have hp := State.curParty_settle h i u Q hw
  rw [State.settle_setCurParty h i u Q hw] at hp ⊢
  refine ⟨rfl, ?_, ?_, ?_, ?_, ?_⟩
  · intro j hj
    simp [State.setCurTeam, hj]
  · rw [State.curTeam_setCurTeam]
    unfold settledTeam
    split <;> rfl
  · intro k hk
    show Team.party (State.team (State.setTeam c c.cur.team _) c.cur.team) k = _
    rw [State.team_setTeam, if_pos rfl]
    show Team.party (Team.setParty _ _ _) k = _
    rw [Team.party_setParty, if_neg hk]
    unfold settledTeam
    split <;> rfl
  · rw [hp, h.party]
    have h2 := congrArg (fun P : Party => { P with lastIssue := b.curParty.lastIssue, peerBuf := b.curParty.peerBuf, refused := b.curParty.refused }) hQ
    unfold settledParty
    split <;> exact h2
  · intro l hl
    rw [h.cur] at hl
    rw [hp, h.party, ← hi l hl]
    exact settledParty_idle hl

end Sys2Proof.Machine
end

