-- ==== Sys2Proof/Laws/Memory.lean ====
section
/-! SUPPORT. The canonical form of near memory, far memory and the local windows, and that every operation that writes one of them
keeps it. -/

namespace Sys2Proof.Machine

open Sys2Proof

/-- Near memory, far memory and every local window are in canonical form: addresses strictly rising, and no entry that an unlisted
address reads as. -/
structure State.Canonical (s : State) : Prop where
  near : Memory.wf s.near
  far : FMap.wf {} s.far = true
  window : ∀ t, Memory.wf (s.team t).mem

/-- The state after reset is canonical. -/
theorem State.reset_canonical : State.reset.Canonical := ⟨rfl, rfl, fun _ => rfl⟩

/-- A state with the same memories is canonical. -/
theorem State.Canonical.congr {s t : State} (h : s.Canonical) (hn : t.near = s.near) (hf : t.far = s.far)
    (hw : ∀ j, (t.team j).mem = (s.team j).mem) : t.Canonical :=
  ⟨hn ▸ h.near, hf ▸ h.far, fun j => by rw [hw j]; exact h.window j⟩

/-- Writing a far byte keeps the canonical form. -/
theorem farPut_wf (zero : FMap Nat) (m : FMap FarByte) (tag a : Nat) (b : W8) (h : FMap.wf {} m = true) :
    FMap.wf {} (farPut zero m tag a b) = true := by
  unfold farPut
  split
  · exact FMap.wf_drop {} m a h
  · exact FMap.wf_set {} m a _ h

/-- Writing far bytes keeps the canonical form. -/
theorem farWrite_wf (zero : FMap Nat) (tag : Nat) (n : Nat) : ∀ (m : FMap FarByte) (a v : Nat), FMap.wf {} m = true →
    FMap.wf {} (farWrite zero m tag a n v) = true := by
  induction n with
  | zero => intro m a v h; exact h
  | succ n ih => intro m a v h; exact ih _ _ _ (farPut_wf zero m tag a _ h)

/-- Writing a list of far bytes keeps the canonical form. -/
theorem farPut_foldl_wf (zero : FMap Nat) (tag a : Nat) (bs : List (Nat × W8)) : ∀ (m : FMap FarByte), FMap.wf {} m = true →
    FMap.wf {} (bs.foldl (fun m e => farPut zero m tag (a + e.1) e.2) m) = true := by
  induction bs with
  | nil => intro m h; exact h
  | cons e t ih => intro m h; exact ih _ (farPut_wf zero m tag _ _ h)

/-- Mending units in error keeps the canonical form. -/
theorem State.mend_canonical {s : State} (h : s.Canonical) (p : Place) (n : Nat) : (s.mend p n).Canonical :=
  ⟨h.near, h.far, h.window⟩

/-- Writing at a place keeps the canonical form. -/
theorem State.writePlace_canonical {s : State} (h : s.Canonical) (p : Place) (n v : Nat) : (s.writePlace p n v).Canonical := by
  unfold State.writePlace
  cases p with
  | near a => exact ⟨Mem.wf_write _ _ _ _ h.near, h.far, h.window⟩
  | far a k => exact ⟨h.near, farWrite_wf _ _ _ _ _ _ h.far, h.window⟩
  | zeros => exact State.mend_canonical h _ _

theorem State.nearWrite_canonical {s : State} (h : s.Canonical) (a n v : Nat) : (s.nearWrite a n v).Canonical :=
  State.writePlace_canonical h _ _ _

/-- Giving a frame its bytes keeps the canonical form. -/
theorem State.setFrame_canonical {s : State} (h : s.Canonical) (p : Place) (bs : List (Nat × W8)) : (s.setFrame p bs).Canonical := by
  unfold State.setFrame
  cases p with
  | near a =>
    exact ⟨FMap.wf_foldl_set 0 (fun e : Nat × W8 => a + e.1) (fun e => e.2) bs _ (FMap.wf_clear 0 _ _ _ h.near), h.far, h.window⟩
  | far a k => exact ⟨h.near, farPut_foldl_wf _ _ _ bs _ (FMap.wf_clear ({} : FarByte) _ _ _ h.far), h.window⟩
  | zeros => exact State.mend_canonical h _ _

theorem State.putFrame_canonical {s : State} (h : s.Canonical) (npa : Nat) (f : Frame) : (s.putFrame npa f).Canonical :=
  State.nearWrite_canonical (State.nearWrite_canonical h _ _ _) _ _ _

/-- A team whose window is canonical may take another's place. -/
theorem State.setTeam_canonical {s : State} (h : s.Canonical) (t : Nat) (T : Team) (hT : Memory.wf T.mem) : (s.setTeam t T).Canonical := by
  refine ⟨h.near, h.far, fun j => ?_⟩
  simp only [State.team, State.setTeam, FMap.get_set]
  split
  · exact hT
  · exact h.window j

/-- Writing a local window keeps the canonical form. -/
theorem State.writeLocal_canonical {s : State} (h : s.Canonical) (t off n v : Nat) : (s.writeLocal t off n v).Canonical :=
  State.setTeam_canonical h t _ (Mem.wf_write _ _ _ _ (h.window t))

/-- Placing an element of a box keeps the canonical form. -/
theorem setLocalElem_wf (m : Mem) (a k i v : Nat) (h : Memory.wf m) : Memory.wf (setLocalElem m a k i v) := by
  exact Mem.wf_write _ _ _ _ h

/-- Landing a box row keeps the canonical form. -/
theorem Shape.landRow_wf (r : Shape) (m : Mem) (off stride row v : Nat) (h : Memory.wf m) : Memory.wf (r.landRow m off stride row v) := by
  unfold Shape.landRow
  split
  · generalize List.range r.box0 = cs
    induction cs generalizing m with
    | nil => exact h
    | cons c t ih => exact ih _ (setLocalElem_wf _ _ _ _ _ h)
  · exact Mem.wf_write _ _ _ _ h

/-- A program's fill of a frame keeps the canonical form. -/
theorem State.fillFrame_canonical {s : State} (h : s.Canonical) (p : Place) (bs : List (Nat × W8)) : (s.fillFrame p bs).Canonical := by
  unfold State.fillFrame
  have h0 := State.setFrame_canonical h p bs
  generalize s.setFrame p bs = t at h0
  generalize s.hiddenIn p = is
  induction is generalizing t with
  | nil => exact h0
  | cons i is ih => exact ih _ (State.writePlace_canonical h0 _ _ _)

/-- Opening a frame keeps the canonical form. -/
theorem State.openFrame_canonical {s t : State} (h : s.Canonical) (asid : BitVec 16) (npa step f : Nat)
    (ho : s.openFrame asid npa step = .ok (t, f)) : t.Canonical := by
  unfold State.openFrame at ho
  split at ho
  · cases ho
  · split at ho
    · cases ho
    · rename_i g _ _ dst _
      simp only at ho
      split at ho
      · cases ho
      · rename_i bs _
        simp only [Except.ok.injEq, Prod.mk.injEq] at ho
        obtain ⟨rfl, -⟩ := ho
        apply State.putFrame_canonical
        have h1 := State.fillFrame_canonical h dst bs
        generalize s.fillFrame dst bs = u at h1
        have h2 : (if (u.ringOwner npa).isNone then (u.nearWrite (npa + 56) 2 asid.toNat).nearWrite (npa + 58) 1 1 else u : State).Canonical := by
          split
          · exact State.nearWrite_canonical (State.nearWrite_canonical h1 _ _ _) _ _ _
          · exact h1
        generalize (if (u.ringOwner npa).isNone then _ else u : State) = w at h2
        split
        · exact h2
        · exact ⟨h2.near, h2.far, h2.window⟩

/-- What a resolved write comes to: an open frame as it stands, or one opened now. -/
theorem State.writeFrame_cases {s t : State} {asid : BitVec 16} {npa step f : Nat} (ho : s.writeFrame asid npa step = .ok (t, f)) :
    t = s ∨ s.openFrame asid npa step = .ok (t, f) := by
  unfold State.writeFrame at ho
  generalize s.openFrame asid npa step = o at ho ⊢
  repeat' split at ho
  all_goals first
    | exact .inr ho
    | exact .inl (congrArg Prod.fst (Except.ok.inj ho)).symm
    | simp only [reduceCtorEq] at ho

/-- Resolving the frame of a write keeps the canonical form. -/
theorem State.writeFrame_canonical {s t : State} (h : s.Canonical) (asid : BitVec 16) (npa step f : Nat)
    (ho : s.writeFrame asid npa step = .ok (t, f)) : t.Canonical := by
  rcases State.writeFrame_cases ho with rfl | ho
  · exact h
  · exact State.openFrame_canonical h asid npa step f ho

/-- A write of the device for a context keeps the canonical form. -/
theorem State.writeAs_canonical (fuel : Nat) : ∀ {s : State} (_ : s.Canonical) (slot va n v : Nat),
    (s.writeAs slot va n v fuel).1.Canonical := by
  induction fuel with
  | zero => intro s h slot va n v; exact h
  | succ fuel ih =>
    intro s h slot va n v
    unfold State.writeAs
    split
    · exact h
    · dsimp only
      apply ih
      split
      · split
        · exact h
        · exact State.writePlace_canonical h _ _ _
      · exact h

end Sys2Proof.Machine
end

