-- ==== Sys2Proof/Laws/Words.lean ====
section
/-! SUPPORT. The state that a word's effect starts from, and what a word that changes its lanes alone comes to. -/

namespace Sys2Proof.Machine

open Sys2Proof

/-! ### Registers of a lane -/

@[simp] theorem Lane.reg_setReg (x : Lane) (n r : Nat) (v : W32) : (x.setReg n v).reg r = if r = n then v else x.reg r := by
  unfold Lane.setReg Lane.reg
  by_cases hn : n < 120 <;> by_cases hr : r < 120 <;> simp [hn, hr]
  · intro h; omega
  · intro h; omega
  · congr 1; exact propext ⟨fun h => by omega, fun h => by omega⟩

@[simp] theorem Lane.setReg_c (x : Lane) (n : Nat) (v : W32) : (x.setReg n v).c = x.c := by unfold Lane.setReg; split <;> rfl
@[simp] theorem Lane.setReg_fflags (x : Lane) (n : Nat) (v : W32) : (x.setReg n v).fflags = x.fflags := by
  unfold Lane.setReg; split <;> rfl
@[simp] theorem Lane.flag_setReg (x : Lane) (n m : Nat) (v : W32) : (x.setReg n v).flag m = x.flag m := by simp [Lane.flag]
@[simp] theorem Lane.reg_setFlag (x : Lane) (n r : Nat) (b : Bool) : (x.setFlag n b).reg r = x.reg r := rfl
@[simp] theorem Lane.setFlag_fflags (x : Lane) (n : Nat) (b : Bool) : (x.setFlag n b).fflags = x.fflags := rfl
@[simp] theorem Lane.flag_setFlag (x : Lane) (n m : Nat) (b : Bool) (hm : m < 4) :
    (x.setFlag n b).flag m = if m = n then b else x.flag m := by
  unfold Lane.setFlag Lane.flag
  by_cases hn : n < 4
  · have : m = 0 ∨ m = 1 ∨ m = 2 ∨ m = 3 := by omega
    have : n = 0 ∨ n = 1 ∨ n = 2 ∨ n = 3 := by omega
    cases b <;> rcases ‹m = 0 ∨ _› with rfl | rfl | rfl | rfl <;> rcases ‹n = 0 ∨ _› with rfl | rfl | rfl | rfl <;> simp
  · have h1 : ¬ m = n := by omega
    have h2 : (1#4 <<< n) = 0#4 := by
      apply BitVec.eq_of_getLsbD_eq; intro i hi; simp; omega
    cases b
    · show (x.c &&& ~~~(1#4 <<< n)).getLsbD m = _
      rw [h2, if_neg h1, show ~~~(0#4) = BitVec.allOnes 4 from rfl, BitVec.and_allOnes]
    · simp [h1, h2, hm]

@[simp] theorem Lane.reg_raise (x : Lane) (f : BitVec 5) (r : Nat) : (x.raise f).reg r = x.reg r := rfl
@[simp] theorem Lane.flag_raise (x : Lane) (f : BitVec 5) (r : Nat) : (x.raise f).flag r = x.flag r := rfl
@[simp] theorem Lane.raise_fflags (x : Lane) (f : BitVec 5) : (x.raise f).fflags = x.fflags ||| f := rfl

/-- A lane changed in its registers, flags and sr.fflags alone. -/
def Lane.Same (x y : Lane) : Prop := { y with v := x.v, t := x.t, c := x.c, fflags := x.fflags } = x

theorem Lane.Same.refl (x : Lane) : x.Same x := rfl
theorem Lane.Same.trans {x y z : Lane} (h : x.Same y) (g : y.Same z) : x.Same z := by
  unfold Lane.Same at *
  have := congrArg (fun q : Lane => { q with v := x.v, t := x.t, c := x.c, fflags := x.fflags }) g
  exact this.trans h
theorem Lane.same_setReg (x : Lane) (n : Nat) (v : W32) : x.Same (x.setReg n v) := by
  unfold Lane.setReg Lane.Same; split <;> rfl
theorem Lane.same_setReg64 (x : Lane) (n : Nat) (v : W64) : x.Same (x.setReg64 n v) :=
  (x.same_setReg _ _).trans (Lane.same_setReg _ _ _)
theorem Lane.same_setGroup (x : Lane) (k : Nat) : ∀ (n v : Nat), x.Same (x.setGroup n k v) := by
  induction k generalizing x with
  | zero => intro n v; rfl
  | succ k ih => intro n v; exact (x.same_setReg _ _).trans (ih _ _ _)
theorem Lane.same_setFlag (x : Lane) (n : Nat) (b : Bool) : x.Same (x.setFlag n b) := rfl
theorem Lane.same_raise (x : Lane) (f : BitVec 5) : x.Same (x.raise f) := rfl
theorem Lane.Same.exited {x y : Lane} (h : x.Same y) : y.exited = x.exited := by
  unfold Lane.Same at h; have e := congrArg Lane.exited h; exact e

/-- What a write to one register holds. -/
theorem Lane.holds_one (x : Lane) (d : BitVec 7) (v : W32) : x.Holds (x.setReg d.toNat v) (.one d v) := by
  refine ⟨fun r => ?_, fun n _ => ?_, ?_⟩
  · by_cases h : r = d.toNat
    · simp [Write.reg, Write.one, h]
    · have : ¬ d.toNat = r := fun e => h e.symm
      simp [Write.reg, Write.one, h, this]
  · simp [Write.bit, Write.one]
  · simp [Write.one]

theorem Lane.holds_pair (x : Lane) (d : BitVec 7) (v : W64) : x.Holds (x.setReg64 d.toNat v) (.pair d v) := by
  refine ⟨fun r => ?_, fun n _ => ?_, ?_⟩
  · unfold Lane.setReg64
    by_cases h : r = d.toNat
    · have h2 : ¬ d.toNat = d.toNat + 1 := by omega
      simp [Write.reg, Write.pair, h]
      apply BitVec.eq_of_getLsbD_eq; intro i hi; simp [hi]
    · by_cases h2 : r = d.toNat + 1
      · simp [Write.reg, Write.pair, h2]
      · have h3 : ¬ d.toNat = r := fun e => h e.symm
        have h4 : ¬ d.toNat + 1 = r := fun e => h2 e.symm
        simp [Write.reg, Write.pair, h, h2, h3, h4]
  · simp [Write.bit, Write.pair, Lane.setReg64]
  · simp [Write.pair, Lane.setReg64]

theorem Lane.holds_flag (x : Lane) (n : Nat) (b : Bool) : x.Holds (x.setFlag n b) (.toFlag n b) := by
  refine ⟨fun r => ?_, fun m hm => ?_, ?_⟩
  · simp [Write.reg, Write.toFlag]
  · rw [Lane.flag_setFlag _ _ _ _ hm]
    by_cases h : m = n
    · simp [Write.bit, Write.toFlag, h]
    · have : ¬ n = m := fun e => h e.symm
      simp [Write.bit, Write.toFlag, h, this]
  · simp [Write.toFlag]

theorem Lane.Holds.raise {x y : Lane} {w : Write} (h : x.Holds y w) (h0 : w.raised = 0) (f : BitVec 5) :
    x.Holds (y.raise f) (w.raising f) := by
  refine ⟨h.regs, h.flags, ?_⟩
  have := h.raised
  rw [h0] at this
  simp [this, Write.raising]

/-! ### The state a word's effect starts from -/

theorem State.before_plain {s : State} {i : Instr} (h : systemRelease i = false) :
    s.before i = (s.looked i).mapLanes fun _ x => x.prepare i ((s.looked i).uses i) := by
  unfold State.before; simp [h]

theorem State.before_cur {s : State} {i : Instr} (h : systemRelease i = false) : (s.before i).cur = { s.cur with trapped := false } := by
  rw [State.before_plain h]; exact s.looked_cur i

theorem State.before_team {s : State} {i : Instr} (h : systemRelease i = false) :
    { (s.before i).curTeam with parties := s.curTeam.parties } = s.curTeam := by
  rw [State.before_plain h]
  unfold State.mapLanes
  rw [State.curTeam_setCurParty]
  exact s.looked_team i

theorem State.before_lane {s : State} {i : Instr} (h : systemRelease i = false) {l : Nat} (hl : l ∈ s.cur.lanes) :
    (s.before i).curParty.lane l = ((s.looked i).curParty.lane l).prepare i ((s.looked i).uses i) := by
  rw [State.before_plain h, State.curParty_mapLanes, Party.lane_mapLanes]
  have : l ∈ (s.looked i).cur.lanes := by rw [State.looked_cur]; exact hl
  rw [if_pos this]

theorem State.before_from {s : State} {i : Instr} (h : s.Ready i) (hs : systemRelease i = false) : (s.before i).From (s.before i) := by
  have hcur := State.before_cur (s := s) hs
  refine ⟨rfl, rfl, rfl, ?_, ?_, ?_⟩
  · have := congrArg Team.halt (State.before_team (s := s) hs)
    have e : (s.before i).curTeam.halt = s.curTeam.halt := this
    rw [e]; exact h.calm
  · rw [hcur]
    have := h.issuing
    intro e
    simp [State.issuing] at this e
    simp [e] at this
  · intro l hl
    rw [hcur] at hl
    rw [State.before_lane hs hl]
    obtain ⟨q, hq⟩ := s.looked_lane i l
    rw [hq]
    have := h.issuing
    simp only [State.issuing, Bool.and_eq_true, List.all_eq_true] at this
    simpa [Lane.prepare] using this.2 l hl

/-! ### Words that change their party alone -/

/-- From state c a word's lanes go each to its own place, changed in registers and flags alone, and its uniform registers to
what is said. -/
theorem done_of_party {b c : State} (h : b.From c) (i : Instr) (u : Uses) (Q : Party) (f : Nat → Lane → Lane) (pc : Nat → W64)
    (w : Nat → Write) (us : List (Nat × W64))
    (hQ : { Q with lanes := b.curParty.lanes, s := b.curParty.s } = b.curParty)
    (hl : ∀ l, Q.lane l = if l ∈ b.cur.lanes then (f l (b.curParty.lane l)).goTo (pc l) else b.curParty.lane l)
    (hu : ∀ n, Q.sreg n = uniformAfter us n (b.curParty.sreg n))
    (hf : ∀ (l : Nat) (x : Lane), x.Same (f l x))
    (hw : ∀ l ∈ b.cur.lanes, Lane.Holds (b.curParty.lane l) (f l (b.curParty.lane l)) (w l)) :
    c.Done ((c.setCurParty Q).settle i u b) i w us pc := by
  have hlane : ∀ l ∈ b.cur.lanes, Q.lane l = (f l (b.curParty.lane l)).goTo (pc l) := by
    intro l m; rw [hl, if_pos m]
  have hwait : ∀ l ∈ b.cur.lanes, (Q.lane l).wait = .none ∧ (Q.lane l).units = 0 := by
    intro l hl; rw [hlane l hl]; exact ⟨rfl, rfl⟩
  refine ⟨?_, ?_, ?_, ?_⟩
  · refine kept_of_party h i _ Q hwait hQ ?_
    intro l m; rw [hl, if_neg m]
  · intro n; rw [State.curParty_settle h i _ Q hwait, h.party, settledParty_sreg]; exact hu n
  · intro l m
    rw [h.cur] at m
    rw [State.curParty_settle h i _ Q hwait, settledParty_lane m, hlane l m, h.party]
    have hsame := hf l (b.curParty.lane l)
    refine ⟨?_, rfl, ⟨rfl, rfl, rfl⟩, rfl, ?_, rfl⟩
    · have := congrArg (fun q : Lane => { q with
        pc := (b.curParty.lane l).pc, wait := (b.curParty.lane l).wait, marked := (b.curParty.lane l).marked
        ready := (b.curParty.lane l).ready, pend := (b.curParty.lane l).pend, skipped := (b.curParty.lane l).skipped
        pass := (b.curParty.lane l).pass, lastPc := (b.curParty.lane l).lastPc, bad := (b.curParty.lane l).bad
        unit := (b.curParty.lane l).unit, units := (b.curParty.lane l).units, tiles := (b.curParty.lane l).tiles
        staleCount := (b.curParty.lane l).staleCount, staleSince := (b.curParty.lane l).staleSince }) hsame
      exact this
    · rw [h.now]; rfl
  · intro l m
    rw [h.cur] at m
    rw [State.curParty_settle h i _ Q hwait, settledParty_lane m, hlane l m, h.party]
    have := hw l m
    exact ⟨this.regs, this.flags, this.raised⟩

/-- A word whose lanes change in registers and flags alone writes what is said of each lane, and nothing else. -/
theorem wrote_eachLane {b : State} (h : b.From b) (i : Instr) (u : Uses) (f : Nat → Lane → Lane)
    (w : Nat → Write) (hf : ∀ (l : Nat) (x : Lane), x.Same (f l x))
    (hw : ∀ l ∈ b.cur.lanes, Lane.Holds (b.curParty.lane l) (f l (b.curParty.lane l)) (w l)) :
    b.Wrote ((b.eachLane f).settle i u b) i w := by
  refine done_of_party h i u (b.curParty.mapLanes b.cur.lanes fun l x => (f l x).next) f _ w [] rfl ?_ (fun _ => rfl) hf hw
  intro l
  rw [Party.lane_mapLanes]
  split
  · unfold Lane.next State.nextPc
    have hsame := hf l (b.curParty.lane l)
    rw [show (f l (b.curParty.lane l)).pc = (b.curParty.lane l).pc from by
      unfold Lane.Same at hsame; have e := congrArg Lane.pc hsame; exact e]
  · rfl

/-- A lane word of one register. -/
theorem gate_lane32 {s : State} {i : Instr} (h : s.Ready i) (hs : systemRelease i = false) (hr : returns i = false) (d : BitVec 7)
    (f : State → Nat → Lane → W32) (w : Nat → Write)
    (hw : ∀ l ∈ s.cur.lanes, w l = .one d (f (s.before i) l ((s.before i).curParty.lane l))) :
    ∃ t, gate i s (fun s => s.lane32 d (f s)) = .next t ∧ (s.before i).Wrote t i w := by
  refine ⟨_, by rw [gate_ready h, hr], ?_⟩
  refine wrote_eachLane (State.before_from h hs) i _ (fun l x => x.setReg d.toNat (f (s.before i) l x)) w (fun l x => x.same_setReg _ _) ?_
  intro l hl
  rw [hw l (by rw [State.before_cur hs] at hl; exact hl)]; exact Lane.holds_one _ _ _

/-- A lane word of one pair. -/
theorem gate_lane64 {s : State} {i : Instr} (h : s.Ready i) (hs : systemRelease i = false) (hr : returns i = false) (d : BitVec 7)
    (f : State → Nat → Lane → W64) (w : Nat → Write)
    (hw : ∀ l ∈ s.cur.lanes, w l = .pair d (f (s.before i) l ((s.before i).curParty.lane l))) :
    ∃ t, gate i s (fun s => s.lane64 d (f s)) = .next t ∧ (s.before i).Wrote t i w := by
  refine ⟨_, by rw [gate_ready h, hr], ?_⟩
  refine wrote_eachLane (State.before_from h hs) i _ (fun l x => x.setReg64 d.toNat (f (s.before i) l x)) w (fun l x => x.same_setReg64 _ _) ?_
  intro l hl
  rw [hw l (by rw [State.before_cur hs] at hl; exact hl)]; exact Lane.holds_pair _ _ _

/-- A lane word of one flag. -/
theorem gate_laneFlag {s : State} {i : Instr} (h : s.Ready i) (hs : systemRelease i = false) (hr : returns i = false) (n : Nat)
    (f : State → Nat → Lane → Bool) (w : Nat → Write)
    (hw : ∀ l ∈ s.cur.lanes, w l = .toFlag n (f (s.before i) l ((s.before i).curParty.lane l))) :
    ∃ t, gate i s (fun s => s.laneFlag n (f s)) = .next t ∧ (s.before i).Wrote t i w := by
  refine ⟨_, by rw [gate_ready h, hr], ?_⟩
  refine wrote_eachLane (State.before_from h hs) i _ (fun l x => x.setFlag n (f (s.before i) l x)) w (fun l x => x.same_setFlag _ _) ?_
  intro l hl
  rw [hw l (by rw [State.before_cur hs] at hl; exact hl)]; exact Lane.holds_flag _ _ _

/-- A lane word of any registers and flags. -/
theorem gate_eachLane {s : State} {i : Instr} (h : s.Ready i) (hs : systemRelease i = false) (hr : returns i = false)
    (f : State → Nat → Lane → Lane) (w : Nat → Write) (hf : ∀ (b : State) (l : Nat) (x : Lane), x.Same (f b l x))
    (hw : ∀ l ∈ s.cur.lanes,
      Lane.Holds ((s.before i).curParty.lane l) (f (s.before i) l ((s.before i).curParty.lane l)) (w l)) :
    ∃ t, gate i s (fun s => s.eachLane (f s)) = .next t ∧ (s.before i).Wrote t i w := by
  refine ⟨_, by rw [gate_ready h, hr], ?_⟩
  refine wrote_eachLane (State.before_from h hs) i _ (f (s.before i)) w (hf _) ?_
  intro l hl
  exact hw l (by rw [State.before_cur hs] at hl; exact hl)

/-- From state c, a word that writes one uniform register and goes on. -/
theorem done_putS {b c : State} (h : b.From c) (i : Instr) (u : Uses) (d : BitVec 6) (x : W64) :
    c.WroteS ((c.putS d x).settle i u b) i d x := by
  have e : c.putS d x = c.setCurParty (((b.curParty.setSreg d.toNat x)).mapLanes b.cur.lanes fun _ l => l.next) := by
    unfold State.putS State.advance State.mapLanes State.setS
    rw [State.curParty_setCurParty, State.setCurParty_setCurParty, State.setCurParty_cur, h.cur, h.party]
  rw [e]
  have hn : c.nextPc = b.nextPc := by funext l; unfold State.nextPc; rw [h.party]
  unfold State.WroteS
  rw [hn]
  refine done_of_party h i u _ (fun _ x => x) _ _ _ rfl ?_ ?_ (fun _ x => rfl) ?_
  · intro l; rw [Party.lane_mapLanes]; rfl
  · intro n
    show FMap.get 0 (FMap.set 0 b.curParty.s d.toNat x) n = _
    rw [FMap.get_set]
    by_cases hd : n = d.toNat
    · simp [uniformAfter, hd]
    · have : ¬ d.toNat = n := fun e => hd e.symm
      simp [uniformAfter, hd, this, Party.sreg]
  · intro l _; exact ⟨fun _ => rfl, fun _ _ => rfl, by simp⟩

/-- From state c, a word whose lanes go on. -/
theorem done_advance {b c : State} (h : b.From c) (i : Instr) (u : Uses) : c.Passed (c.advance.settle i u b) i := by
  have e : c.advance = c.setCurParty (b.curParty.mapLanes b.cur.lanes fun _ l => l.next) := by
    unfold State.advance State.mapLanes; rw [h.cur, h.party]
  rw [e]
  have hn : c.nextPc = b.nextPc := by funext l; unfold State.nextPc; rw [h.party]
  unfold State.Passed
  rw [hn]
  refine done_of_party h i u _ (fun _ x => x) _ _ _ rfl ?_ (fun _ => rfl) (fun _ x => rfl) ?_
  · intro l; rw [Party.lane_mapLanes]; rfl
  · intro l _; exact ⟨fun _ => rfl, fun _ _ => rfl, by simp⟩

/-- From state c, a word whose lanes go to an address. -/
theorem done_jump {b c : State} (h : b.From c) (i : Instr) (u : Uses) (a : W64) :
    c.Done ((c.jump a).settle i u b) i (fun _ => {}) [] fun _ => a := by
  have e : c.jump a = c.setCurParty (b.curParty.mapLanes b.cur.lanes fun _ l => l.goTo a) := by
    unfold State.jump State.mapLanes; rw [h.cur, h.party]
  rw [e]
  refine done_of_party h i u _ (fun _ x => x) _ _ _ rfl ?_ (fun _ => rfl) (fun _ x => rfl) ?_
  · intro l; rw [Party.lane_mapLanes]
  · intro l _; exact ⟨fun _ => rfl, fun _ _ => rfl, by simp⟩

/-- A word that writes one uniform register. -/
theorem gate_putS {s : State} {i : Instr} (h : s.Ready i) (hs : systemRelease i = false) (hr : returns i = false) (d : BitVec 6)
    (f : State → W64) : ∃ t, gate i s (fun s => s.putS d (f s)) = .next t ∧ (s.before i).WroteS t i d (f (s.before i)) := by
  refine ⟨_, by rw [gate_ready h, hr], ?_⟩
  exact done_putS (State.before_from h hs) i _ d _

end Sys2Proof.Machine
end

