-- ==== Sys2Proof/Tests/Slice0.lean ====
section
/-! SUPPORT. Tests of single words and events on small states, ill-formed terms that the check refuses, and for every statement with
hypotheses a state and operands that meet them together. Expected values are worked out by hand from the rules cited. -/

namespace Sys2Proof.Tests

open Sys2Proof Sys2Proof.Machine

set_option Elab.async false

/-! ### Decoding: every constructor of a word, its fields numbered from 1 -/

/-- Each listed word decodes to the instruction beside it. -/
def agrees (ts : List (W32 × Instr)) : Bool := ts.all fun e => decode e.1 == .ok e.2

/-- The words of integer lane words (majors 0x00 to 0x0F of R30), from the encodings of spec/opcode_table.json. -/
theorem test_decode_lane_integer : agrees [
    (0x00041031#32, .add 1 2 3 0 1), (0x02041031#32, .sub 1 2 3 0 1), (0x04041031#32, .mul 1 2 3 0 1),
    (0x06041031#32, .mad 1 2 3 0 1), (0x08041030#32, .and 1 2 3 0), (0x08041034#32, .or 1 2 3 0), (0x08041038#32, .xor 1 2 3 0),
    (0x0804103C#32, .andn 1 2 3 0), (0x0A041030#32, .shl 1 2 3 0), (0x0A041034#32, .shr 1 2 3 0), (0x0A041038#32, .sar 1 2 3 0),
    (0x0A04103C#32, .rot 1 2 3 0), (0x0C041030#32, .min 1 2 3 0), (0x0C041034#32, .max 1 2 3 0), (0x0E981031#32, .cmp 38 2 3 0 1),
    (0x10041031#32, .sel 1 2 3 0 1), (0x12041003#32, .popc 1 2 3), (0x12041007#32, .clz 1 2 3), (0x1204100B#32, .brev 1 2 3),
    (0x1204103C#32, .bfe 1 2 3 0), (0x14041003#32, .mov 1 2 3), (0x14040006#32, .movc 1 2), (0x1604100C#32, .addi 1 2 3 0),
    (0x1804100C#32, .andi 1 2 3 0), (0x1A04100C#32, .shli 1 2 3 0), (0x1A04120C#32, .shri 1 2 3 0),
    (0x1A04140C#32, .sari 1 2 3 0), (0x1C04000B#32, .li 1 2 3), (0x1E04000B#32, .lih 1 2 3)
  ] = true := by decide +kernel

/-- The words of floating lane words (majors 0x10 to 0x1F), from the encodings of spec/opcode_table.json. -/
theorem test_decode_lane_float : agrees [
    (0x20041031#32, .fadd 1 2 3 0 1), (0x22041031#32, .fsub 1 2 3 0 1), (0x24041031#32, .fmul 1 2 3 0 1),
    (0x26041031#32, .ffma 1 2 3 0 1), (0x28041031#32, .fmin 1 2 3 0 1), (0x2A041031#32, .fmax 1 2 3 0 1),
    (0x2C981031#32, .fcmp 38 2 3 0 1), (0x2E041039#32, .fsgn 1 2 3 2 1), (0x30041036#32, .cvtF 1 2 3 0 1 2),
    (0x32041031#32, .cvtFi 1 2 3 0 1), (0x34041031#32, .cvtIf 1 2 3 0 1), (0x3604100C#32, .fclass 1 2 3 0),
    (0x38041010#32, .rcp 1 2 1 0), (0x38041014#32, .rsqrt 1 2 1 0), (0x38041018#32, .sqrt 1 2 1 0),
    (0x3A041010#32, .exp2 1 2 1 0), (0x3A041014#32, .log2 1 2 1 0), (0x3C041003#32, .sin 1 2 3), (0x3C041007#32, .cos 1 2 3),
    (0x3E041003#32, .tanh 1 2 3), (0x3E041007#32, .lgst 1 2 3)
  ] = true := by decide +kernel

/-- The words of cross-lane and control words (majors 0x20 to 0x2D), from the encodings of spec/opcode_table.json. -/
theorem test_decode_lane_cross_control : agrees [
    (0x40041031#32, .shfl 1 2 3 0 1), (0x42040023#32, .voteAny 1 2 3), (0x42040027#32, .voteAll 1 2 3),
    (0x4204002B#32, .voteBallot 1 2 3), (0x4404100C#32, .scan 1 2 3 0), (0x46041004#32, .matchLanes 1 2 1 0),
    (0x48040002#32, .elect 1 2), (0x4A04100C#32, .reds 1 2 3 0), (0x4C041031#32, .redsAf 1 2 3 0 1),
    (0x4E041021#32, .redsInt 1 2 2 0 1), (0x5040000B#32, .bra 1 2 3), (0x52000802#32, .brx 1 2), (0x54000006#32, .lpad 1 2),
    (0x56000006#32, .call 1 2), (0x56400001#32, .ret 1), (0x58000006#32, .reconv 1 2), (0x5A000001#32, .exit 1)
  ] = true := by decide +kernel

/-- The words of lane memory words and the words behind them (majors 0x2E to 0x3D), from the encodings of spec/opcode_table.json. -/
theorem test_decode_lane_memory : agrees [
    (0x5C041392#32, .ldB 1 2 3 4 4 2), (0x5E041392#32, .ldH 1 2 3 4 4 2), (0x60041392#32, .ldW 1 2 3 4 4 2),
    (0x62041392#32, .ldD 1 2 3 4 4 2), (0x64041392#32, .ldQ 1 2 3 4 4 2), (0x66041392#32, .stB 1 2 3 4 4 2),
    (0x68041392#32, .stH 1 2 3 4 4 2), (0x6A041392#32, .stW 1 2 3 4 4 2), (0x6C041392#32, .stD 1 2 3 4 4 2),
    (0x6E041392#32, .stQ 1 2 3 4 4 2), (0x70041386#32, .ldv 1 2 3 4 1 2), (0x7004138E#32, .ldvTag 1 2 3 4 1 2),
    (0x7204138E#32, .atom 1 2 3 4 3 2), (0x7404138A#32, .red 1 2 3 4 2 2), (0x76041030#32, .qopPop 1 2 3 0),
    (0x76041034#32, .qopPush 1 2 3 0), (0x78041031#32, .rand 1 2 3 0 1), (0x7B001096#32, .tcon 64 2 1 1 1 2)
  ] = true := by decide +kernel

/-- The words of uniform arithmetic and control words (majors 0x00 to 0x0F of R31), from the encodings of spec/opcode_table.json. -/
theorem test_decode_uniform : agrees [
    (0x80084180#32, .sadd 1 2 3 0), (0x82084180#32, .ssub 1 2 3 0), (0x84084181#32, .smul 1 2 3 0 1),
    (0x86084180#32, .sand 1 2 3 0), (0x86084184#32, .sor 1 2 3 0), (0x86084188#32, .sxor 1 2 3 0),
    (0x8608418C#32, .sandn 1 2 3 0), (0x88084180#32, .sshl 1 2 3 0), (0x88084184#32, .sshr 1 2 3 0),
    (0x88084188#32, .ssar 1 2 3 0), (0x8A084180#32, .smin 1 2 3 0), (0x8A084184#32, .smax 1 2 3 0),
    (0x8C084186#32, .scmp 1 2 3 0 1 2), (0x8E084186#32, .ssel 1 2 3 0 1 2), (0x9008400C#32, .saddi 1 2 3 0),
    (0x9208000B#32, .sli 1 2 3), (0x9408400C#32, .slik 1 2 3 0), (0x9608400C#32, .sld 1 2 3 0), (0x9808400C#32, .sst 1 2 3 0),
    (0x9AA0000B#32, .sbr 5 2 3), (0x9C08000B#32, .sloop 1 2 3), (0x9E002002#32, .sjmp 1 2)
  ] = true := by decide +kernel

/-- The words of clauses, special registers, matrix and tile words (majors 0x10 to 0x1F), from the encodings of spec/opcode_table.json. -/
theorem test_decode_matrix : agrees [
    (0xA0100002#32, .clause 1 2), (0xA2048D16#32, .clend 1 2 3 4 5 2), (0xA408000B#32, .mfsrUniform 1 2 3),
    (0xA408100C#32, .mfsrLane 1 0 3 0), (0xA608000B#32, .mtsrUniform 1 2 3), (0xA608100C#32, .mtsrLane 1 0 3 0),
    (0xA808418E#32, .wload 1 2 3 1 1 2), (0xAA000001#32, .wswap 1), (0xAC084180#32, .mma 1 2 3 0), (0xAE084180#32, .mmac 1 2 3 0),
    (0xB0084003#32, .accAlloc 1 2 3), (0xB2084003#32, .accFree 1 2 3), (0xB4084181#32, .accRd 1 2 3 0 1),
    (0xB6084180#32, .accAnc 1 2 3 0), (0xB8084004#32, .accFlg 1 2 1 0), (0xBA084003#32, .tshape 1 2 3),
    (0xBC084180#32, .tld 1 2 3 0), (0xBE084180#32, .tst 1 2 3 0)
  ] = true := by decide +kernel

/-- The words of barriers, engines and tasks (majors 0x20 to 0x2F), from the encodings of spec/opcode_table.json. -/
theorem test_decode_sync : agrees [
    (0xC008010C#32, .barInit 1 2 3 0), (0xC208000B#32, .barArr 1 2 3), (0xC408000B#32, .barWait 1 2 3),
    (0xC608000B#32, .barAw 1 2 3), (0xC8084191#32, .barTry 1 2 3 4 1), (0xCA00001B#32, .fence 1 2 3), (0xCC000001#32, .ifence 1),
    (0xCE002103#32, .icinv 1 2 3), (0xD0002109#32, .copy 1 2 1 0 1), (0xD2002104#32, .copyt 1 2 1 0),
    (0xD4084003#32, .taskSub 1 2 3), (0xD6002103#32, .taskSigAdd 1 2 3), (0xD6002107#32, .taskSigSet 1 2 3),
    (0xD608400B#32, .taskSigRd 1 2 3), (0xD8002002#32, .taskWait 1 2), (0xD8002006#32, .taskWaitTake 1 2),
    (0xDA084003#32, .taskTry 1 2 3), (0xDA084007#32, .taskTryTake 1 2 3), (0xDC084180#32, .launch 1 2 3 0),
    (0xDE084180#32, .replay 1 2 3 0)
  ] = true := by decide +kernel

/-- The words of steps, collectives, patterns and system words (majors 0x30 to 0x3F), from the encodings of spec/opcode_table.json. -/
theorem test_decode_system : agrees [
    (0xE0002002#32, .stepEnter 1 2), (0xE2002002#32, .stepPub 1 2), (0xE4002002#32, .verOpen 1 2),
    (0xE6084003#32, .ckptFreeze 1 2 3), (0xE6084007#32, .ckptStat 1 2 3), (0xE8084003#32, .collOpen 1 2 3),
    (0xEA002103#32, .collPut 1 2 3), (0xEC084003#32, .collWait 1 2 3), (0xEE084003#32, .collStat 1 2 3),
    (0xF0084008#32, .tideRd 1 2 2 0), (0xF2002103#32, .gauge 1 2 3), (0xF4084180#32, .patLd 1 2 3 0),
    (0xF6080002#32, .patNext 1 2), (0xF8002002#32, .patDone 1 2), (0xFA084003#32, .stashPut 1 2 3),
    (0xFA084007#32, .stashGet 1 2 3), (0xFA00200A#32, .stashFree 1 2), (0xFC084003#32, .trap 1 2 3), (0xFC000005#32, .eret 1),
    (0xFC08400B#32, .brk 1 2 3), (0xFC00000D#32, .halt 1), (0xFE084180#32, .map 1 2 3 0), (0xFE002107#32, .unmap 1 2 3),
    (0xFE00210B#32, .tlbinv 1 2 3), (0xFE08400F#32, .fqPop 1 2 3), (0xFE002113#32, .resume 1 2 3),
    (0xFE002117#32, .ctxSave 1 2 3), (0xFE00211B#32, .ctxRest 1 2 3)
  ] = true := by decide +kernel

/-- Reserved values and illegal words are refused by name (R16, R18, R30). -/
theorem test_decode_refuses :
    decode 0x00000000#32 = .error .illegal ∧ decode 0xFFFFFFFF#32 = .error .illegal
    ∧ decode 0b0_111111_0000000_0000000_0000000_00_00#32 = .error .unassigned
    ∧ decode 0b0_001010_0000001_0000010_0000000_01_00#32 = .error .reserved
    ∧ decodeTableWord 32 0x00041031 = some (.add 1 2 3 0 1) ∧ decodeTableWord 32 0 = none := by decide +kernel

/-! ### Ill-formed terms, one for each check -/

/-- Terms with a reserved value, which `wellFormed` refuses (R16, R20, R56, R61, R67, R85, R98, R103, R105, R107, R114, R116). -/
theorem test_illFormed_lane :
    ([.add 0 0 0 0 0, .cmp 0b0011000 1 2 0 0, .cmp 0b1100000 1 2 0 0, .fcmp 0b1100000 1 2 0 0, .fsgn 1 2 3 3 0, .cvtF 1 2 0b1010001 0 0 0
      , .cvtF 1 2 0b0000101 0 0 0, .cvtF 1 2 0b0000001 1 0 0, .cvtFi 1 2 0b1100000 0 0, .cvtFi 1 2 0b0000001 1 0, .cvtIf 1 2 0b1010000 0 0
      , .cvtIf 1 2 0b0000100 1 0, .redsAf 1 2 3 3 0, .redsInt 1 2 3 0 0, .ldB 1 2 3 7 0 0, .ldH 1 2 3 0 2 0, .ldW 1 2 3 0 3 0, .ldD 1 2 3 0 5 0
      , .ldQ 1 2 3 7 0 0, .stB 1 2 3 0 1 0, .stH 1 2 3 0 3 0, .stW 1 2 3 7 0 0, .stD 1 2 3 0 5 0, .stQ 1 2 3 0 6 0, .ldv 1 2 3 7 0 0
      , .ldvTag 1 2 3 7 0 0, .atom 1 2 3 0 4 0, .red 1 2 3 0 1 0, .rand 8 10 3 1 0, .tcon 64 2 1 2 1 0, .tcon 64 2 1 1 3 0, .tcon 0 2 3 1 1 0
      , .tcon 16 2 2 1 1 0] : List Instr).all (fun i => !wellFormed i) = true := by decide +kernel

/-- The same of the uniform words (R121 to R123, R126, R132, R143, R162, R165, R180). -/
theorem test_illFormed_uniform :
    ([.smul 1 2 3 3 0, .scmp 0b011000 2 3 0 0 0, .scmp 1 2 3 0 3 0, .scmp 1 2 3 2 0 0, .ssel 1 2 3 3 0 0, .slik 1 54 3 0, .sbr 1 2 0
      , .mfsrUniform 1 16 0, .mfsrLane 1 0 16 0, .mtsrUniform 1 16 0, .mtsrLane 1 0 16 0, .wload 1 2 0 0 0 0, .wload 8 2 0 1 0 0
      , .barInit 1 2 6 0, .barArr 1 0 0, .barWait 16 3 0, .barAw 1 1 0, .barTry 1 0 2 7 0, .fence 7 0 0, .fence 0 3 0, .tideRd 1 2 3 0]
      : List Instr).all (fun i => !wellFormed i) = true := by decide +kernel

/-! ### States -/

/-- A kernel's header for the tests: one strand of 64 lanes with 120 registers, 4 KiB of local memory, 8 barriers, 4 tiles. -/
def hdr0 : Header :=
  { width := 64, vregs := 120, strands := 1, barriers := 8, localBytes := 4096, acctiles := 4, stack := 4096, seq := true }

/-- A party with lane 0 alone, at supervisor level. -/
def party0 (seq : Bool) (x : Lane) : Party := { seq := seq, lanes := [(0, x)], priv := true, stacklim := 4096 }

/-- Lane 0 at address 0x10000. -/
def lane0 : Lane := { pc := 0x10000, exited := false }

/-- Party k with party record p of a team that issues for the listed lanes, its context in slot 0 with the local window at 1 GiB and
counters and queues of its own. -/
def stand (k : Nat) (p : Party) (ls : List Nat) : State :=
  { (State.reset.setCtx 0 { ctxAtWord with cgrant := 0x10000, qgrant := 0x100 }).setTeam 0
      { live := true, resident := true, hdr := hdr0, parties := [(k, p)] } with
    cur := { team := 0, party := k, lanes := ls } }

/-- A strand whose lane 0 issues. -/
def strand (x : Lane) : State := stand 0 (party0 false x) [0]
/-- A sequencer context that issues. -/
def sequencer (x : Lane) : State := stand 64 (party0 true x) [0]
/-- A strand whose uniform registers hold the listed values. -/
def withS (us : FMap W64) : State := stand 0 { party0 false lane0 with s := us } [0]
/-- The same with the page tables of the placed word, so that VA a below 1 GiB is NPA a. -/
def mapped (s : State) : State := { s with near := (State.reset.placeWord 0).near }

/-- `State.Ready` as a computation. -/
def readyB (s : State) (i : Instr) : Bool :=
  s.issuing && s.cur.lanes.all (fun l => (s.breakAt l).isNone) && ((s.looked i).wordDetail i ((s.looked i).uses i)).isNone
    && s.cur.lanes.all (fun l => ((s.looked i).laneCause i ((s.looked i).uses i) l).isNone)
    && ((s.looked i).owedExports ((s.looked i).uses i)).isEmpty && s.curTeam.halt.calm && !s.dbg.trcStall
    && (!systemRelease i || ((s.before i).curParty.lane (s.before i).firstLane).wait != .release)

theorem ready_of {s : State} {i : Instr} (h : readyB s i = true) : s.Ready i := by
  simp only [readyB, Bool.and_eq_true, List.all_eq_true, Option.isNone_iff_eq_none, Bool.not_eq_true', Bool.or_eq_true, bne_iff_ne,
    List.isEmpty_iff] at h
  obtain ⟨⟨⟨⟨⟨⟨⟨h1, h2⟩, h3⟩, h4⟩, h8⟩, h5⟩, h6⟩, h7⟩ := h
  refine ⟨h1, h2, h3, h4, h8, h5, h6, fun hs => h7.resolve_left fun h => ?_⟩
  rw [hs] at h
  cases h

/-- `State.Looks` as a computation. -/
def looksB (s : State) : Bool :=
  s.issuing && s.cur.lanes.all (fun l => (s.breakAt l).isNone) && s.curTeam.halt == .running && !s.dbg.trcStall

theorem looks_of {s : State} (h : looksB s = true) : s.Looks := by
  simp only [looksB, Bool.and_eq_true, List.all_eq_true, Option.isNone_iff_eq_none, Bool.not_eq_true', beq_iff_eq] at h
  obtain ⟨⟨⟨h1, h2⟩, h3⟩, h4⟩ := h
  exact ⟨h1, h2, h3, h4⟩

/-- `State.Met` as a computation. -/
def metB (b : State) : Bool :=
  decide (FMap.wf {} b.curParty.lanes = true) && b.cur.lanes.all (fun l => (b.curParty.lane l).wait == .none)
    && b.curParty.active.all (fun l => b.cur.lanes.contains l
      || ((b.curParty.lane l).wait.gathers && (b.curParty.lane l).wait.key == none))
    && b.curParty.active.all fun l => (b.curParty.lane l).pc == (b.curParty.lane (b.curParty.active.head?.getD 0)).pc

theorem met_of {b : State} (h : metB b = true) : b.Met := by
  simp only [metB, Bool.and_eq_true, List.all_eq_true, decide_eq_true_eq, beq_iff_eq, Bool.or_eq_true, List.contains_iff_mem] at h
  obtain ⟨⟨⟨h1, h2⟩, h3⟩, h4⟩ := h
  exact ⟨h1, h2, fun l hl hn => (h3 l hl).resolve_left hn, h4⟩

/-! ### Witnesses: a state and operands that meet a statement's hypotheses together -/

/-- The integer lane words. -/
def laneIntegers : List Instr :=
  [.add 1 2 3 0 0, .sub 1 2 3 3 1, .mul 1 2 3 2 2, .mad 4 2 6 1 3, .and 1 2 3 0, .or 1 2 3 0, .xor 1 2 3 0, .andn 1 2 3 0, .shl 1 2 3 0
    , .shr 1 2 3 0, .sar 1 2 3 0, .rot 1 2 3 0, .min 1 2 3 0, .max 1 2 3 0, .cmp 4 2 3 0 0, .sel 1 2 3 0 0, .popc 1 2 0, .clz 1 2 0
    , .brev 1 2 0, .bfe 1 2 3 0, .mov 1 2 0, .movc 1 0, .addi 1 2 (-1) 0, .andi 1 2 (-1) 0, .shli 1 2 31 0, .shri 1 2 31 0, .sari 1 2 31 0
    , .li 1 0x8000 0, .lih 1 0x8000 0]

/-- The floating lane words. -/
def laneFloats : List Instr :=
  [.fadd 1 2 3 0 0, .fsub 2 4 6 1 0, .fmul 1 2 3 2 0, .ffma 1 2 3 3 0, .fmin 1 2 3 0 0, .fmax 1 2 3 0 0, .fcmp 4 2 3 0 0, .fsgn 1 2 3 2 0
    , .cvtF 2 4 0b0000100 0 0 0, .cvtFi 1 2 0 0 0, .cvtIf 1 2 0 0 0, .fclass 1 2 0 0, .rcp 1 2 0 0, .rsqrt 1 2 0 0, .sqrt 2 4 1 0
    , .exp2 1 2 0 0, .log2 1 2 0 0, .sin 1 2 0, .cos 1 2 0, .tanh 1 2 0, .lgst 1 2 0]

/-- A word whose lane effect is its own result: of its family, and ready. -/
theorem wit_LaneIntegerResults : (laneIntegers.all fun i => laneInteger i && readyB (strand lane0) i) = true := by decide +kernel
theorem wit_LaneFloatResults : (laneFloats.all fun i => laneFloating i && readyB (strand lane0) i) = true := by decide +kernel

/-- Patterns of each kind that the operations tell apart: NaNs, infinities, zeros, numbers below and above one another, a power of two. -/
theorem wit_LaneFloatResults_values :
    F32.read 0x7FC00000 = .nan false ∧ F32.read 0x7F800001 = .nan true ∧ F32.read 0x7F800000 = .inf false ∧ F64.read 0xFFF0000000000000 = .inf true
    ∧ F32.read 0x80000000 = .num true 0 (-149) ∧ F32.read 0x40800000 = .num false (2 ^ 23 : Nat) (-21) ∧ F16.read 0xC200 = .num true 1536 (-9)
    ∧ FVal.lt (F16.read 0xC200) (F16.read 0x3C00) = true ∧ F32.qmin ≤ 4 ∧ (2 : Nat) ^ 23 = 4 * 2 ^ 21
    ∧ F32.read 0x43000000 = .num false (2 ^ 23 : Nat) (-16) ∧ 128 * 2 ^ 16 ≤ (2 : Nat) ^ 23 := by decide +kernel

/-- A magnitude that is exact and one that is not, the parts of a reciprocal, and an enclosure. -/
theorem wit_FloatRounding : Mag.Has { n := 3, e := 0 } (3 * 2 ^ 149) (-149) ∧ Mag.Has { n := 2 ^ 24, e := 0, more := true } (2 ^ 173 + 1) (-149)
    ∧ F32.read 0x40400000 = .num false 0xC00000 (-22) ∧ 2 ^ (F32.F + 1) ≤ 2 ^ 24
    ∧ (2 ^ 24 + 1) * 2 ^ 149 ≤ 2 ^ 24 * 2 ^ 149 + 2 ^ (max ((Nat.log2 (2 ^ 24) : Int) + 0 - 23) (-149) + 149).toNat := by
  unfold Mag.Has
  decide +kernel

/-- `mfsr` to lane registers, `rand` and `scmp`. -/
theorem wit_LaneSpecialResults : (([.mfsrLane 1 0 0 0, .rand 4 8 12 1 0, .scmp 4 1 2 0 0 0] : List Instr).all fun i =>
    readyB (strand lane0) i && (laneSpecialWrite ((strand lane0).before i) 0 i).isSome) = true := by decide +kernel

/-- Cross-lane words of a strand of one lane, which has met when that lane issues. -/
def crossWords : List Instr :=
  [.shfl 1 2 3 0 0, .voteAny 0 1 0, .voteAll 0 1 0, .voteBallot 2 1 0, .scan 1 2 0 0, .matchLanes 2 4 0 0, .elect 0 0, .reds 1 2 0 0
    , .redsAf 2 4 6 0 0, .redsInt 1 2 0 0 0]
theorem wit_CrossLaneResults : (crossWords.all fun i =>
    crossLaneWord i && readyB (strand lane0) i && metB ((strand lane0).before i)) = true := by decide +kernel

/-- While lane 1 runs elsewhere, lane 0 waits at a cross-lane word, at `tcon` and at `reconv` (the clauses differ in the word alone). -/
def apart : State := stand 0 { party0 false lane0 with lanes := [(0, lane0), (1, { lane0 with pc := 0x20000 })] } [0]
theorem wit_GatheringWaits : ([.shfl 1 2 3 0 0, .elect 0 0, .tcon 0 16 1 0 0 0, .reconv 7 0] : List Instr).all (fun i =>
    let b := apart.before i
    readyB apart i && FMap.wf {} b.curParty.lanes && b.curParty.active.contains 1 && !apart.cur.lanes.contains 1
      && !(b.curParty.lane 1).wait.gathers) = true := by decide +kernel

/-- Lane 5 comes last to an `elect`: lane 0 is the lowest. -/
def met3 (w : Wait) : State := stand 0 { party0 false lane0 with
  lanes := [(0, { lane0 with wait := w }), (1, { lane0 with wait := w }), (5, lane0)] } [5]
/-- Lanes 0 and 1 wait at a `reconv` of key 7 when lane 5 comes to another word: every lane waits, and nothing can go on. -/
theorem wit_GatheringWaits_mismatch : ([(.elect 0 0, .crossLane), (.reconv 8 1, .reconv 8 1)] : List (Instr × Wait)).all (fun e =>
    let s := met3 (.reconv 7 0)
    let b := s.before e.1
    let c := b.hold e.2
    let x := fun (l : Nat) => c.curParty.lane l
    readyB s e.1 && FMap.wf {} b.curParty.lanes && s.curTeam.halt == .running
      && b.curParty.active.all (fun l => s.cur.lanes.contains l || (b.curParty.lane l).wait.gathers)
      && c.curParty.active.contains 0 && c.curParty.active.contains 5 && (x 0).wait.key != (x 5).wait.key
      && c.curParty.active.all fun l => decide (0 ≤ l)) = true := by decide +kernel

theorem wit_ElectPicksTheLowest : (let i := Instr.elect 2 0
    let b := (met3 .crossLane).before i
    readyB (met3 .crossLane) i && metB b && b.curParty.active.contains 0 && b.curParty.active.all fun l => decide (0 ≤ l)) = true := by
  decide +kernel

/-- The uniform words that write one register. -/
def uniforms : List Instr :=
  [.sadd 1 2 3 0, .ssub 1 2 3 0, .smul 1 2 3 1 0, .sand 1 2 3 0, .sor 1 2 3 0, .sxor 1 2 3 0, .sandn 1 2 3 0, .sshl 1 2 3 0, .sshr 1 2 3 0
    , .ssar 1 2 3 0, .smin 1 2 3 0, .smax 1 2 3 0, .ssel 1 2 3 0 0 0, .saddi 1 2 (-1) 0, .sli 1 (-1) 0, .slik 1 33 5 0, .mfsrUniform 1 6 0
    , .accFlg 1 0 0 0, .ckptStat 1 2 0, .tideRd 1 2 0 0, .tideRd 1 2 1 0, .tideRd 1 2 2 0]
/-- A sequencer context's team that owns tile 0. -/
def tiled : State := (sequencer lane0).setTeam 0 { (sequencer lane0).team 0 with tiles := [(0, { allocated := true })] }
theorem wit_UniformResults : (uniforms.all fun i =>
    let s := if familyOf i == .seqU then tiled else strand lane0
    readyB s i && (uniformWrite (s.before i) i).isSome) = true := by decide +kernel
/-- `mtsr` of the registers that keep what is written: sr.round, sr.stacklim, sr.fault, sr.priv, and by lanes sr.fflags too. -/
theorem wit_UniformResults_mtsr :
    ([9, 11, 12, 14] : List (BitVec 10)).all (fun r => let i := Instr.mtsrUniform 1 r 0
      let b := (strand lane0).before i
      readyB (strand lane0) i && !b.curTeam.specialReserved b.curParty b.standing r.toNat (b.rdS 1).toNat && (specialKept r.toNat).isSome) = true
    ∧ ([8, 9, 14] : List (BitVec 10)).all (fun r => let i := Instr.mtsrLane 1 0 r 0
      let b := (strand lane0).before i
      readyB (strand lane0) i && (strand lane0).cur.lanes == [0] && !b.curTeam.specialReserved b.curParty b.standing r.toNat 0) = true := by
  decide +kernel

/-- Words of the majors of `elect` and `sloop`, one legal and one with a field that must be zero. -/
theorem wit_ZeroFields :
    decode 0x48000000#32 = .ok (.elect 0 0) ∧ (0x48000000#32).extractLsb' 25 7 = 0x24#7 ∧ decode 0x48100000#32 = .error .reserved
    ∧ decode 0x48000004#32 = .error .reserved ∧ decode 0x9C000000#32 = .ok (.sloop 0 0 0) ∧ (0x9C000000#32).extractLsb' 25 7 = 0x4E#7
    ∧ decode 0x9C002000#32 = .error .reserved ∧ decode 0x9C040000#32 = .error .reserved := by decide +kernel

theorem wit_LoopCountsDown : readyB (withS [(2, 1)]) (.sloop 2 (-4) 0) = true ∧ readyB (withS [(2, 2)]) (.sloop 2 (-4) 0) = true := by
  decide +kernel

/-- Code at 0x20000 that a jump table names: entry 0 goes to a word, an `lpad`, 16 bytes into it. -/
def jumps (x : Lane) (us : FMap W64) (entry : Nat := 0x0000000500000010) (word : Nat := 0x54000014) : State :=
  let s := mapped (stand 0 { party0 false x with s := us } [0])
  let s := s.setTeam 0 { s.team 0 with hdr := { hdr0 with jtbase := 0x20000, jtlimit := 1 } }
  { s with near := Mem.write (Mem.write s.near 0x20000 8 entry) 0x20010 4 word }

/-- The control words, each with a state in which it goes on. -/
def controls : List (State × Instr) :=
  let near := jumps lane0 []
  [(near, .lpad 5 0), (near, .bra 0 (-1) 0), (near, .bra 1 7 0), (near, .bra 5 7 0), (near, .brx 1 0), (near, .call 9 0)
    , (jumps { lane0 with stack := [0x30000], depth := 1 } [], .ret 0), (near, .sbr 0 (-1) 0), (near, .sbr 4 (-1) 0), (near, .sbr 12 3 0)
    , (near, .sloop 2 3 0), (jumps lane0 [(2, 9)], .sloop 2 3 0), (near, .sjmp 1 0)]
theorem wit_ControlResults : (controls.all fun e =>
    readyB e.1 e.2 && (controlEffect (e.1.before e.2) e.2).isSome) = true := by decide +kernel

/-- Calls of a lane with a cached entry and with four, of which the oldest is spilled to near memory; returns from one entry and from two. -/
theorem wit_ControlResults_calls :
    (let near := fun (st : List W64) => jumps { lane0 with stack := st, depth := st.length } []
     [[0x30000], [1, 2, 3, 4]].all fun st => match (near st).callLane 0 with
       | .ok c => (match c.retLane 0 with | .ok _ => true | .error _ => false)
       | .error _ => false) = true
    ∧ (let s := jumps { lane0 with stack := [1, 2, 3, 4], depth := 4 } []
       match s.backingPlace .write 0 0 with | .ok (.near _) => true | _ => false) = true
    ∧ ([[0x30000], [0x30000, 0x40000]].all fun st => match (jumps { lane0 with stack := st, depth := st.length } []).retLane 0 with
       | .ok _ => true | .error _ => false) = true := by decide +kernel

/-- What the jump table gives for an index. -/
def landing (s : State) (i : Instr) (n : Nat) : Nat := match (s.before i).jumpTable n with | .bad d => d | .to _ => 0 | .fail _ _ => 9
theorem wit_ControlTraps :
    (let s := jumps { lane0 with v := [(1, 1)] } []
     readyB s (.brx 1 0) && s.curTeam.halt == .running && !s.curParty.seq && s.cur.lanes == [0] && landing s (.brx 1 0) 1 == 1) = true
    ∧ (readyB (strand lane0) (.ret 0) && ((strand lane0).before (.ret 0)).curParty.lanes.all fun e => e.2.depth == 0) = true
    ∧ (let s := strand { lane0 with depth := 8 }
       let b := s.before (.call 9 0)
       readyB s (.call 9 0) && decide (b.curParty.stacklim.toNat / (8 * b.curTeam.hdr.width) ≤ (b.curParty.lane 0).depth)) = true
    ∧ (let s := jumps lane0 [(1, 1)]
       readyB s (.sjmp 1 0) && landing s (.sjmp 1 0) 1 == 1) = true
    ∧ [landing (jumps lane0 [] (2 ^ 48 + 16)) (.brx 1 0) 0, landing (jumps lane0 [] 18) (.brx 1 0) 0, landing (jumps lane0 [] 16 0x00041030) (.brx 1 0) 0
      , landing (jumps lane0 [] 16) (.brx 1 0) 0, landing (jumps lane0 []) (.brx 1 0) 0] = [2, 2, 3, 4, 0] := by decide +kernel

/-- Of two lanes at a word, lane 0 traps and lane 1 goes on: `ret` with an empty stack, `call` at the limit, `brx` past the table. -/
theorem wit_ControlTraps_mixed : ([(.ret 0, { lane0 with v := [(2, 1)] }, { lane0 with stack := [0x30000], depth := 1 })
    , (.call 9 0, { lane0 with depth := 8 }, lane0), (.brx 1 0, { lane0 with v := [(1, 1)] }, lane0)] : List (Instr × Lane × Lane)).all (fun e =>
    let s := jumps lane0 []
    let s : State := { s.setParty 0 0 { party0 false lane0 with lanes := [(0, e.2.1), (1, e.2.2)] } with cur := { team := 0, party := 0, lanes := [0, 1] } }
    let outs := ((s.before e.1).controlOuts e.1).2
    readyB s e.1 && s.curTeam.halt == .running && s.cur.lanes.all (fun l => decide (l < 64))
      && (match outs with | [(0, .trap c), (1, .done _)] => c.kind == 2 || c.kind == 3 | _ => false)) = true := by decide +kernel

theorem wit_ReconvReleases : (let s := met3 (.reconv 7 2)
    let b := s.before (.reconv 7 0)
    readyB s (.reconv 7 0) && decide (FMap.wf {} b.curParty.lanes = true)
      && b.curParty.active.all fun l => s.cur.lanes.contains l || (b.curParty.lane l).wait == .reconv 7 2) = true := by decide +kernel
theorem wit_ExitEndsLanes : readyB (strand lane0) (.exit 0) = true := by decide +kernel

/-- A strand with its local window in s56, VA 0x40000 in s57, and the listed control word in s48; the window holds a work queue with
one item at offset 0, whose ring of four is at offset 64. -/
def stores (ctl : W64) : State :=
  let s := mapped (withS ([(48, ctl), (56, 0x40000000), (57, 0x40000)].filter fun e => e.2 != 0))
  s.setTeam 0 { s.team 0 with mem := [(4, 1), (8, 64), (12, 2), (64, 0xAB), (65, 0xCD)] }

/-- The memory words, on the local window and on near memory. -/
def memories : List (State × Instr) :=
  [(stores 0, .ldB 2 1 0 0 0 0), (stores 0, .ldH 2 1 1 0 0 0), (stores 0, .ldW 2 1 0 0 1 0), (stores 0, .ldD 2 1 1 0 4 0)
    , (stores 0, .ldQ 4 1 0 0 0 0), (stores 0, .stB 2 1 0 0 0 0), (stores 0, .stH 2 1 1 0 2 0), (stores 0, .stW 2 1 0 0 0 0)
    , (stores 0, .stD 2 1 1 0 4 0), (stores 0, .stQ 4 1 0 0 0 0), (stores 2, .ldv 2 1 0 0 0 0), (stores 3, .ldvTag 2 1 0 0 1 0)
    , (stores 0, .atom 2 1 0 0 0 0), (stores 0x27, .atom 2 1 0 0 3 0), (stores 0, .red 2 1 0 0 0 0), (stores 6, .red 2 1 0 0 2 0)
    , (stores 0, .qopPop 2 1 0 0), (stores 0, .qopPush 2 1 0 0), (stores 0, .sld 2 57 1 0), (stores 0, .sst 2 56 1 0)]
theorem wit_MemoryResults : (memories.all fun e =>
    readyB e.1 e.2 && (memoryEffect (e.1.before e.2) e.2).isSome) = true := by decide +kernel

/-- Queues at an offset of the window: one item of four, none, all; a misaligned one, one beyond the allocation, one with a bad capacity, and
one whose ring goes past the allocation; and contributions of a `red` on an anchor. -/
theorem wit_MemoryResults_queues :
    (let q := fun (tail ring k : Nat) => (stores 0).setTeam 0 { (stores 0).team 0 with mem := Mem.write [] 0 16 (2 ^ 32 * tail + 2 ^ 64 * ring + 2 ^ 96 * k) }
     let used := fun (s : State) => let D := Mem.read s.curTeam.mem 0 16
       (bits D 63 32 + 2 ^ 32 - bits D 31 0) % 2 ^ 32
     [used (q 1 64 2), used (q 0 64 2), used (q 4 64 2)] == [1, 0, 4] && !(q 1 64 2).rangeBusy 0 0 16 && !(q 1 64 2).rangeBusy 0 64 4
       && (q 1 64 2).curTeam.alloc == 4096 && 8 % 16 != 0 && 4096 % 16 == 0 && decide (4096 < 4096 + 16)
       && decide (16 < bits (Mem.read (q 1 64 17).curTeam.mem 0 16) 103 96) && decide (4096 < 64 + 4 * 2 ^ 16)) = true
    ∧ F32.read (0x3FC00000 % 2 ^ 32) = .num false 0xC00000 (-23) ∧ F32.read (0x7FC00000 % 2 ^ 32) = .nan false
    ∧ (bits 0x0006 7 7 = 0 ∧ bits 0x0086 7 7 = 1 ∧ 0x0006 % 16 = 6 ∧ 0x0002 % 16 ≠ 6) := by decide +kernel

/-- `State.Local` as a computation. -/
def localB (b : State) (A n off : Nat) : Bool :=
  inWindow b.curCtx.localBase A && decide (A < 2 ^ 57) && off == A - b.curCtx.localBase && decide (off + n ≤ b.curTeam.alloc)
    && !b.rangeBusy b.cur.team off n
theorem local_of {b : State} {A n off : Nat} (h : localB b A n off = true) : b.Local A n off := by
  simp only [localB, Bool.and_eq_true, decide_eq_true_eq, beq_iff_eq, Bool.not_eq_true'] at h
  obtain ⟨⟨⟨⟨h1, h2⟩, h3⟩, h4⟩, h5⟩ := h
  exact ⟨h1, h2, h3, h4, h5⟩

/-- Loads and stores of one lane at an offset of the window, the last one at the window's end. -/
theorem wit_LocalAccesses_load : ([(.ldB 2 1 0 0 0 0, 1, 4095), (.ldQ 4 1 0 0 0 0, 16, 4080)] : List (Instr × Nat × Nat)).all (fun e =>
    let s := (stores 0).setLane 0 0 0 { lane0 with v := [(1, w32 e.2.2)] }
    let A := (s.before e.1).laneAddr 0 1 0
    readyB s e.1 && (loadForm e.1).isSome && A % e.2.1 == 0 && localB (s.before e.1) A e.2.1 e.2.2) = true := by decide +kernel
theorem wit_LocalAccesses_store : ([(.stB 2 1 0 0 0 0, 1, 4095), (.stQ 4 1 0 0 0 0, 16, 4080)] : List (Instr × Nat × Nat)).all (fun e =>
    let s := (stores 0).setLane 0 0 0 { lane0 with v := [(1, w32 e.2.2)] }
    let A := (s.before e.1).laneAddr 0 1 0
    readyB s e.1 && (storeForm e.1).isSome && s.cur.lanes == [0] && A % e.2.1 == 0 && localB (s.before e.1) A e.2.1 e.2.2) = true := by
  decide +kernel

/-- The address of a lane's access to near memory, if that is where it leads. -/
def nearOf (b : State) (acc : Acc) (A n : Nat) : Option Nat :=
  match b.locate b.curTeam.slot b.curTeam.alloc acc A n with | .ok (.phys (.near p)) => some p | _ => none
theorem wit_NearAccesses_load : (let i := Instr.ldW 2 1 1 0 0 0
    let b := (stores 0).before i
    readyB (stores 0) i && b.laneAddr 1 1 0 % 4 == 0 && nearOf b .read (b.laneAddr 1 1 0) 4 == some 0x40000
      && !b.isBad (.near 0x40000) 4) = true := by decide +kernel
theorem wit_NearAccesses_store : (let i := Instr.stD 2 1 1 0 0 0
    let b := (stores 0).before i
    readyB (stores 0) i && b.laneAddr 1 1 0 % 8 == 0 && nearOf b .write (b.laneAddr 1 1 0) 8 == some 0x40000) = true := by decide +kernel
theorem wit_NearAccesses_atom : (let i := Instr.atom 2 1 1 0 0 0
    let b := (stores 0).before i
    readyB (stores 0) i && b.laneAddr 1 1 0 % atomBytes (bits (b.control 1) 6 4) == 0
      && nearOf b .atomic (b.laneAddr 1 1 0) 4 == some 0x40000 && !b.isBad (.near 0x40000) 4) = true := by decide +kernel
/-- Values of each width that R106 gives: below and above one another as signed and as unsigned. -/
theorem wit_NearAccesses_atomNew : (([(0, 0xFFFFFFFF, 1), (1, 1, 0xFFFFFFFF), (2, 2 ^ 63, 1), (3, 0, 2 ^ 64 - 1), (4, 2 ^ 127, 2 ^ 128 - 1)]
    : List (Nat × Nat × Nat)).all fun e => decide (e.1 < 5) && decide (e.2.1 < 2 ^ (8 * atomBytes e.1)) && decide (e.2.2 < 2 ^ (8 * atomBytes e.1)))
    = true := by decide +kernel
/-- Lane accesses that are misaligned, without translation, and beyond the allocation of the window: what `locate` finds. -/
def stopsAt (us : FMap W64) (v : W32) (i : Instr) : Option (Nat × Option Nat) :=
  let s := (mapped (withS us)).setLane 0 0 0 { lane0 with v := if v = 0 then [] else [(1, v)] }
  let b := s.before i
  match laneForm b i with
  | some (a, e, n, acc) =>
    let A := b.laneAddr e a 0
    if readyB s i && s.curTeam.halt == .running && s.cur.lanes == [0] && !s.curParty.seq then
      some (A % n, match b.locate b.curTeam.slot b.curTeam.alloc acc A n with
        | .error (.bad d) => some d | .error _ => none | .ok _ => some 0)
    else none
  | none => none
def laneAccesses : List Instr := [.ldW 2 1 1 0 0 0, .stW 2 1 1 0 0 0, .ldv 2 1 1 0 0 0, .ldvTag 2 1 1 0 0 0, .atom 2 1 1 0 0 0, .red 2 1 1 0 0 0]
theorem wit_LaneAccessesStop : (laneAccesses.all fun i =>
    (stopsAt [(49, 2), (57, 0x40000000)] 1 i).any (fun e => e.1 != 0) && stopsAt [(49, 2), (57, 0x8000000000)] 0 i == some (0, none)
      && stopsAt [(49, 2), (57, 0x40000000)] 4096 i == some (0, some 3)) = true := by decide +kernel

/-- A strand whose lane 0 waits, in a team whose barrier 0 stands at a phase. -/
def waits (phase : Nat) (w : Wait) (us : FMap W64) : State :=
  let s := stand 0 { party0 false { lane0 with wait := w } with s := us } [0]
  s.setTeam 0 { s.team 0 with bars := [(0, { e := 2, phase := phase })] }

/-- The barrier words, fences and code words, each in a state in which it goes on; `bar.try` past its phase, and at its bound. -/
def barriers : List (State × Instr) :=
  [(withS [(2, 33)], .barInit 1 2 2 0), (withS [(2, 0x100000)], .barInit 1 2 5 0), (strand lane0, .barArr 1 2 0), (sequencer lane0, .barArr 1 3 0)
    , (waits 1 (.barrier false 0 0 none) [], .barWait 0 2 0), (waits 1 (.barrier false 0 0 none) [], .barAw 0 2 0)
    , (waits 0 (.arrive false 0) [], .barArr 0 2 0), (waits 1 (.barrier false 0 0 (some (9, 1, 0))) [], .barTry 0 1 2 2 0)
    , (waits 0 (.expired 1 0) [], .barTry 0 1 2 2 0)
    , ((waits 0 .none []).setTeam 0 { (waits 0 .none []).team 0 with bars := [(0, { e := 1, phase := 0 })] }, .barAw 0 2 0)
    , (strand lane0, .fence 2 0 0), (strand lane0, .fence 6 1 0), (strand lane0, .ifence 0), (withS [(2, 0x10000), (3, 64)], .icinv 2 3 0)]

/-- `State.Acts` as a computation. -/
def actsB (b : State) (i : Instr) : Bool := !meetsAt i || resumes i b.curWait || b.curParty.seq || metB b
theorem acts_of {b : State} {i : Instr} (h : actsB b i = true) : b.Acts i := by
  simp only [actsB, Bool.or_eq_true, Bool.not_eq_true'] at h
  rcases h with ((h | h) | h) | h
  exacts [.inl h, .inr (.inl h), .inr (.inr (.inl h)), .inr (.inr (.inr (met_of h)))]
theorem wit_BarrierResults : (barriers.all fun e =>
    readyB e.1 e.2 && actsB (e.1.before e.2) e.2 && (barrierEffect (e.1.before e.2) e.2).isSome) = true := by decide +kernel
theorem wit_BarrierWaits : (let i := Instr.barWait 1 2 0
    let b := (sequencer lane0).before i
    let c := (strand lane0).before i
    readyB (sequencer lane0) i && b.curParty.seq && b.curWait == .none && (b.namedBarrier 2 1).isSome
      && readyB (strand lane0) i && metB c && c.curWait == .none && ((c.metAt .rendezvous).namedBarrier 2 1).isSome) = true := by decide +kernel
theorem wit_ArrivalsCompletePhases : ([({}, 0), ({ e := 1 }, 3), ({ e := 2, a := 1, n := 1, phi := [(4, 1)] }, 4)] : List (Barrier × Nat)).all
    (fun x => (x.1.e == 0 || decide (x.1.a < x.1.e)) && (x.1.e == 0 || decide (x.1.n < x.1.e)) && !x.1.ahead x.2) = true := by decide +kernel

/-- Counter 0 of the context with a value, named by s2 = 0. -/
def counting (v : W32) : State := { strand lane0 with counters := if v = 0 then [] else [(0, { value := v })] }
def counterWords : List (State × Instr) :=
  [(counting 3, .taskSigAdd 2 3 0), (counting 3, .taskSigSet 2 3 0), (counting 3, .taskSigRd 1 2 0), (counting 0, .taskWait 2 0)
    , (counting 3, .taskWaitTake 2 0), (counting 3, .taskTry 0 2 0), (counting 0, .taskTry 0 2 0), (counting 3, .taskTryTake 0 2 0)
    , (counting 0, .taskTryTake 0 2 0)]
theorem wit_CounterResults : (counterWords.all fun e =>
    readyB e.1 e.2 && (counterEffect (e.1.before e.2) e.2).isSome) = true := by decide +kernel

/-- A strand or a sequencer context whose uniform registers hold the listed values, in a team with 64 KiB of local memory, tiles 0 and 1
and a shape record in slot 0 and at offset 0: 64 elements of FP32 at offset 0x400. -/
def record0 : Nat := 63 * 2 ^ 224 + 2 ^ 112 + 2 ^ 96 + 2 ^ 80 + 64 * 2 ^ 64 + 0x40000400
def arrayed (seq : Bool) (us : FMap W64) (unit : Nat) : State :=
  let s := stand (if seq then 64 else 0) { party0 seq { lane0 with unit := unit, units := if unit = 0 then 0 else 64 } with
    s := us, shapes := [(0, some (BitVec.ofNat 256 record0))], w0 := { loaded := true } } [0]
  mapped (s.setTeam 0 { s.team 0 with
    hdr := { hdr0 with localBytes := 65536 }, tiles := [(0, { allocated := true }), (1, { allocated := true })]
    mem := Mem.write [] 0 32 record0 })

/-- A strand of such a team with objects in its window: a card at 0x400, a kernel header at 0x1000 and a graph object of one card at
0x2000; and an open collective. -/
def objects (us : FMap W64) : State :=
  let s := arrayed false us 0
  { s.setTeam 0 { s.team 0 with
      mem := [(0x400, 4, 0x04000004), (0x1000, 8, 0x1314B4847), (0x1008, 8, 0x100), (0x1020, 8, 0x1020000000000), (0x2000, 8, 0x4F47)].foldl
        (fun m (e : Nat × Nat × Nat) => Mem.write m e.1 e.2.1 e.2.2) (s.team 0).mem } with
    colls := [(0, { isOpen := true })] }

/-- Code at the word's place: a clause of one word. -/
def clauseAt (x : Lane) (st : Nat) : State :=
  let s := mapped (strand x)
  { s with near := Mem.write (Mem.write (Mem.write s.near 0x10000 4 (0xA0100000 + st)) 0x10004 4 0x00041030) 0x10008 4 0xA2000000 }

/-- The engine words that complete. -/
def engines : List (State × Instr) :=
  [(strand lane0, .mtsrUniform 1 9 0), (strand lane0, .mtsrLane 1 0 8 0), (clauseAt lane0 0, .clause 1 0)
    , (strand { lane0 with clause := some 0x10000 }, .clend 0 0 0 0 0 0), (strand { lane0 with clause := some 0x10000 }, .clend 5 1 2 0 0 3)
    , (strand lane0, .tcon 64 16 1 0 0 0), (arrayed true [(2, 0x10000001000)] 63, .wload 0 2 0 0 1 0)
    , (arrayed true [(2, 0x10000001000), (4, 1)] 0, .mma 0 2 4 0), (arrayed true [(2, 1)] 0, .mmac 1 0 2 0)
    , (arrayed true [(2, 1), (4, 0x10000001000)] 0, .accRd 0 2 4 1 0), (arrayed true [(3, 0x10000001000)] 0, .tld 0 2 3 0)
    , (arrayed true [(3, 0x10000001000)] 0, .tst 0 2 3 0), (arrayed true [] 0, .wswap 0), (arrayed true [] 0, .accAlloc 2 1 0)
    , (arrayed true [] 0, .accFree 0 1 0), (arrayed true [] 0, .accAnc 0 1 2 0), (arrayed true [] 0, .accFlg 2 0 1 0)
    , (arrayed false [(2, 0x40000000)] 0, .tshape 3 2 0), (objects [(2, 0x41000), (3, 0x43000), (4, 64)], .copy 2 4 0 0 0)
    , (objects [(2, 0x40000000), (4, 0x10000001000)], .copyt 2 4 1 0), (objects [(2, 0x400)], .taskSub 1 2 0), (objects [], .collPut 2 3 0)
    , (objects [(2, 0x40001000)], .launch 1 2 4 0), (objects [(2, 0x40002000)], .replay 0 2 4 0)]

/-- `State.Gathered` as a computation, for the states here. -/
def gatheredB (b : State) (i : Instr) : Bool :=
  match i with
  | .tcon .. => metB b && b.cur.units == none
  | .wload .. | .mma .. | .mmac .. | .accRd .. | .tld .. | .tst .. => b.cur.units == none
  | .clause .. => metB b
  | .stepEnter .. => b.curParty.seq || metB b
  | _ => true
theorem gathered_of {b : State} {i : Instr} (h : gatheredB b i = true) : b.Gathered i := by
  cases i
  case tcon =>
    simp only [gatheredB, Bool.and_eq_true, beq_iff_eq] at h
    exact ⟨met_of h.1, h.2⟩
  case clause n st =>
    unfold State.Gathered
    dsimp only
    split
    · split
      · exact fun _ => met_of h
      · trivial
    · trivial
  case stepEnter =>
    simp only [gatheredB, Bool.or_eq_true] at h
    unfold State.Gathered
    rcases h with h | h
    · exact .inl h
    · refine .inr ?_
      split
      · trivial
      · trivial
      · exact met_of h
  all_goals first | trivial | exact eq_of_beq h

/-- One row through the array, and one row drained; an integer format and a stochastic conversion. -/
theorem wit_MatrixEntries :
    (let s := arrayed true [(2, 0x10000001000), (4, 1)] 0
     let b := s.before (.mma 0 2 4 0)
     let d := b.desc 2
     let B := b.bank b.curParty.cur
     let rows := d.rows 1 (fmtDepth d.fmt * fmtBits d.fmt / 8)
     readyB s (.mma 0 2 4 0) && b.cur.units == none && (b.curParty.lane b.firstLane).unit == 0 && b.rdS 4 == 1 && !d.bad && !d.scaled && !d.column
       && !rows.misplaced && decide (rows.end_ ≤ b.curTeam.alloc) && b.busyRow rows == none && B.loaded && !B.bad && fmtMeet d.fmt B.fmt.toNat
       && b.tilesOk 0 1 && !(b.tile 0).bad) = true
    ∧ (let s := arrayed true [(2, 0x3F80000000000001), (4, 0x10000001000)] 0
       let b := s.before (.accRd 0 2 4 1 0)
       let c := (b.convRecord 2 []).1
       let rows := placeRows (b.rdS 4) 1 (8 * fmtBits c.fmt)
       readyB s (.accRd 0 2 4 1 0) && b.cur.units == none && (b.curParty.lane b.firstLane).unit == 0 && bits (b.rdS 2).toNat 31 19 == 0 && c.rows == 1
         && c.fmt == 0 && c.rnd == 0 && c.scale == .num false 0x800000 (-23) && decide ((b.rdS 4).toNat < 2 ^ 48) && !rows.misplaced
         && decide (rows.end_ ≤ b.curTeam.alloc) && b.busyRow rows == none && b.tilesOk 0 1 && !(b.tile 0).bad) = true
    ∧ intElem 8 0xFF = some (-1) ∧ fmtFloat 0 = some F32 ∧ (0 : BitVec 96) ≠ nanPattern ∧ (freshTile 0).exponent ≤ 0 := by decide +kernel

/-- The device words that move no byte of memory. -/
def quietEngine (i : Instr) : Bool :=
  match i with
  | .clause .. | .clend .. | .wswap .. | .accAlloc .. | .accFree .. | .accAnc .. | .tshape .. | .mtsrLane .. | .mtsrUniform .. => true
  | _ => false
theorem wit_EngineResults : (engines.all fun e =>
    readyB e.1 e.2 && gatheredB (e.1.before e.2) e.2 && (engineResult (e.1.before e.2) e.2).isSome) = true := by decide +kernel

/-- A strand with the listed uniform registers, in a team that the pattern serves; VA 2 GiB is a versioned page whose ring at NPA 0x5000
has a published frame or none; a collective record stands at 0x40000, a checkpoint record at offset 0x3000 of the window. -/
def trained (seq published : Bool) (us : FMap W64) : State :=
  let s := arrayed seq us 0
  let near := [(0x3010, 8, 0x40000021), (0x4000, 8, 0x5000006F), (0x500C, 2, if published then 2 else 0), (0x5040, 8, 0x200000000062)
    , (0x5048, 8, 0x400000000062), (0x40000, 8, 0x4C43), (0x40008, 8, 0x100000001), (0x40010, 8, 0x100000001), (0x40020, 8, 0x40000040)]
  let mem := [(0x3000, 8, 0x100004B43), (0x3008, 8, 0x40003100), (0x3010, 8, 0x100000000000000), (0x3100, 8, 0x80000000)]
  { s.setTeam 0 { s.team 0 with mem := mem.foldl (fun m (e : Nat × Nat × Nat) => Mem.write m e.1 e.2.1 e.2.2) (s.team 0).mem } with
    near := near.foldl (fun m (e : Nat × Nat × Nat) => Mem.write m e.1 e.2.1 e.2.2) s.near
    ctrl := { s.ctrl with patEnable := true }, pat := { outstanding := [3] } }

/-- A close of chunk 0 at step 0. -/
def close0 : ChunkClose :=
  { chunk := 0, step := 0, covered := 1, folded := 0, drops := 0, byTimer := false, backupUsed := false, d16 := 0, sat := false
    inexact := false, nan := false, held := 0, bitmap := [0], result := [] }
/-- With collective 0 open, and closed at step 0 or not. -/
def collected (closed : Bool) (us : FMap W64) : State :=
  { trained false false us with
    colls := [(0, { isOpen := true, closes := if closed then [(0, some close0)] else [] })], pat := {} }

/-- The training words that complete. -/
def trainings : List (State × Instr) :=
  [(strand lane0, .stepEnter 2 0), (sequencer lane0, .stepEnter 2 0), (trained false true [(2, 9)], .stepPub 2 0)
    , (trained false false [(2, 0x80000000)], .verOpen 2 0), (trained false true [(2, 0x40003000)], .ckptFreeze 1 2 0)
    , (trained false true [(2, 0x40000)], .collOpen 1 2 0), (collected true [], .collWait 1 2 0), (collected true [], .collStat 1 2 0)
    , (collected false [], .collStat 1 2 0), (collected true [], .gauge 2 4 0), (collected true [(2, 0x40003200), (4, 1)], .patLd 0 2 4 0)
    , (trained false true [], .patNext 4 0), (trained false true [(2, 3)], .patDone 2 0), (trained false true [(2, 7)], .stashPut 1 2 0)
    , (trained false true [(2, 7)], .stashGet 1 2 0)
    , ({ trained false true [(2, 7)] with pat := { slots := [(0, .bound 7)] } }, .stashFree 2 0)]
theorem wit_TrainingResults : (trainings.all fun e =>
    readyB e.1 e.2 && gatheredB (e.1.before e.2) e.2 && (trainingResult (e.1.before e.2) e.2).isSome) = true := by decide +kernel
/-- Of the device words, those that move no byte of memory. -/
theorem wit_QuietWords : ((engines ++ trainings).all fun e => match e.2 with
    | .clause .. | .clend .. | .wswap .. | .accAlloc .. | .accFree .. | .accAnc .. | .tshape .. | .mtsrLane .. | .mtsrUniform .. =>
      readyB e.1 e.2 && gatheredB (e.1.before e.2) e.2 && (engineResult (e.1.before e.2) e.2).isSome
    | .collOpen .. | .collWait .. | .collStat .. | .gauge .. | .patDone .. | .stashPut .. | .stashGet .. =>
      readyB e.1 e.2 && gatheredB (e.1.before e.2) e.2 && (trainingResult (e.1.before e.2) e.2).isSome
    | _ => true) = true := by decide +kernel

/-- Such a strand with a fault record, ASID 1 resident in slot 1, slot 2 free, and the header of a context image at offset 0x6000. -/
def supervised (us : FMap W64) : State :=
  let s := trained false true us
  let s := s.setTeam 0 { s.team 0 with mem := Mem.write (Mem.write (s.team 0).mem 0x6000 8 0x158544347) 0x6020 2 5 }
  { s.setCtx 1 { ctxAtWord with asid := 1 } with fq := { count := 1 } }
/-- The words of major 0x3F: `map` with its tables, without them and for no context, `tlbinv` in each form, and an empty queue. -/
def systems : List (State × Instr) :=
  [(supervised [(3, 0x4000000000BE)], .map 1 2 4 0), (supervised [(3, 0x4000000000BE), (4, 9)], .map 1 2 4 0)
    , (supervised [(2, 0x200000), (3, 0x90000003E)], .map 1 2 4 0), (supervised [], .unmap 2 4 0), (supervised [], .tlbinv 2 4 0)
    , (supervised [(4, 0x10000)], .tlbinv 2 4 0), (supervised [(4, 0x20000)], .tlbinv 2 4 0), (supervised [], .fqPop 4 0 0)
    , ({ supervised [] with fq := {} }, .fqPop 4 0 0), (supervised [], .resume 2 4 0), (supervised [(2, 1), (4, 0x40001000)], .ctxSave 2 4 0)
    , (supervised [(2, 2), (4, 0x40006000)], .ctxRest 2 4 0)]
theorem wit_SystemResults : (systems.all fun e =>
    readyB e.1 e.2 && (systemResult (e.1.before e.2) e.2).isSome) = true := by decide +kernel
theorem wit_MapWritesItsEntry : (let s := supervised [(3, 0x4000000000BE)]
    let i := Instr.map 1 2 4 0
    let b := s.before i
    readyB s i && entryOk (b.rdS 3).toNat && (b.slotOf ((b.rdS 4).extractLsb' 0 16)).isSome
      && b.entryAt 0 (b.rdS 2).toNat (entryStop (b.rdS 3).toNat) == some (.near 0x3000)) = true := by decide +kernel

/-! ### Witnesses of encoding, stepping and traps -/

theorem wit_DecodeEncode : wellFormed (.ldW 7 9 2 2 1 3) = true ∧ (encode (.ldW 7 9 2 2 1 3)).isSome = true := by decide +kernel
theorem wit_EncodeDecode : decode 0b0_110000_0000111_0001001_010_010_001_11#32 = .ok (.ldW 7 9 2 2 1 3) := by decide +kernel
theorem wit_IllegalWords : wellFormed (.add 0 0 0 0 0) = false ∧ wellFormed (.or 0 0 0 0) = true ∧ (encode (.or 0 0 0 0)).isSome = true := by
  decide +kernel

/-- A turn of a placed word: `add v1, v2, v3`, an illegal word, and a word without a page. -/
theorem wit_StepRunsDecodedWord : (let s := State.reset.withFetchWord 32 0x00041030
    let a : State := { s with agenda := [] }
    let p := (a.passBarred 0 0).passBarred 0 0
    let c : State := { p.claim 0 0 with cur := { team := 0, party := 0, lanes := p.nextRun 0 0, serve := [] } }
    s.agenda == [.issue 0 0 [] true] && s.running && a.portFree 0 0 && !a.barred 0 0 && p.chosen 0 0 == (0, 0) && p.nextRun 0 0 == [0]
      && (match c.fetchWord 0 0 0x10000 with | .ok w => decode (w32 w) == .ok (.add 1 2 3 0 0) | .error _ => false)) = true := by decide +kernel
theorem wit_StepTakesEvents : (let s := State.reset.withFetchWord 32 0xFFFFFFFF
    let lost := s.setLane 0 0 0 { laneAtWord 0 with pc := 0x8000000000 }
    let at_ := fun (s : State) (pc : Nat) => State.fetchWord { s with cur := { team := 0, party := 0, lanes := [0] } } 0 0 pc
    let placed := s.noteRank (.teamPlace 0) 0 0
    isEvent (.doorbell 3) && !s.tooLate (.doorbell 3) 0 0 && placed.running && placed.tooLate (.doorbell 3) 0 0 && (match at_ s 0x10000 with | .ok w => decode (w32 w) == .error .illegal | .error _ => false)
      && (match at_ lost 0x8000000000 with | .error .missing => true | _ => false)) = true := by decide +kernel
theorem wit_EveryInstructionAnswers : (strand lane0).issuing = true := by decide +kernel
theorem wit_FarBytesAreKeyed : (0 < 2 ^ 13 ∧ 8191 < 2 ^ 13) ∧ (0 : Nat) ≠ 8191 := by decide
/-- A lane whose v1 is due in three slots: v2 has no write pending. -/
def dueLane : Lane := { lane0 with pend := [{
  reg := .v 1, old := 9, producer := 0, latency := some 4, elapsed := 1, full := false, holds := false, written := false, exported := false
  sf := false, clause := false, tag := 0 }] }
theorem wit_ReadsOldOrNew : (dueLane.pend.all fun e => e.reg != .v 2 || !e.early) = true ∧ (dueLane.pend.any fun e => e.early) = true := by
  decide +kernel

theorem wit_StoppingWords : ([.trap 1 2 0, .brk 1 2 0, .halt 0] : List Instr).all (readyB (strand lane0)) = true := by decide +kernel

/-- A strand in its handler, whose trap saved address 0x20000. -/
def handling : State :=
  let s := stand 0 { party0 false lane0 with
    fault := 0x9000000000000000
    save := some { pcs := [(0, 0x20000)], priv := false, units := [], clauses := [], temps := [], waits := [(0, .stopped)], passes := [] } } [0]
  s.setTeam 0 { s.team 0 with halt := .handler 0 }
theorem wit_EretReturns : (readyB (strand lane0) (.eret 0) && (((strand lane0).before (.eret 0)).curParty.save).isNone
    && (strand lane0).curTeam.halt == .running && readyB handling (.eret 0) && (((handling.before (.eret 0)).curParty.save).isSome)
    && FMap.wf {} (handling.before (.eret 0)).curTeam.parties) = true := by decide +kernel

/-- The same strand at user level. -/
def user : State := (strand lane0).setParty 0 0 { party0 false lane0 with priv := false }
theorem wit_IllegalWordsTrap : (let at_ := fun (s : State) (i : Instr) => !isEvent i && looksB s && (s.begin.wordDetail i (s.begin.uses i)).isSome
    at_ (strand lane0) (.wswap 0) && at_ user (.map 2 4 6 0) && privileged (.map 2 4 6 0) && !user.begin.curParty.priv
      && at_ user (.mtsrUniform 1 15 0) && srForbidden (.mtsrUniform 1 15 0) false false) = true := by decide +kernel

/-- Causes of a single lane: an error to be taken at the next word, a register in error, an undersized read under the checking
scoreboard, a temporary outside a clause. -/
theorem wit_IllegalWordsTrap_lane : (let i := Instr.mov 3 1 0
    let due := strand { lane0 with errors := [{ detail := 6, info := 0x40, write := false, acc := 0, regs := [], next := true }] }
    let bad := strand { lane0 with bad := [.v 1] }
    let late := (strand dueLane).setCtx 0 { ctxAtWord with control := ctxAtWord.control ||| 8 }
    let at_ := fun (s : State) => !isEvent i && looksB s && s.cur.lanes == [0] && ((s.looked i).wordDetail i ((s.looked i).uses i)).isNone
      && ((s.looked i).owedExports ((s.looked i).uses i)).isEmpty
    let cause := fun (s : State) (i : Instr) => ((s.looked i).laneCause i ((s.looked i).uses i) 0).map fun c => (c.kind, c.detail)
    at_ due && cause due i == some (5, 6) && at_ bad && cause bad i == some (5, 4) && at_ late && cause late i == some (10, 0)
      && cause (strand lane0) (.mov 1 120 0) == some (1, 5)) = true := by decide +kernel

/-- Breakpoint 2 stands at the word. -/
def broken : State := { strand lane0 with dbg := { bp := [(2, BitVec.ofNat 128 (2 ^ 70 + 0x10000))] } }
theorem wit_BreakpointsTrap : (broken.issuing && broken.curTeam.halt == .running && !broken.dbg.trcStall && broken.cur.lanes == [0]
    && (broken.breakAt 0).isSome) = true := by decide +kernel
theorem wit_BadWordsTrap : (looksB (strand lane0) && readyB (strand lane0) (.illegalInstruction 1)
    && readyB (strand lane0) (.instructionFetchFault (.violation 1) 0x10000)
    && readyB (strand lane0) (.instructionFetchFault .missing 0x10000)) = true := by decide +kernel

/-- A team in the skid of a trap of strand 0, with a handler, without one, and in its handler. -/
def skidding (handler : W64) (save : Option TrapSave) : State :=
  let s := (strand lane0).setCtx 0 { ctxAtWord with handler := handler }
  s.setTeam 0 { s.team 0 with halt := .skid 0 0, parties := [(0, { party0 false { lane0 with wait := .stopped } with save := save })] }
theorem wit_TrapsEnterHandlers : (let at_ := fun (s : State) => s.running && (s.team 0).halt == .skid 0 0
    let a := skidding 0x30000 none
    let b := skidding 0x30000 (handling.party 0 0).save
    at_ a && ((a.raised.endTries 0).party 0 0).save == none && ((a.raised.endTries 0).ctx 0).handler != 0
      && at_ b && ((b.raised.endTries 0).party 0 0).save.isSome
      && at_ (skidding 0 none) && (((skidding 0 none).raised.endTries 0).ctx 0).handler == 0) = true := by decide +kernel

/-! ### Witnesses of events -/

/-- A strand parked for an address, at step 0, its staleness count long past the limit. -/
def parked (word : Nat) (version : Bool) : State :=
  let s := trained false false []
  let s := s.setParty 0 0 { party0 false { lane0 with wait := .parked 0x80000000 version, staleCount := some 0, staleSince := some 0 } with s := [] }
  { s with near := Mem.write s.near 0x10000 4 word, now := 5000, ctrl := { s.ctrl with stale := 4 } }

/-- The `wload` of the engine words at the word's place of a sequencer context, while strand 0 is parked. -/
def longStanding : State :=
  let s := (arrayed true [(2, 0x10000001000)] 0).setParty 0 0 (party0 false { lane0 with wait := .parked 0x8000000000 false })
  { s with near := Mem.write s.near 0x10000 4 ((encode (.wload 0 2 0 0 1 0)).getD 0).toNat }

theorem wit_PartyEvents : (let s := strand dueLane
    let w := waits 0 (.expired 1 0) []
    let ldv := parked ((encode (.ldv 2 1 0 0 0 0)).getD 0).toNat true
    let f := parked 0 true
    s.running && (s.team 0).live
      && w.running && (w.team 0).mayIssue 0 && (w.party 0 0).active == [0]
      && ldv.running && ldv.staleDue 0 0 0
      && f.running && (f.party 0 0).active == [0] && !f.raised.readsVersion 0 0 0
      && f.raised.frameReady (f.team 0).slot (f.team 0).step 0x80000000
      && longStanding.running && longStanding.raised.nextRun 0 64 == [0]
      && longStanding.raised.wordAt 0 64 0 == some (.wload 0 2 0 0 1 0) && longWord (.wload 0 2 0 0 1 0)
      && (longStanding.raised.unitTurn 0 64).isSome) = true := by decide +kernel
/-- The first unit of the `wload`, and its last. -/
theorem wit_PartyEvents_unit : ([(0, 0), (63, 64)] : List (Nat × Nat)).all (fun e => let i := Instr.wload 0 2 0 0 1 0
    let s := longStanding.setLane 0 64 0 { lane0 with unit := e.1, units := e.2 }
    let c := s.raised.unitState 0 64 [0]
    s.running && s.raised.nextRun 0 64 == [0] && s.raised.wordAt 0 64 0 == some i && (e.2 != 0 || s.raised.mayBegin 0 64) && readyB c i
      && match longPlan (c.before i) i with
        | some (.ok (n, unit), q) => n == 64 && (q.curParty.lane q.firstLane).unit == e.1 && (match unit q e.1 with | .ok _ => true | .error _ => false)
        | _ => false) = true := by decide +kernel

/-- A launch of one team of a slot. -/
def launch0 (slot queue local_ : Nat) : Launch := { slot := slot, queue := queue, hdr := { hdr0 with localBytes := local_, width := 16, seq := false } }
/-- Contexts 0 and 1 hold service queues 56 and 57, the first of the higher priority; a launch waits on queue 56, and each service core
is taken by a team of context 1 or none is. -/
def crowded (full : Bool) (prio : W64) : State :=
  let ctx := fun (k : Nat) (p : W64) => ({ ctxAtWord with asid := BitVec.ofNat 16 k, qgrant := w64 (56 + k + 64), prio := p
                                                          savebytes := 0x40000000, stackbytes := 0x40000000 } : Ctx)
  { (State.reset.setCtx 0 (ctx 0 prio)).setCtx 1 (ctx 1 0) with
    disp := { launches := [(0, some (launch0 0 56 262144)), (1, some (launch0 1 57 262144))], queues := [(56, [0])], nextTeam := 16 }
    teams := if full then (List.range 16).map fun i => (i, { live := true, resident := true, slot := 1, asid := 1, core := 1536 + i, launchKey := 1
                                                             hdr := { hdr0 with localBytes := 262144 }, parties := [(0, party0 false lane0)] }) else []
    now := 100000 }

theorem wit_NewTeamsStartClean : (let s := crowded false 1
    (s.launch 0).isSome && (s.reserve 0 (launch0 0 56 262144).hdr).isSome) = true := by decide +kernel

/-- A team that is over, one whose drain has lasted, and one whose lane is parked in a context with a threshold share. -/
def finished : State := (strand lane0).setParty 0 0 { party0 false { lane0 with exited := true } with lanes := [] }
def draining : State := { (strand lane0).setTeam 0 { (strand lane0).team 0 with drainFrom := some 0 } with now := 42000 }
def sharing : State := (parked 0 false).setCtx 0 { ctxAtWord with control := 0x40000110 }
theorem wit_DispatcherEvents : (let a := (crowded false 1).raised
    let b := (crowded true 1).raised
    let c := (crowded true 0).raised
    let going := fun (s : State) => (s.duePreemption.getD []).foldl (fun (s : State) t => s.setTeam t { s.team t with drainFrom := some 0 }) s
    a.running && a.duePreemption == none && a.readyQueues == [56]
      && (match a.placement 56 with | some (_, k) => !a.cyc.placed.contains (dieOf k) && (a.dieOffer (dieOf k)).isSome | none => false)
      && (a.placement 56 [] ((List.range 8).filter (· != 1))).isSome && (a.dieOffer 1).isNone && b.running && (match b.duePreemption with | some (t :: _) => (b.team t).drainFrom == none | _ => false)
      && (match (going b).duePreemption with | some ts => ts.all fun t => ((going b).team t).drainFrom.isSome | none => false)
      && c.running && (c.swapVictim 1536).isSome && !c.preemptionDueOn 1536
      && sharing.running && sharing.raised.shareReached 0 0
      && draining.running && draining.raised.drainOver 0
      && finished.running && (finished.raised.team 0).mayRetire && !(finished.drain 0 fun w => w.parties.any fun q => q.1 == 0).teamBusy 0
      && (finished.raised.ctx 0).resident) = true := by decide +kernel

/-- A task of context 0 in a state. -/
def task0 (job : Job) (st : TaskState) (launched : Option Nat) : Task :=
  { n := 5, slot := 0, asid := 0, team := 0, party := 0, core := 0, pc := 0x10000, step := 0, job := job, regions := [], edges := []
    gate := none, done := some 0, state := st, prog := 0, parkedAt := 0, range := none, inst := none, launched := launched }
def tasked (k : Task) : State := { objects [] with tasks := [k], disp := { nextLaunch := 1 } }
/-- A copy of 8 bytes, from near memory or from an address without a page. -/
def copying (src : Nat) : State := tasked (task0 (.copy src 0x41000 8 false false) .running none)
/-- A queued instance of a graph object of one card at 0x42000 in near memory. -/
def queued : State :=
  let s := objects []
  { s with
    near := Mem.write (Mem.write s.near 0x42000 8 0x4F47) 0x42038 8 0x40
    instances := [{ slot := 0, asid := 0, object := 0x42000, index := 0, order := 7, started := false, team := 0, party := 0, core := 0, done := none
                    step := 0, pc := 0x10000 }] }
theorem wit_TaskEvents : (let sig := tasked (task0 .signal .ready none)
    let k := task0 (.copy 0x40000 0x41000 8 false false) .running none
    let c := (copying 0x40000).raised
    let r := c.runJob 5 (k.total + 1)
    let l := task0 (.launch 0x40000 0 0) .running (some 0)
    let p := (copying 0x8000000000).raised.runJob 5 (k.total + 1)
    let x := (queued.instances.head?).map fun x => x.order
    let put := tasked (task0 (.contribution 3 0x40000) .ready none)
    let w := { task0 (.copy 0x40000 0x41000 8 false false) .running none with regions := [{ team := some 0, base := 0, length := 8, write := true }] }
    let past := ({ (tasked w).setTeam 0 { (tasked w).team 0 with drainFrom := some 0 } with now := 42000 } : State).raised
    sig.running && (sig.task 5).isSome && sig.raised.mayStart (task0 .signal .ready none)
      && put.raised.mayStart (task0 (.contribution 3 0x40000) .ready none) && k.failed == none && l.failed == none
      && c.running && !c.windowAway k && !c.drainedOut k && r.2.isNone && past.running && !past.windowAway w && past.drainedOut w
      && (tasked l).running && !(tasked l).raised.windowAway l && !(tasked l).raised.drainedOut l && (tasked l).raised.disp.launches == []
      && !(copying 0x8000000000).raised.drainedOut (task0 (.copy 0x8000000000 0x41000 8 false false) .running none)
      && (match p.2 with | some (.park _ _ _) => true | _ => false)
      && queued.running && x == some 7
      && (match queued.raised.readAs 0 0x42000 64 64 with
        | .ok v => decide ((graphOf v).ncards ≤ queued.raised.freeEntries) && (graphOf v).nbind == 0 && (graphOf v).pwords == 0
        | _ => false)
      && (match queued.instances.head? with
        | some x => (match queued.raised.instanceCards x (graphOf (0x40 * 2 ^ 448 + 0x4F47)) [] 0 [0] with | .ok _ => true | _ => false)
        | none => false)) = true := by decide +kernel

/-- A checkpoint drains to an endpoint, one to this module, one that has broken is to end; a frame is to be published, and the tide is on:
entry 4 is live and entry 5 late, both long silent. -/
def tidal (on : Bool) : State :=
  let s := trained false false []
  { s with
    publishing := [(0x5000, 0)], ckpts := [(2, { state := 1, kind := 1, target := 9 }), (3, { state := 1 }), (4, { state := 1, broken := true })]
    now := 0x50000000
    ctrl := { s.ctrl with tideEnable := on, ueptValid := true }
    near := Mem.write s.near (32 * 9) 1 2
    fab := { conns := [(1030, some 17)], ports := [(24, some { state := 2, width := 4 })] }
    tide := { due := true, entries := [(4, { state := 0, module := 3 }), (5, { state := 1, module := 4 }), (6, { state := 0, module := 1030 })] } }
theorem wit_StepEvents : (let s := tidal true
    let b := s.raised
    s.running && b.publishing.contains (0x5000, 0) && (s.ckpt 2).state == 1 && !(s.ckpt 2).broken && (s.ckpt 4).broken && (s.ckpt 4).state == 1 && !b.ckptIsHere (s.ckpt 2) && !b.ckptAwaits (s.ckpt 2)
      && b.ckptIsHere (s.ckpt 3) && !(s.ckpt 3).broken && (s.ckpt 3).state == 1 && (tidal false).running && (0x10000#64).getLsbD 16
      && !(tidal false).ctrl.tideEnable && b.beaconDue && b.reaches 3 && b.reaches 1030 && b.routePorts 1030 == [24] && s.systemModule == 0 && s.ctrl.tideEnable && FMap.wf {} s.tide.entries
      && (s.tideEntry 4).state == 0 && (s.tideEntry 4).module.toNat != s.systemModule
      && decide ((s.tideEntry 4).silentFrom + 4096 * s.ctrl.late.toNat ≤ s.now)
      && (s.tideEntry 5).covered && s.ctrl.absent != 0 && decide ((s.tideEntry 5).silentFrom + 65536 * s.ctrl.absent.toNat ≤ s.now)) = true := by
  decide +kernel

/-- Every UALink port is down, port 0 after three replays or none; Ethernet port 24 is up, and port 25 down. -/
def ports (up : Bool) : FMap (Option Port) :=
  ((List.range 24).map fun p => (p, some { state := if p = 0 ∧ up = true then 2 else 4, recent := if p = 0 then [3, 3, 3] else [] }))
    ++ [(24, some { state := 2, width := 4 }), (25, some { state := 4 })]
/-- A request of module 1 to this one; the ingress of its core expects sequence number 1 and keeps the answer of 0. -/
def request (seq : Nat) : PeerReq :=
  { src := 1, dst := 0, core := 2, asid := 0, seq := seq, op := .load, code := 0, ty := 0, strand := 0
    lanes := [{ lane := 0, addr := 0x40000, size := 4, x := 0, y := 0 }] }
/-- Requests of core 2 to module 1 are outstanding: a load, numbered 0, and a drained line, numbered 1. -/
def asking : State :=
  let o := fun (seq : Nat) (reads : Bool) => ({
    req := { request seq with src := 0, dst := 1, op := if reads then .load else .store }, team := 0, party := 0, pc := 0x10000, word := none
    tag := 1, dests := [[.v 3]], lanes := [], carried := [], reads := reads, index := 0, fetch := false } : Outstanding)
  { mapped (strand lane0) with
    cores := [(2, { chans := [(1, { nextSeq := 2, out := [o 0 true, o 1 false] })] })]
    fab := { ports := ports false, ingress := [(2050, { next := 1, stored := [(0, 4, .data [7])] })] } }
/-- Requests 2 and 3 come ahead of 1, of which 3 is kept; an engine job's load, numbered 2, its store, numbered 3, and the load of a
launch window's header, numbered 4, are outstanding; ports 0 and 24 are up, and module 1030 is connected over port 24. -/
def linked : State :=
  let o := fun (seq : Nat) (reads : Bool) => ({
    req := { request seq with src := 0, dst := 1, op := if reads then .load else .store }, team := 0, party := jobParty, pc := 0x10000, word := none
    tag := 0, dests := [[]], lanes := [], carried := [], reads := reads, index := 0, fetch := false, task := some 5 } : Outstanding)
  { mapped (strand lane0) with
    cores := [(2, { chans := [(1, { nextSeq := 5, out := [o 2 true, o 3 false, { o 4 true with task := none, window := some 4 }] })] })]
    now := 0x10000
    ctrl := { (strand lane0).ctrl with lossto := 1, errthr := 3 }
    fab := { ingress := [(2050, { next := 1, ahead := [request 3] })], routeless := [(7, 1)]
             ports := ports true, conns := [(1030, some 17)]
             unacked := [{ module := 1030, number := 8, bulk := false, packet := .msix 0 }] } }
theorem wit_FabricEvents : (let s := asking
    let g : Ingress := FMap.get {} s.fab.ingress 2050
    s.running && (request 0).dst == s.module && g.next == 1 && (request 1).src != s.module && s.ingressOf (request 1) == g
      && (g.stored.find? fun e => e.1 == (request 0).seq) == some (0, 4, .data [7])
      && ((s.raised.takeOutstanding 2 1 0).map fun q => q.1.reads && q.1.task == none && q.1.window == none) == some true
      && ((s.raised.takeOutstanding 2 1 1).map fun q => !q.1.reads && q.1.task == none && q.1.party != jobParty) == some true && !s.lost 7
      && s.raised.routePorts 7 == [] && FMap.get 0 s.fab.routeless 7 == 0) = true := by decide +kernel
theorem wit_FabricOrder : (let s := linked
    let g : Ingress := s.ingressOf (request 2)
    s.running && decide (g.next < 2) && !(g.ahead.any fun q => q.seq == 2) && (g.ahead.any fun q => q.seq == 3)
      && decide (0 < g.next) && (g.stored.find? fun e => e.1 == 0) == none
      && ((s.raised.takeOutstanding 2 1 2).map fun q => q.1.reads && q.1.task == some 5 && q.1.window == none) == some true
      && ((s.raised.takeOutstanding 2 1 4).map fun q => q.1.reads && q.1.window == some 4) == some true
      && ((s.raised.takeOutstanding 2 1 3).map fun q => !q.1.reads && q.1.task == some 5) == some true) = true := by decide +kernel
theorem wit_FabricLinks : (let s := linked
    let recent := fun (p : Nat) => s.now :: (s.port p).recent.filter fun c => decide (s.now < c + 65536)
    let off := { asking with ctrl := s.ctrl }
    let far : State := { s with now := 0, fab := { s.fab with ports := [(24, some { state := 4 }), (25, some { state := 1 })], routeless := [] } }
    decide (s.ctrl.errthr.toNat < (recent 0).length) && (s.port 0).up && !(s.port 3).up && decide ((recent 24).length ≤ s.ctrl.errthr.toNat)
      && !s.lost 7 && !s.lost 1030 && s.raised.routePorts 1030 == [24] && off.raised.routePorts 7 == []
      && State.lossDue { off with fab := { off.fab with routeless := [(7, 1)] }, now := 0x10000 }.raised 7
      && !far.lost 1030 && far.raised.routePorts 1030 == [] && !far.raised.lossDue 1030 && FMap.get 0 far.fab.routeless 1030 == 0
      && !State.lossDue { far with fab := { far.fab with routeless := [(1030, 1)] } }.raised 1030
      && State.lossDue { far with now := 1024 }.raised 1030 && (far.port 25).state == 1 && (far.port 24).state != 1
      && 1030 / 1024 != s.pod && (s.fab.unacked.any fun u => u.module == 1030 && u.number != 9)
      && (s.fab.unacked.all fun u => u.module != 1030 || u.number == 8) && 7 / 1024 == s.pod) = true := by decide +kernel

/-- Collective 3 of one member, this module, with a timer and its chunk's first contribution long since arrived; a partial waits in the
adder, whose window is on or off. -/
def part : Contribution := 
  { step := 0, shares := [{ member := 0, counts := [some 1], sat := false, inexact := false, nan := false, empty := false }] }
def collective (window : BitVec 12) : State :=
  let s := strand lane0
  { s with
    colls := [(3, { isOpen := true, record := { members := [0], timer := 4 }, owned := [(0, { open_ := some 0, since := some 0 })] })]
    fab := { combining := [{ handle := 3, chunk := 0, step := 0, parts := part, since := 0 }
                           , { handle := 3, chunk := 0, step := 2, parts := part, since := 4900 }] }
    ctrl := { s.ctrl with window := window }, now := 5000 }
theorem wit_CollectiveEvents : (let s := collective 256
    let C := s.coll 3
    s.running && C.isOpen && C.record.moduleOf (C.record.owner 0) == s.systemModule && decide (0 < C.record.chunks)
      && (C.chunk 0).since == some 0 && C.record.timer != 0 && decide (0 + 1024 * C.record.timer ≤ s.now)
      && !((C.gaugeOf 0).got.any fun e => e.1 == 0) && (collective 0).running && ((collective 0).coll 3).isOpen
      && (collective 0).ctrl.window == 0 && s.ctrl.window != 0
      && !(s.fab.combining.any fun w => w.handle == 3 && w.chunk == 0 && w.step == 1)
      && (s.fab.combining.any fun w => w.handle == 3 && w.chunk == 0 && w.step == 2 && decide (s.now < w.since + s.ctrl.window.toNat))
      && (C.chunk 0).tooEarly { part with step := 2 } && C.ownShares part != [] && !(C.chunk 0).tooEarly part
      && decide (C.record.total ≤ 64) && C.ownShares { step := 2, shares := [] } == [] && !s.moreArrivals 3 0 && State.moreArrivals { s with agenda := [.event (.collContributionArrival 3 0 part)] } 3 0
      && (s.fab.combining.any fun w => w.handle == 3 && w.chunk == 0 && w.step == 0 && decide (w.since + s.ctrl.window.toNat ≤ s.now))) = true := by
  decide +kernel

/-- The pattern is on, its head an entry with or without a kernel, and a strand waits for it. -/
def patterned (on : Bool) (kernel : Nat) : State :=
  let s := strand { lane0 with wait := .patNext 0 4 0 }
  { s with ctrl := { s.ctrl with patEnable := on }, pat := { entries := [BitVec.ofNat 256 (2 ^ 128 * kernel)], credit := 3 } }
theorem wit_PatternEvents : (let s := patterned true 0
    let k := patterned true 0x40000
    s.running && s.patServes 0 && decide (s.pat.credit < 255) && s.ctrl.patEnable && !s.pat.stopped
      && (match s.patHead with | some e => (s.patUnmet e).isNone && e.kernel == 0 | none => false) && s.raised.patNextWaiter.isSome
      && k.running && (match k.patHead with | some e => (k.patUnmet e).isNone && e.kernel != 0 | none => false)
      && (1#64).getLsbD 0 && (patterned false 0).running && !(patterned false 0).ctrl.patEnable && !(0#64).getLsbD 0) = true := by
  decide +kernel

/-- A team with one strand, running or halted; a trace buffer with a record and one with lost records; DBGSEL names s0. -/
def debugged (h : Halt) : State :=
  let s := strand lane0
  { s.setTeam 0 { s.team 0 with halt := h } with
    dbg := { dies := [(0, { buffer := [0] }), (1, { lost := 3 })], sampEnable := true, sel := 0x0100000000 } }
theorem wit_DebugEvents : (let s := debugged .running
    let h := debugged .halted
    s.running && s.dbg.sampEnable && decide (s.dbg.sampAt ≤ s.now) && s.teams == [(0, s.team 0)] && (s.team 0).parties == [(0, s.party 0 0)] && (s.party 0 0).core == 0
      && (s.raised.sampleParty 0).isSome && (s.traceDie 0).buffer == [0] && (s.traceDie 1).lost != 0
      && decide ((s.traceDie 1).buffer.length < 131072) && s.named 0x400000000000 == some 0 && (0x400000000000#64).getLsbD 46
      && !(0x400000000000#64).getLsbD 47 && (s.team 0).resident && (s.team 0).halt == .running
      && ((debugged (.handler 0)).team 0).halt == .handler 0 && !State.reset.dbg.sampEnable
      && h.running && (0x800000000000#64).getLsbD 47 && !(0x800000000000#64).getLsbD 46 && h.named 0x800000000000 == some 0
      && (h.team 0).resident && (h.team 0).halt == .halted && ((h.team 0).parties.all fun e => e.2.save == none)
      && !h.host.powerOff && h.raised.readSelected.isSome && (h.raised.writeSelected 5).isSome) = true := by decide +kernel

/-- DBGSEL selects near memory, in a module whose semaphore nobody, port 1 or port 2 holds. -/
def managed (owner : BitVec 2) : State :=
  { State.reset with dbg := { sel := 0x0600000000 }, host := { semOwner := owner, mgmtDown := [(1, 6)] }, now := 2100000005 }
theorem wit_PortEvents : (let z := fun (o : BitVec 2) => ({ (managed o).raised with host := { (managed o).host with jtagIR := 0x12 } } : State)
    (managed 0).host.semOwner == 0 && !(managed 0).host.powerOff && (z 0).readSelected.isSome && ((z 0).writeSelected 1).isSome
      && FMap.get 0 (managed 1).host.mgmtDown 1 == 5 + 1 && decide (5 + 2100000000 ≤ (managed 1).now)
      && decide (({ managed 1 with now := 7 } : State).now < 5 + 2100000000) && FMap.get 0 (managed 1).host.mgmtDown 2 == 0
      && (managed 1).host.semOwner.toNat == 1 && (managed 1).host.semOwner != 0 && (managed 1).host.semOwner.toNat != 2) = true := by
  decide +kernel

/-- Key slot 0 holds a key, vector 5 is pending, and port 1 holds the semaphore. -/
def hosted : State := { State.reset with host := { keys := [(0, some 1)], pendingV := [(5, true)], semOwner := 1 } }
theorem wit_HostEvents : (let s := hosted
    s.running && decide (63 < 64) && decide (0x48 % 8 = 0) && decide (0x48 < 0x50) && decide (0 + 8 ≤ 3 * 2 ^ 39) && s.hasKey s.host.farwin.toNat && !s.isBad (.far 0 s.host.farwin.toNat) 8
      && State.isBad { s with bad := [1] } (.far 0 s.host.farwin.toNat) 8 && !State.reset.hasKey 0
      && ({ s with bad := [1] } : State).host.farwin == 0 && (({ s with ctxs := [(0, { resident := true })] } : State).ctxs.any fun e => e.2.resident)
      && !(s.ctxs.any fun e => e.2.resident) && bits (0x4000#64).toNat 15 14 == 1 && bits (0x4000#64).toNat 12 0 == 0
      && decide (3 * 2 ^ 39 < 3 * 2 ^ 39 + 1) && !(s.window 3).busy && (s.queueOwner 3).isNone
      && FMap.get false s.host.pendingV 5 && !s.host.maskAll && s.host.semOwner.toNat == 1 && !s.host.powerOff
      && !(0x40#64).getLsbD 20 && (0x100000#64).getLsbD 20 && (0#64).getLsbD 0 == s.ctrl.ueptValid && !s.dbg.trcEnable && (1#64).getLsbD 0
      && decide (s.host.temp < s.host.throttle) && !s.host.throttled && decide (0 < 8) && decide (27 < 28)
      && bits (0x4007#64).toNat 15 14 == 1 && bits (0x4007#64).toNat 12 0 != 0 && bits (0x8000#64).toNat 15 14 == 2) = true := by decide +kernel

/-- Where no field has changed since the doorbell, the busy window submits the fields as they stand (R451). -/
theorem rungFields_same {s : State} {w : Window} (h : w.rung = (w.header, w.launch, w.params)) :
    s.rungFields w = (w.header, w.launch, fun i => FMap.get 0 w.params i) := by simp [State.rungFields, h]

/-- Window 4, a queue of context 0, busy with a header at an address; window 5, beyond the grant, busy too; the queue holds n launches. -/
def rung (H : W64) (launch : W64) (n : Nat) : State :=
  let s := (mapped (strand lane0)).setCtx 0 { ctxAtWord with qgrant := w64 (3 + 2 * 64) }
  let near := [(0x50000, 8, 0x1314B4847), (0x50008, 8, 0x100), (0x50020, 8, 0x1020000000000), (0x50040, 8, 0x1314B4847)].foldl
    (fun (m : Mem) (e : Nat × Nat × Nat) => Mem.write m e.1 e.2.1 e.2.2) s.near
  ({ s with near := near, disp := { s.disp with queues := if n = 0 then [] else [(4, List.range n)] } }.setWindow 4
    { header := H, launch := launch, busy := true, rung := (H, launch, []) }).setWindow 5 { header := H, busy := true, rung := (H, 0, []) }
/-- What `State.readAs` and `parseHeader` find at a header's address: the header's params, or the detail of a refused read. -/
def headerAt (s : State) (H : Nat) : Nat × Option Nat :=
  match s.readAs 0 H 64 64 with
  | .ok v => (0, (parseHeader H v).map (·.params))
  | .error (_, .bad d) => (d, none)
  | .error _ => (99, none)
/-- A launch that is enqueued, a full queue, a header that breaks R40, one that is refused, a bad launch word, a window with no owner. -/
theorem wit_HostEvents_judge :
    ((rung 0x50000 0 0).rungFields ((rung 0x50000 0 0).window 4)).1 = 0x50000
    ∧ ((rung 0x50000 0 0).rungFields ((rung 0x50000 0 0).window 4)).2.1 = 0
    ∧ (let s := rung 0x50000 0 0
       s.queueOwner 4 == some 0 && (s.window 4).header64 == none && !s.asking 4 && !(s.ctx 0).badLaunchWord 0 && headerAt s 0x50000 == (0, some 0)
         && decide ((s.queue 4).length < 256) && decide (256 ≤ ((rung 0x50000 0 256).queue 4).length) && headerAt s 0x50040 == (0, none)
         && headerAt s 0x40000000 == (3, none) && (s.ctx 0).badLaunchWord (2 ^ 51) && (s.queueOwner 5).isNone
         && (({ s with host := { s.host with windows := s.host.windows.take 1 } } : State).host.windows.filter fun e => e.2.busy).map (·.1) == [4]) = true := by
  refine ⟨?_, ?_, by decide +kernel⟩ <;> rw [rungFields_same (by decide +kernel)] <;> decide +kernel

/-- A module that is throttled. -/
def hot : State := { State.reset with host := { throttled := true, temp := 101 } }
theorem wit_PowerEvents : (State.reset.running && decide (State.reset.host.powerCap.toNat < 4801) && decide (State.reset.host.clockState.toNat < 2)
    && decide (State.reset.host.throttle ≤ 100) && decide ((100 : W8) < State.reset.host.trip) && decide ((95 : W8) < hot.host.trip) && hot.running && hot.host.throttled && decide ((95 : W8).toNat + 5 ≤ hot.host.throttle.toNat)
    && decide (State.reset.host.trip ≤ 110)) = true := by decide +kernel

theorem wit_FrozenStaysFrozen : (let s : State := { State.reset with host := { frozen := true } }
    s.host.frozen && s.agenda == []) = true := by decide +kernel

/-! ### Single words on small states: expected values worked out by hand from the rules -/

/-- A property of the state after a word, or after one step. -/
def after (s : State) (i : Instr) (p : State → Bool) : Bool := match exec i s with | .next t => p t | _ => false
def stepped (s : State) (p : State → Bool) : Bool := match step s with | .next t => p t | _ => false
/-- Lane 0 with v2 to v5 at values. -/
def with4 (a b c d : W32) : Lane := (((lane0.setReg 2 a).setReg 3 b).setReg 4 c).setReg 5 d
/-- v1 after a word on v2 and v3. -/
def gives (t : Instr × W32 × W32 × W32) : Bool :=
  after (strand (with4 t.2.1 t.2.2.1 0 0)) t.1 fun u => (u.curParty.lane 0).reg 1 == t.2.2.2

/-- R54, R55: wrapping, clamping, high products, shift counts mod 32, and bit counts. -/
theorem test_lane_integer : ([(.add 1 2 3 0 0, 0xFFFFFFFF, 2, 1), (.add 1 2 3 2 0, 0x7FFFFFFF, 1, 0x7FFFFFFF), (.sub 1 2 3 3 0, 1, 2, 0)
    , (.sub 1 2 3 0 0, 1, 2, 0xFFFFFFFF), (.mul 1 2 3 1 0, 0x80000000, 2, 0xFFFFFFFF), (.mul 1 2 3 2 0, 0x80000000, 2, 1)
    , (.shl 1 2 3 0, 1, 33, 2), (.shr 1 2 3 0, 0x80000000, 31, 1), (.sar 1 2 3 0, 0x80000000, 31, 0xFFFFFFFF), (.rot 1 2 3 0, 0x80000001, 1, 3)
    , (.min 1 2 3 0, 0xFFFFFFFF, 1, 0xFFFFFFFF), (.max 1 2 3 0, 0xFFFFFFFF, 1, 1), (.andn 1 2 3 0, 0xFF, 0x0F, 0xF0), (.popc 1 2 0, 0xF0F, 0, 8)
    , (.clz 1 2 0, 1, 0, 31), (.clz 1 2 0, 0, 0, 32), (.brev 1 2 0, 1, 0, 0x80000000), (.bfe 1 2 3 0, 0x12345678, 0x804, 0x67)
    , (.addi 1 2 (-1) 0, 0, 0, 0xFFFFFFFF), (.andi 1 2 (-2) 0, 0xFF, 0, 0xFE), (.shri 1 2 4 0, 0xFF, 0, 0xF), (.li 1 0x8000 0, 0, 0, 0xFFFF8000)
    , (.lih 1 0x1234 0, 0, 0, 0x12340000)] : List (Instr × W32 × W32 × W32)).all gives = true := by decide +kernel

/-- R60, R64, R66, R71, R73: 1 + 2, 1 − 1, 3 × ½, the minimum of the zeros, ¼ and √9, the class of +∞, a signed copy. -/
theorem test_lane_float : ([(.fadd 1 2 3 0 0, 0x3F800000, 0x40000000, 0x40400000), (.fsub 1 2 3 0 0, 0x3F800000, 0x3F800000, 0)
    , (.fmul 1 2 3 0 0, 0x40400000, 0x3F000000, 0x3FC00000), (.fmin 1 2 3 0 0, 0x80000000, 0, 0x80000000)
    , (.rcp 1 2 0 0, 0x40800000, 0, 0x3E800000), (.sqrt 1 2 0 0, 0x41100000, 0, 0x40400000), (.fsgn 1 2 3 1 0, 0x3F800000, 0, 0xBF800000)
    , (.fadd 1 2 3 2 0, 0x3C003C00, 0x40003C00, 0x42004000)] : List (Instr × W32 × W32 × W32)).all gives = true := by decide +kernel

/-- R61, R62: dividing by zero raises DZ and gives +∞; 2^24 + 1 is inexact and rounds to even. -/
theorem test_float_flags :
    after (strand (with4 0 0 0 0)) (.rcp 1 2 0 0) (fun u => (u.curParty.lane 0).reg 1 == 0x7F800000 && (u.curParty.lane 0).fflags == 8) = true
    ∧ after (strand (with4 0x4B800000 0x3F800000 0 0)) (.fadd 1 2 3 0 0)
        (fun u => (u.curParty.lane 0).reg 1 == 0x4B800000 && (u.curParty.lane 0).fflags == 1) = true := by decide +kernel

/-- R56: −1 < 1 as .s32 and not as .n32; a comparison ANDed into its flag. -/
theorem test_cmp :
    after (strand (with4 0xFFFFFFFF 1 0 0)) (.cmp 0b0001001 2 3 0 0) (fun u => (u.curParty.lane 0).flag 1) = true
    ∧ after (strand (with4 0xFFFFFFFF 1 0 0)) (.cmp 0b0001001 2 3 1 0) (fun u => !(u.curParty.lane 0).flag 1) = true
    ∧ after (strand (with4 1 1 0 0)) (.cmp 0b0100001 2 3 0 0) (fun u => !(u.curParty.lane 0).flag 1) = true := by decide +kernel

/-- R114: the published known answer of Philox4×32-10 for a zero counter and key. -/
theorem test_rand : after (strand lane0) (.rand 8 12 16 0 0) (fun u => (List.range 4).map (fun k => (u.curParty.lane 0).reg (8 + k))
    == [0x6627E8D5, 0xE169C58D, 0xBC57AC4C, 0x9B00DBD8]) = true := by decide +kernel

/-- Three lanes at one word, lane 5 the last to come. -/
def trio (i : Instr) (p : State → Bool) : Bool :=
  let x := fun (k : Nat) (w : Wait) => { lane0 with wait := w, v := [(2, w32 (10 + k)), (3, 1)], c := if k = 1 then 1 else 0 }
  after (stand 0 { party0 false lane0 with lanes := [(0, x 0 .crossLane), (1, x 1 .crossLane), (5, x 5 .none)] } [5]) i p
/-- R78 to R82, R85: lanes 0, 1 and 5 hold 10, 11 and 15 in v2; the ballot of c0 is lane 1; the prefix sums are 10, 21 and 36. -/
theorem test_cross_lane :
    trio (.shfl 1 2 3 2 0) (fun u => [0, 1, 5].map (fun l => (u.curParty.lane l).reg 1) == [11, 11, 15]) = true
    ∧ trio (.voteBallot 4 0 0) (fun u => [0, 1, 5].map (fun l => (u.curParty.lane l).reg 4) == [2, 2, 2]) = true
    ∧ trio (.scan 1 2 0 0) (fun u => [0, 1, 5].map (fun l => (u.curParty.lane l).reg 1) == [10, 21, 36]) = true
    ∧ trio (.matchLanes 4 3 0 0) (fun u => [0, 1, 5].map (fun l => (u.curParty.lane l).reg 4) == [35, 35, 35]) = true
    ∧ trio (.redsInt 1 2 2 0 0) (fun u => [0, 1, 5].map (fun l => (u.curParty.lane l).reg 1) == [15, 15, 15]) = true
    ∧ trio (.elect 2 0) (fun u => [0, 1, 5].map (fun l => (u.curParty.lane l).flag 2) == [true, false, false]) = true := by decide +kernel

/-- s1 after a word on s2 and s3. -/
def givesS (t : Instr × W64 × W64 × W64) : Bool :=
  after (withS ([(2, t.2.1), (3, t.2.2.1)].filter fun e => e.2 != 0)) t.1 fun u => u.curParty.sreg 1 == t.2.2.2
/-- R121, R124: 64-bit wrapping, high products, and immediates. -/
theorem test_uniform : ([(.sadd 1 2 3 0, 0xFFFFFFFFFFFFFFFF, 2, 1), (.smul 1 2 3 1 0, 0x8000000000000000, 2, 0xFFFFFFFFFFFFFFFF)
    , (.smul 1 2 3 2 0, 0x8000000000000000, 2, 1), (.sshl 1 2 3 0, 1, 65, 2), (.ssar 1 2 3 0, 0x8000000000000000, 63, 0xFFFFFFFFFFFFFFFF)
    , (.smin 1 2 3 0, 0xFFFFFFFFFFFFFFFF, 1, 0xFFFFFFFFFFFFFFFF), (.saddi 1 2 (-1) 0, 0, 0, 0xFFFFFFFFFFFFFFFF)
    , (.sli 1 0x400 0, 0, 0, 0xFFFFFFFFFFFFFC00), (.slik 1 33 5 0, 0, 0, 0xA00000000)] : List (Instr × W64 × W64 × W64)).all givesS = true := by
  decide +kernel

/-- R88, R89, R126, R127: targets in words from the word itself; a call pushes the address behind it and `ret` goes there. -/
theorem test_control :
    after (strand lane0) (.bra 0 (-1) 0) (fun u => (u.curParty.lane 0).pc == 0xFFFC) = true
    ∧ after (strand lane0) (.bra 1 7 0) (fun u => (u.curParty.lane 0).pc == 0x10004) = true
    ∧ after (strand lane0) (.call 4 0) (fun u => (u.curParty.lane 0).pc == 0x10010 && (u.curParty.lane 0).stack == [0x10004]) = true
    ∧ after (strand { lane0 with stack := [0x30000], depth := 1 }) (.ret 0) (fun u =>
        (u.curParty.lane 0).pc == 0x30000 && (u.curParty.lane 0).stack == []) = true
    ∧ after (strand lane0) (.ret 0) (fun u => u.curParty.fault.toNat / 2 ^ 60 == 2) = true
    ∧ after (jumps lane0 []) (.brx 1 0) (fun u => (u.curParty.lane 0).pc == 0x20010) = true := by decide +kernel

/-- R7, R98: the bytes of 0x11223344 stored at offset 4092 of the window; a byte load is zero-extended. -/
theorem test_memory :
    after ((stores 0).setLane 0 0 0 (with4 0x11223344 4092 0 0)) (.stW 2 3 0 0 0 0)
      (fun u => [4092, 4093, 4094, 4095].map (FMap.get 0 u.curTeam.mem) == [0x44, 0x33, 0x22, 0x11]) = true
    ∧ after ((stores 0).setLane 0 0 0 (with4 0 65 0 0)) (.ldB 1 3 0 0 0 0) (fun u => (u.curParty.lane 0).reg 1 == 0xCD) = true
    ∧ after ((stores 0).setLane 0 0 0 (with4 0 4093 0 0)) (.stW 2 3 0 0 0 0)
        (fun u => u.curParty.fault.toNat / 2 ^ 60 == 4 && u.curTeam.halt == .skid 0 0) = true := by decide +kernel

/-- R106, R112: `atom` adds 5 to 1 and returns 1; a pop takes the item 0xCDAB and a push puts one at the tail. -/
theorem test_atoms :
    after ((stores 0).setLane 0 0 0 (with4 5 4 0 0)) (.atom 2 3 0 0 0 0)
      (fun u => (u.curParty.lane 0).reg 2 == 1 && FMap.get 0 u.curTeam.mem 4 == 6) = true
    ∧ after (stores 0) (.qopPop 2 1 0 0) (fun u => (u.curParty.lane 0).reg 2 == 0xCDAB && (u.curParty.lane 0).flag 0
        && FMap.get 0 u.curTeam.mem 0 == 1) = true
    ∧ after ((stores 0).setLane 0 0 0 (with4 7 0 0 0)) (.qopPush 2 1 0 0) (fun u => FMap.get 0 u.curTeam.mem 68 == 7
        && FMap.get 0 u.curTeam.mem 4 == 2 && (u.curParty.lane 0).flag 0) = true := by decide +kernel

/-- R145, R148, R152: 3 × 2 enters row 0, column 0 of tile 0 at anchor 0 as 6, and drains as the FP32 6. -/
theorem test_matrix :
    (let s := arrayed true [(2, 0x10000001000), (4, 1)] 0
     let s := s.setParty 0 64 { s.party 0 64 with w0 := { loaded := true, w := [(0, 0x40000000)] } }
     let s := s.setTeam 0 { s.team 0 with mem := Mem.write (s.team 0).mem 0x1000 4 0x40400000 }
     after s (.mma 0 2 4 0) fun u => (u.tile 0).entry 0 0 == 6 && (u.tile 0).entry 0 1 == 0) = true
    ∧ (let s := arrayed true [(2, 0x3F80000000000001), (4, 0x10000001000)] 0
       let s := s.setTeam 0 { s.team 0 with tiles := [(0, { allocated := true, e := [(0, 6)] })] }
       after s (.accRd 0 2 4 0 0) fun u => Mem.read u.curTeam.mem 0x1000 8 == 0x40C00000) = true := by decide +kernel

/-- R161: with e = 2 the second arrival completes the phase; a party may be one phase ahead. -/
theorem test_barrier : (let b : Barrier := { e := 2 }
    let c := b.arrive 0
    let d := c.arrive 0
    let e := d.arrive 1
    c.phase == 0 && c.a == 1 && d.n == 1 && d.ahead 0 && e.phase == 1 && e.a == 1 && e.n == 0) = true := by decide +kernel

/-- R451, R464: a doorbell leaves window 4 busy; judged, its launch is in the queue with result 0; window 5, beyond the grant, ends with
result 1. -/
theorem test_doorbell :
    after ((rung 0x50000 0 0).setWindow 4 { header := 0x50000 }) (.doorbell 4) (fun u => (u.window 4).busy && (u.queue 4).isEmpty) = true
    ∧ (((rung 0x50000 0 0).judge 4).window 4).busy = false ∧ (((rung 0x50000 0 0).judge 4).window 4).result = 0
    ∧ ((rung 0x50000 0 0).judge 4).queue 4 = [0] ∧ (((rung 0x50000 0 0).judge 5).window 5).result = 1 := by
  refine ⟨by decide +kernel, ?_, ?_, ?_, ?_⟩ <;> rw [State.judge, rungFields_same (by decide +kernel)] <;> decide +kernel

/-- R175: strands that come to `step.enter` with steps 6 and 5 both trap with detail 3. -/
theorem test_step_disagreement : (let s := withS [(1, 6)]
    let other := party0 false { lane0 with wait := .stepTeam 5 }
    let s := s.setTeam 0 { s.team 0 with parties := (s.team 0).parties ++ [(1, other)] }
    after s (.stepEnter 1 0) fun u => (u.party 0 0).fault == 0x1003FF0000000000 && (u.party 0 1).fault == 0x1003FF0000000000) = true := by
  decide +kernel

/-- R135, R186: the fields of sr.fault after `trap`; the lane stands behind the word. -/
theorem test_trap : after (strand lane0) (.trap 1 2 0) (fun u => u.curParty.fault == 0xD000FF0000000042
    && (u.curParty.lane 0).pc == 0x10004 && u.curTeam.halt == .skid 0 0) = true := by decide +kernel

/-- R206, R212: one step fetches, decodes and runs a word: `addi v1, v2, 5`; an illegal word traps with kind 1, detail 1. -/
theorem test_step :
    stepped (State.reset.withFetchWord 32 0x16041014) (fun u => ((u.party 0 0).lane 0).reg 1 == 5 && ((u.party 0 0).lane 0).pc == 0x10004) = true
    ∧ stepped (State.reset.withFetchWord 32 0) (fun u => (u.party 0 0).fault.toNat / 2 ^ 60 == 1
        && bits (u.party 0 0).fault.toNat 55 48 == 1 && (u.team 0).halt == .skid 0 0) = true := by decide +kernel

end Sys2Proof.Tests
end

section
/-! PROOFS. Every instruction answers, and a step that does not. -/

namespace Sys2Proof.Machine

open Sys2Proof

/-- What running an instruction can be: an event answers a next state, and a word is its effect behind the gate. -/
theorem exec_cases (i : Instr) (s : State) :
    (isEvent i = true ∧ ∃ t, exec i s = .next t) ∨ (isEvent i = false ∧ ∃ body, exec i s = gate i s body) := by
  cases i with
  | pendingRegisterWrite | barTryTimeout | teamPlace | dispatchSwap | parkedShareSwitch | engdrainExpiry | teamRetire | taskStart
  | jobComplete | jobPark | replayInstanceStart | contextTeardown | teamHalt | frameOpenRetry | framePublish | stalenessFault
  | wcbAgeDrain | wcbFlush | peerRequestReceive | peerResponseLand | peerAckLand | linkReplay | linkRetrain | moduleUnreachable
  | tideEnable | tideBeaconSend | tideBeaconReceive | tideLateExpiry | tideAbsentExpiry | collContributionArrival | collTimerClose
  | collCloseReceive | gaugeDigestReceive | partialArrival | combineWindowExpiry | ckptDrainEnd | patternSignalReceive
  | creditReceive | patternHandout | patcfgEnable | patcfgDisable | sampleTick | traceFrameSend | traceOverflowRecord | debugHalt
  | debugRelease | dbgdataRead | dbgdataWrite | freezePin | mgmtFreeze | jtagExtest | jtagIdcode | jtagSamplePreload | jtagFreeze
  | jtagDsel | jtagDdata | jtagBypass | hostFarRead | hostFarWrite | doorbell | msixUnmask | mgmtsemAcquire | mgmtsemRelease
  | mgmtLinkLossRelease | identity | attest | bringUp | keyLoad | keyEmpty | powerCapThrottle | thermalThrottle | thermalTrip
  | registerWrite | longWordUnitComplete | endToEndAckReceive | thermalThrottleRelease => exact .inl ⟨rfl, _, rfl⟩
  | _ => exact .inr ⟨rfl, _, rfl⟩

/-- The gate answers a next state when a live resident team's lanes issue. -/
theorem gate_answers {s : State} (h : s.issuing = true) (i : Instr) (body : State → State) : ∃ t, gate i s body = .next t :=
  ⟨_, if_pos h⟩

/-- Settles O7: an event always answers, and a word answers because its team issues. -/
theorem everyInstructionAnswers : Obligations.EveryInstructionAnswers := by
  intro s i h
  rcases exec_cases i s with ⟨-, answers⟩ | ⟨-, body, hbody⟩
  · exact answers
  · rw [hbody]
    exact gate_answers h i body

/-- A running module that is about to receive unit 0 of module 1 again, which it has refused before, where the unit's event is the word
`add` and no team issues. -/
def wordAsUnit : State := { State.reset with
  agenda := [.outside (.unit 1 0 (.add 0 0 0 0 0))]
  fab := { State.reset.fab with inbound := [(1, { refused := [0] })] } }

/-- The word is run as the unit's event, and the gate finds no issuing party. -/
theorem step_wordAsUnit : step wordAsUnit = .fault .noIssuingParty := by rfl

/-- Refutes O8: a unit that comes again after it was refused is run as it is, and where it is a word and no event of a delivery, the
step stops with `noIssuingParty`. -/
theorem not_stepAlwaysAnswers : ¬ Obligations.StepAlwaysAnswers := by
  intro h
  obtain ⟨t, ht⟩ := h wordAsUnit
  rw [step_wordAsUnit] at ht
  cases ht

/-- Settles O9, from the laws of byte tables, with 2 ^ (8 * n) for 256 ^ n. -/
theorem littleEndian : Obligations.LittleEndian := by
  intro m a n v
  refine ⟨?_, fun x => ?_⟩
  · rw [Mem.read_write_same, Nat.pow_mul]
  · rw [Mem.get_write, Nat.pow_mul]

end Sys2Proof.Machine
end

section
/-! PROOFS. The placing of a launch's next team (R4, R42, R197). -/

namespace Sys2Proof

/-- A table whose first keys are 0 to n - 1. -/
theorem FMap.get_range_append {α : Type} (d : α) (f : Nat → α) (n : Nat) (m : List (Nat × α)) (k : Nat) :
    FMap.get d ((List.range n).map (fun i => (i, f i)) ++ m) k = if k < n then f k else FMap.get d m k := by
  induction n generalizing m with
  | zero => simp
  | succ n ih =>
    rw [List.range_succ, List.map_append, List.append_assoc, ih]
    by_cases h : k = n
    · simp [h, FMap.get]
    · have : ¬ n = k := fun e => h e.symm
      have e : k < n + 1 ↔ k < n := by omega
      simp [FMap.get, this, e]

/-- A table of the keys 0 to n - 1. -/
theorem FMap.get_range (d : α) (f : Nat → α) (n k : Nat) :
    FMap.get d ((List.range n).map fun i => (i, f i)) k = if k < n then f k else d := by
  simpa using FMap.get_range_append d f n [] k

/-- A list written to a table key by key, from key b + j on. -/
theorem FMap.get_foldl_zipIdx [DecidableEq α] (d : α) (b : Nat) (xs : List α) (j : Nat) (m : List (Nat × α)) (n : Nat) :
    FMap.get d ((xs.zipIdx j).foldl (fun m e => FMap.set d m (b + e.2) e.1) m) n
      = if b + j ≤ n ∧ n < b + j + xs.length then xs[n - (b + j)]?.getD d else FMap.get d m n := by
  induction xs generalizing j m with
  | nil => simp
  | cons x t ih =>
    rw [List.zipIdx_cons, List.foldl_cons, ih, FMap.get_set, List.length_cons]
    by_cases h : n = b + j
    · simp [h]
    · by_cases h1 : b + j ≤ n
      · have e : n - (b + j) = (n - (b + (j + 1))) + 1 := by omega
        rw [e, List.getElem?_cons_succ]
        grind
      · grind

end Sys2Proof

namespace Sys2Proof.Machine

open Sys2Proof

/-- State u is state s as far as teams go, but for the issue ports of team t's parties (R206). -/
structure State.SameButPorts (t : Nat) (s u : State) : Prop where
  others : ∀ j, j ≠ t → u.team j = s.team j
  team : { u.team t with parties := (s.team t).parties } = s.team t
  parties : ∀ k, { u.party t k with port := (s.party t k).port } = s.party t k

theorem State.SameButPorts.refl (t : Nat) (s : State) : State.SameButPorts t s s := ⟨fun _ _ => rfl, rfl, fun _ => rfl⟩

theorem State.SameButPorts.trans {t : Nat} {s u v : State} (h : State.SameButPorts t s u) (g : State.SameButPorts t u v) :
    State.SameButPorts t s v := by
  refine ⟨fun j hj => (g.others j hj).trans (h.others j hj), ?_, fun k => ?_⟩
  · exact (congrArg (fun T : Team => { T with parties := (s.team t).parties }) g.team).trans h.team
  · exact (congrArg (fun P : Party => { P with port := (s.party t k).port }) (g.parties k)).trans (h.parties k)

theorem State.sameButPorts_setPort (s : State) (t k c : Nat) (p : Bool) (K : Core) :
    State.SameButPorts t s ((s.setParty t k { s.party t k with port := p }).setCore c K) := by
  refine ⟨fun j hj => ?_, ?_, fun j => ?_⟩
  · exact (State.team_setParty ..).trans (if_neg hj)
  · show ({ (State.setParty ..).team t with parties := _ } : Team) = _
    rw [State.team_setParty, if_pos rfl]; rfl
  · show ({ (State.setParty ..).party t j with port := _ } : Party) = _
    rw [State.party_setParty]
    split
    · next h => rw [h.2]
    · rfl

/-- Binding a team's strands to ports changes their ports alone. -/
theorem State.sameButPorts_bindPorts (s : State) (t : Nat) : State.SameButPorts t s (s.bindPorts t) := by
  unfold State.bindPorts
  refine List.foldlRecOn _ _ (.refl t s) fun u h e _ => ?_
  split
  · exact h
  · exact h.trans (State.sameButPorts_setPort ..)

/-- A strand of a new team, whatever sequencer contexts stand behind it. -/
theorem newParties_strand (L : Launch) (core order : Nat) (sup : Bool) (now k : Nat) (h : k < L.hdr.strands) :
    FMap.get {} (newParties L core order sup now) k
      = newStrand L (if k < L.hdr.lowStrands then core else core + 1) (128 * order + k) sup now := by
  unfold newParties
  rw [FMap.get_range_append, if_pos h]

/-- A launch's parameters stand in s56 on (R42). -/
theorem newStrand_sreg (L : Launch) (core order : Nat) (sup : Bool) (now n : Nat) :
    (newStrand L core order sup now).sreg n = if 56 ≤ n then (L.params[n - 56]?).getD 0 else 0 := by
  refine (FMap.get_foldl_zipIdx 0 56 L.params 0 [] n).trans ?_
  by_cases h : n < 56 + L.params.length
  · simp [h]
  · have : L.params[n - 56]? = none := by simp; omega
    simp [h, this]

theorem newStrand_lane (L : Launch) (core order : Nat) (sup : Bool) (now l : Nat) (h : l < L.hdr.width) :
    (newStrand L core order sup now).lane l = { pc := L.hdrAddr + L.hdr.entry, exited := false, ready := now + 1 } := by
  refine (FMap.get_range ..).trans (if_pos h)

/-- The team that a launch's next placement makes, before its strands are bound to ports: `a` and `c` are its reservations. -/
def State.freshTeam (s : State) (key core : Nat) (swap : Bool) (L : Launch) (a c : Nat) : Team :=
  { live := true, resident := true, slot := L.slot, asid := (s.ctx L.slot).asid, launch := L.id, number := w32 L.placed, launchKey := key
    hdrAddr := L.hdrAddr, hdr := L.hdr, core := core
    parties := newParties L core s.disp.nextOrder ((s.ctx L.slot).control.getLsbD 8) s.now
    order := s.disp.nextOrder, lastIssue := s.now, swapIn := if swap then some s.now else none, saveAt := a, stackAt := c }

/-- A placement puts the fresh team in the table and binds its strands to ports. -/
theorem State.placeFresh_sameButPorts {s : State} {key core a c : Nat} {L : Launch} (swap : Bool) (hL : s.launch key = some L)
    (hr : s.reserve L.slot L.hdr = some (a, c)) :
    State.SameButPorts s.disp.nextTeam (s.setTeam s.disp.nextTeam (s.freshTeam key core swap L a c)) (s.placeFresh key core swap) := by
  unfold State.placeFresh
  simp only [hL, hr]
  have h := State.sameButPorts_bindPorts
  exact ⟨(h _ _).others, (h _ _).team, (h _ _).parties⟩

/-- Settles O48: the new team is `freshTeam`, and binding its strands to ports changes nothing that the statement names. -/
theorem newTeamsStartClean : Obligations.NewTeamsStartClean := by
  intro s key core a c L hL hr u T
  obtain ⟨others, team, party⟩ := State.placeFresh_sameButPorts (core := core) false hL hr
  simp only [State.party, State.team_setTeam, if_true] at team party
  refine ⟨?_, fun j hj => ?_, fun k hk => ?_⟩
  · have field {α : Type} (f : Team → α) := congrArg f team
    exact ⟨field Team.live, field Team.resident, field Team.halt, field Team.core, field Team.mem, field Team.slot⟩
  · rw [others j hj, State.team_setTeam, if_neg hj]
  · have hp : (s.freshTeam key core false L a c).party k = _ := newParties_strand L core _ _ _ k hk
    have field {α : Type} (f : Party → α) := congrArg f ((party k).trans hp)
    refine ⟨⟨field Party.seq, field Party.priv, field Party.fault⟩, fun n => ?_, fun l hl => ?_⟩
    · exact (field (Party.sreg · n)).trans (newStrand_sreg ..)
    · have lane : (T.party k).lane l = _ := (field (Party.lane · l)).trans (newStrand_lane _ _ _ _ _ l hl)
      rw [lane]
      exact ⟨rfl, rfl, rfl, rfl, fun n => by simp [Lane.reg]⟩

end Sys2Proof.Machine
end

section
/-! PROOFS. The host's events (O57). -/

namespace Sys2Proof

/-! ### Bit fields of a 64-bit word -/

theorem ofNat_bits {w hi lo : Nat} (v : W64) (h : hi + 1 - lo = w) : BitVec.ofNat w (bits v.toNat hi lo) = v.extractLsb' lo w := by
  apply BitVec.eq_of_toNat_eq
  simp [bits, h, Nat.shiftRight_eq_div_pow]

theorem ofNat_div (v : W64) (lo w : Nat) : BitVec.ofNat w (v.toNat / 2 ^ lo) = v.extractLsb' lo w := by
  apply BitVec.eq_of_toNat_eq
  simp [Nat.shiftRight_eq_div_pow]

theorem ofNat_toNat_eq_extract (v : W64) (w : Nat) : BitVec.ofNat w v.toNat = v.extractLsb' 0 w := by
  apply BitVec.eq_of_toNat_eq
  simp

theorem bit_toNat (v : W64) (i : Nat) : bit v.toNat i = v.getLsbD i := by
  rw [bit, BitVec.getLsbD, Nat.testBit_eq_decide_div_mod_eq, beq_eq_decide]

/-! ### Bytes and tables -/

theorem length_bytesOf (v n : Nat) : (bytesOf v n).length = n := by
  induction n generalizing v with
  | zero => rfl
  | succ n ih => rw [bytesOf, List.length_cons, ih]

/-- A table whose entries are each mapped, read under the mapped default. -/
theorem FMap.get_map {α β : Type} (f : α → β) (d : α) (m : List (Nat × α)) (k : Nat) :
    FMap.get (f d) (m.map fun e => (e.1, f e.2)) k = f (FMap.get d m k) := by
  induction m with
  | nil => rfl
  | cons e m ih =>
    simp only [List.map_cons, FMap.get, ih]
    split <;> rfl

end Sys2Proof

namespace Sys2Proof.Machine

open Sys2Proof

/-! ### Writes of the control window -/

/-- Registers that stand in single places of the control window, MGMTSEM apart. -/
def singleOffset (off : Nat) : Bool :=
  off != 0x1000 && off % 8 == 0
    && (decide (off < 0x2100) || decide (0x21E0 ≤ off) && decide (off < 0x4000) || decide (0x4080 ≤ off) && decide (off < 0x5008)
      || decide (0x5048 ≤ off) && decide (off < 0x10000))

theorem State.writeControl_single {off : Nat} (h : singleOffset off = true) (s : State) (port : Nat) (v : W64) :
    s.writeControl port off v = s.putControl port off v := by
  simp only [singleOffset, Bool.and_eq_true, Bool.or_eq_true, decide_eq_true_eq, bne_iff_ne, beq_iff_eq] at h
  unfold State.writeControl
  rw [if_neg (by omega), if_neg (by omega), if_neg (by omega), if_neg (by omega), if_neg (by omega), if_neg (by omega)]

/-- A module that runs has come up and is not frozen (R443, R454). -/
theorem State.running_iff (s : State) : s.running = true ↔ s.host.rststat = 5 ∧ s.host.frozen = false := by
  simp [State.running]

/-- BAR 0 reaches every register of the control window of a running module with power, MGMTSEM apart. -/
theorem exec_controlWrite {s : State} (hr : s.running = true) (hp : s.host.powerOff = false) {off : Nat} (ho : off ≠ 0x1000) (v : W64) :
    exec (.registerWrite 0 .control off v) s = .next (s.raised.writeControl 0 off v) := by
  obtain ⟨hb, hf⟩ := s.running_iff.mp hr
  show Host.Outcome.next (s.raised.writeFrom 0 off v) = _
  have ha : s.raised.answers 0 = true := by simp [State.answers, State.raised, hb, hp]
  have hf' : s.raised.host.frozen = false := hf
  have hp' : s.raised.host.powerOff = false := hp
  simp [State.writeFrom, ha, ho, hf', hp']

theorem exec_single {s : State} (hr : s.running = true) (hp : s.host.powerOff = false) {off : Nat} (ho : singleOffset off = true)
    (v : W64) :
    exec (.registerWrite 0 .control off v) s = .next (s.raised.putControl 0 off v) := by
  have h0 : off ≠ 0x1000 := by rintro rfl; exact absurd ho (by decide)
  rw [exec_controlWrite hr hp h0, State.writeControl_single ho]

/-- An event of a running module acts. -/
theorem event_running {s : State} (hr : s.running = true) (f : State → State) : event s f = .next (f s.raised) := by
  unfold event
  rw [if_pos hr]
  rfl

/-! ### Vectors, the violation log and error counts -/

/-- Raising a vector sends a message or leaves a pending bit, and does nothing else (R447). -/
theorem State.raiseVector_eq (s : State) (v : Nat) :
    ∃ p o, s.raiseVector v = { s with host := { s.host with pendingV := p }, out := o } := by
  unfold State.raiseVector
  split
  · exact ⟨_, _, rfl⟩
  · split
    · exact ⟨_, _, rfl⟩
    · exact ⟨_, _, rfl⟩

theorem State.countUncorrected_far (s : State) : s.countUncorrected.far = s.far := by
  unfold State.countUncorrected
  split
  · rfl
  · obtain ⟨p, o, e⟩ := State.raiseVector_eq { s with host := { s.host with eccUncorrected := s.host.eccUncorrected + 1 } } 5
    rw [e]

theorem State.logViolation_far (s : State) (addr word die : Nat) : (s.logViolation addr word die).far = s.far := by
  unfold State.logViolation
  obtain ⟨p, o, e⟩ := State.raiseVector_eq _ 1
  rw [e]
  rfl

/-- A Completer Abort changes no far memory. -/
theorem State.abortHost_spec (s : State) (o d a : Nat) :
    Packet.hostAbort o ∈ (s.abortHost o d a).out ∧ (s.abortHost o d a).far = s.far :=
  ⟨List.mem_cons_self, State.logViolation_far ..⟩

/-! ### Far memory through BAR 2 -/

theorem exec_hostFarRead_bad {s : State} (hr : s.running = true) {o n : Nat} (h : s.hostFails o n = none)
    (hb : s.isBad (.far o s.host.farwin.toNat) n = true) :
    exec (.hostFarRead o n) s = .next (s.raised.countUncorrected.abortHost o 4 0) := by
  have h' : s.raised.hostFails o n = none := h
  have hb' : s.raised.isBad (.far o s.raised.host.farwin.toNat) n = true := hb
  show execHostFarRead o n s = _
  rw [execHostFarRead, event_running hr]
  simp only [h', hb', if_true]

theorem exec_hostFarRead_sound {s : State} (hr : s.running = true) {o n : Nat} (h : s.hostFails o n = none)
    (hb : s.isBad (.far o s.host.farwin.toNat) n = false) :
    ∃ v, exec (.hostFarRead o n) s = .next (s.raised.send (.hostRead o (some (bytesOf v n)))) := by
  have h' : s.raised.hostFails o n = none := h
  have hb' : s.raised.isBad (.far o s.raised.host.farwin.toNat) n = false := hb
  show ∃ v, execHostFarRead o n s = _
  rw [execHostFarRead, event_running hr]
  simp only [h', hb', Bool.false_eq_true, if_false]
  exact ⟨_, rfl⟩

/-- A read and a write that fail end in a Completer Abort and leave far memory alone (R448). -/
theorem exec_hostFar_fails {s : State} (hr : s.running = true) {o n d : Nat} (h : s.hostFails o n = some d) :
    (∃ u, exec (.hostFarRead o n) s = .next u ∧ Packet.hostAbort o ∈ u.out ∧ u.far = s.far)
    ∧ ∀ bytes, bytes.length = n →
      ∃ u, exec (.hostFarWrite o bytes) s = .next u ∧ Packet.hostAbort o ∈ u.out ∧ u.far = s.far := by
  have h' : s.raised.hostFails o n = some d := h
  refine ⟨⟨s.raised.abortHost o d 0, ?_, State.abortHost_spec ..⟩,
    fun bytes hn => ⟨s.raised.abortHost o d 1, ?_, State.abortHost_spec ..⟩⟩
  · show execHostFarRead o n s = _
    rw [execHostFarRead, event_running hr]
    simp only [h']
  · show execHostFarWrite o bytes s = _
    rw [execHostFarWrite, event_running hr]
    simp only [hn, h']

theorem exec_hostFarWrite {s : State} (hr : s.running = true) {o : Nat} {bytes : List W8} (h : s.hostFails o bytes.length = none) :
    exec (.hostFarWrite o bytes) s
      = .next (s.raised.writePlace (.far o s.host.farwin.toNat) bytes.length (ofBytes bytes)) := by
  have h' : s.raised.hostFails o bytes.length = none := h
  show execHostFarWrite o bytes s = _
  rw [execHostFarWrite, event_running hr]
  simp only [h']
  rfl

/-! ### Launch windows -/

theorem State.window_setWindow (s : State) (q j : Nat) (w : Window) : (s.setWindow q w).window j = if j = q then w else s.window j :=
  FMap.get_set ..

/-- A submission that has ended leaves its window idle with its result. -/
theorem State.endWindow_window (s : State) (q n : Nat) :
    (s.endWindow q n).window q = { s.window q with busy := false, result := BitVec.ofNat 2 n, header64 := none } := by
  unfold State.endWindow
  obtain ⟨p, o, e⟩ := State.raiseVector_eq (State.forgetHeader (s.setWindow q
    { s.window q with busy := false, result := BitVec.ofNat 2 n, header64 := none }) q) (16 + q % 48)
  simp only [e]
  exact (State.window_setWindow ..).trans (if_pos rfl)

theorem State.judgeWindows_single {s : State} {q : Nat}
    (h : ((s.host.windows.filter fun e => e.2.busy).map fun e => e.1) = [q]) : s.judgeWindows = s.judge q := by
  obtain ⟨e, he, rfl⟩ := List.map_eq_singleton_iff.mp h
  rw [State.judgeWindows, he]
  rfl

section
variable {s : State} {q slot : Nat}

theorem State.judge_unowned (h : s.queueOwner q = none) : s.judge q = s.endWindow q 1 := by
  simp only [State.judge, h]

theorem State.judge_refusedHeader (h : s.queueOwner q = some slot) (hh : (s.window q).header64 = some none) :
    s.judge q = s.endWindow q 3 := by
  simp only [State.judge, h, hh]

/-- What the device submits for a window whose header it has not asked a peer for. -/
def State.submitWindow (s : State) (q slot : Nat) : State × LaunchEnd :=
  let f := s.rungFields (s.window q)
  s.launchAs slot f.1.toNat f.2.1 (some q) 8 (fun n => (List.range n).map f.2.2) (.host q) 0 0 true

/-- The header's address of a window, as submitted. -/
def State.rungHeader (s : State) (q : Nat) : Nat := (s.rungFields (s.window q)).1.toNat

/-- Window q is held by a slot, and no header is at hand or being asked for. -/
structure State.Judged (s : State) (q slot : Nat) : Prop where
  owner : s.queueOwner q = some slot
  header : (s.window q).header64 = none
  asking : s.asking q = false

/-- A launch word or header address that R464 refuses. -/
theorem State.judge_launchQueue_none (h : s.Judged q slot)
    (hq : (s.ctx slot).launchQueue (s.rungFields (s.window q)).2.1 (s.rungHeader q) (some q) = none) : s.judge q = s.endWindow q 1 := by
  unfold State.rungHeader at hq
  simp only [State.judge, h.owner, h.header, h.asking, hq, State.launchAs, windowResult, Bool.false_eq_true, if_false]

/-- A header in a peer window is asked for. -/
theorem State.judge_peer (h : s.Judged q slot) {q' m x : Nat}
    (hq : (s.ctx slot).launchQueue (s.rungFields (s.window q)).2.1 (s.rungHeader q) (some q) = some q')
    (hl : s.locate slot 0 .read (s.rungHeader q) 8 = .ok (.peer m x)) :
    s.judge q = (s.setWindow q { s.window q with rung := ((s.rungFields (s.window q)).1, (s.window q).rung.2) }).askHeader windowCore q slot
      (s.rungHeader q) m x := by
  unfold State.rungHeader at hq hl
  simp only [State.judge, h.owner, h.header, h.asking, hq, hl, Bool.false_eq_true, if_false]
  rfl

/-- Any other launch is submitted at once. -/
theorem State.judge_here (h : s.Judged q slot) (hl : ∀ m x, s.locate slot 0 .read (s.rungHeader q) 8 ≠ .ok (.peer m x)) :
    s.judge q = windowResult q (s.submitWindow q slot) := by
  unfold State.rungHeader at hl
  simp only [State.judge, h.owner, h.header, h.asking, Bool.false_eq_true, if_false]
  split
  · next hp => exact absurd hp (hl _ _)
  · rfl

/-- The submission after its header's bytes are read. -/
theorem State.submitWindow_read {v : Nat} (hq : (s.ctx slot).launchQueue (s.rungFields (s.window q)).2.1 (s.rungHeader q) (some q) = some q)
    (hv : s.readAs slot (s.rungHeader q) 64 64 = .ok v) :
    s.submitWindow q slot = s.launchHeader slot (s.rungHeader q) q v (s.rungFields (s.window q)).2.1 8
      (fun n => (List.range n).map (s.rungFields (s.window q)).2.2) (.host q) := by
  unfold State.rungHeader at hq hv
  simp only [State.submitWindow, State.launchAs, hq, hv]
  rfl

theorem State.submitWindow_readFails {a d : Nat}
    (hq : (s.ctx slot).launchQueue (s.rungFields (s.window q)).2.1 (s.rungHeader q) (some q) = some q)
    (hv : s.readAs slot (s.rungHeader q) 64 64 = .error (a, .bad d)) :
    s.submitWindow q slot = (s.logAs slot 0 0 a d .read true, .result 3) := by
  unfold State.rungHeader at hq hv
  simp only [State.submitWindow, State.launchAs, hq, hv]

/-- A header that is read whole is read here. -/
theorem State.not_peer_of_readAs {H v : Nat} (hH : H < 2 ^ 64) (h64 : H % 64 = 0) (hv : s.readAs slot H 64 64 = .ok v) (m x : Nat) :
    s.locate slot 0 .read H 8 ≠ .ok (.peer m x) := by
  intro hl
  have hk : Nat.min 64 (8 - H % 8) = 8 := by rw [show H % 8 = 0 by omega]; rfl
  unfold State.readAs at hv
  simp only [Nat.mod_eq_of_lt hH, hk, hl] at hv
  simp [State.readLoc] at hv

/-- A window whose header has been read is judged by the header. -/
theorem State.judge_read (h : s.Judged q slot) {v : Nat}
    (hq : (s.ctx slot).launchQueue (s.rungFields (s.window q)).2.1 (s.rungHeader q) (some q) = some q)
    (h64 : s.rungHeader q % 64 = 0) (hv : s.readAs slot (s.rungHeader q) 64 64 = .ok v) :
    s.judge q = windowResult q (s.launchHeader slot (s.rungHeader q) q v (s.rungFields (s.window q)).2.1 8
      (fun n => (List.range n).map (s.rungFields (s.window q)).2.2) (.host q)) := by
  rw [State.judge_here h (State.not_peer_of_readAs (BitVec.isLt _) h64 hv), State.submitWindow_read hq hv]

end

/-- A launch whose header is in order is refused for its queue, or enqueued (R41, R173, R346). -/
theorem windowResult_launchHeader {s : State} {slot q v : Nat} {a word : W64} {params : Nat → List W64} {h : Header}
    (hh : parseHeader a.toNat v = some h) :
    let r := windowResult q (s.launchHeader slot a.toNat q v word 8 params (.host q))
    let L : Launch := { slot := slot, hdrAddr := a, hdr := h, word := word, params := params h.params, queue := q, src := .host q }
    (8 < h.params ∨ 56 ≤ q ∧ h.seq = true → r = s.endWindow q 1)
    ∧ (h.params ≤ 8 → (56 ≤ q → h.seq = false) → 256 ≤ (s.queue q).length → r = s.endWindow q 2)
    ∧ (h.params ≤ 8 → (56 ≤ q → h.seq = false) → (s.queue q).length < 256 → r = (s.enqueueLaunch L).1.endWindow q 0) := by
  intro r L
  have served : (56 ≤ q → h.seq = false) → ¬ (56 ≤ q ∧ h.seq = true) := fun hs ⟨h56, hseq⟩ => by simp [hs h56] at hseq
  have hr : r = windowResult q (if 8 < h.params then (s, .result 1)
      else s.acceptLaunch slot a.toNat q word (some h) (params h.params) (.host q)) := by
    simp only [r, State.launchHeader, hh]
  refine ⟨fun bad => ?_, fun hp hs full => ?_, fun hp hs room => ?_⟩
  · rw [hr]
    split
    · rfl
    · next hp => rw [State.acceptLaunch, if_pos (bad.resolve_left hp)]; rfl
  · rw [hr, if_neg (Nat.not_lt.mpr hp), State.acceptLaunch, if_neg (served hs), if_pos full]
    rfl
  · rw [hr, if_neg (Nat.not_lt.mpr hp), State.acceptLaunch, if_neg (served hs), if_neg (Nat.not_le.mpr room)]
    simp only [w64, BitVec.ofNat_toNat, BitVec.setWidth_eq]
    rfl

/-! ### Fields of a launch window -/

/-- An offset of BAR 4 names a window and a place in it. -/
theorem windowOffset {q o : Nat} (ho : o < 4096) : (4096 * q + o) / 4096 = q ∧ (4096 * q + o) % 4096 = o := by
  omega

/-- What stands at an 8-byte place of a launch window (R450). -/
def Window.fieldAt (w : Window) (o : Nat) : W64 :=
  if o = 0x000 then w.header
  else if o = 0x008 then w.launch
  else if 0x010 ≤ o ∧ o < 0x050 then FMap.get 0 w.params ((o - 0x010) / 8)
  else if o = 0x088 then w.stat
  else 0

theorem State.readLaunch_eq (s : State) (off : Nat) :
    s.readLaunch off = if 64 ≤ off / 4096 ∨ off % 8 ≠ 0 then 0 else (s.window (off / 4096)).fieldAt (off % 4096) := rfl

/-- A write of an RW field of a window changes that field alone. -/
theorem State.writeLaunch_field {q o : Nat} (hq : q < 64) (h8 : o % 8 = 0) (ho : o < 0x50) (s : State) (v : W64) :
    ∃ w : Window, s.writeLaunch (4096 * q + o) v = s.setWindow q w ∧ w.fieldAt o = v
      ∧ ∀ x, x % 8 = 0 → x ≠ o → w.fieldAt x = (s.window q).fieldAt x := by
  obtain ⟨hdiv, hmod⟩ := windowOffset (q := q) (show o < 4096 by omega)
  unfold State.writeLaunch
  simp only [hdiv, hmod]
  rw [if_neg (show ¬ (64 ≤ q ∨ (4096 * q + o) % 8 ≠ 0) by omega)]
  split
  · exact ⟨_, rfl, rfl, fun x _ hx => by simp only [Window.fieldAt, if_neg hx]; rfl⟩
  · refine ⟨_, rfl, rfl, fun x _ hx => by simp only [Window.fieldAt, if_neg hx]; rfl⟩
  · omega
  · next h0 h8' _ =>
    have h0 : o ≠ 0 := h0
    have h8' : o ≠ 8 := h8'
    have hin : 0x010 ≤ o ∧ o < 0x050 := by omega
    rw [if_pos hin]
    refine ⟨_, rfl, ?_, fun x hx8 hx => ?_⟩
    · simp only [Window.fieldAt, if_neg h0, if_neg h8', if_pos hin, FMap.get_set, if_true]
    · by_cases hpar : 0x010 ≤ x ∧ x < 0x050
      · have hne : (x - 0x010) / 8 ≠ (o - 0x010) / 8 := by omega
        simp only [Window.fieldAt, FMap.get_set, if_neg hne]
        rfl
      · simp only [Window.fieldAt, if_neg hpar]
        rfl

theorem exec_launchWrite {s : State} (hr : s.running = true) (off : Nat) (v : W64) :
    exec (.registerWrite 0 .launch off v) s = .next (s.raised.writeLaunch off v) := by
  exact congrArg Host.Outcome.next (if_pos ⟨rfl, hr⟩)

/-- A field of a window reads as it was written, and no other changes (R13, R450). -/
theorem readLaunch_after_field {s : State} {q o : Nat} (hq : q < 64) (h8 : o % 8 = 0) (ho : o < 0x50) (v : W64) :
    let u := s.writeLaunch (4096 * q + o) v
    u.readLaunch (4096 * q + o) = v ∧ u.readLaunch (4096 * q + 0x80) = 0
      ∧ ∀ x, x ≠ 4096 * q + o → u.readLaunch x = s.readLaunch x := by
  obtain ⟨w, e, written, others⟩ := State.writeLaunch_field hq h8 ho s v
  intro u
  have at_ (p : Nat) (hp : p < 4096) (hp8 : p % 8 = 0) : u.readLaunch (4096 * q + p) = w.fieldAt p := by
    obtain ⟨hdiv, hmod⟩ := windowOffset (q := q) hp
    rw [State.readLaunch_eq, hdiv, hmod, if_neg (show ¬ (64 ≤ q ∨ (4096 * q + p) % 8 ≠ 0) by omega), show u = _ from e,
      State.window_setWindow, if_pos rfl]
  refine ⟨(at_ o (by omega) h8).trans written, ?_, fun x hx => ?_⟩
  · rw [at_ 0x80 (by omega) (by omega), others 0x80 (by omega) (by omega)]
    rfl
  · rw [State.readLaunch_eq, State.readLaunch_eq, show u = _ from e, State.window_setWindow]
    by_cases hw : x / 4096 = q
    · by_cases hx8 : x % 8 = 0
      · rw [if_pos hw, others _ (by omega) (by omega), hw]
      · simp [hx8]
    · rw [if_neg hw]

/-! ### Vector masks -/

/-- Unmasking a vector sends its pending bit, unless the function is masked (R447). -/
theorem State.maskVector_unmask {s : State} {v : Nat} (hv : v < 64) :
    ∃ h o, s.maskVector v false = { s with host := h, out := o } ∧ FMap.get false h.unmasked v = true
      ∧ (FMap.get false s.host.pendingV v = true → s.host.maskAll = false → o = .msix v :: s.out) := by
  have unmasked : FMap.get false (FMap.set false s.host.unmasked v (!false)) v = true := by simp
  unfold State.maskVector State.sendPending
  rw [if_neg (Nat.not_le.mpr hv)]
  simp only [unmasked, Bool.and_true]
  split
  · exact ⟨_, _, rfl, unmasked, fun _ _ => rfl⟩
  · next h => exact ⟨_, _, rfl, unmasked, fun hp hm => absurd (by simp [hp, hm]) h⟩

/-! ### Key slots -/

/-- A write of KEYCTL by the management port that holds the semaphore. -/
theorem State.writeFrom_keyctl {s : State} (hr : s.running = true) (hp : s.host.powerOff = false) {p : Nat} (h12 : p = 1 ∨ p = 2)
    (hs : s.host.semOwner.toNat = p) (v : W64) : s.raised.writeFrom p 0x5000 v = s.raised.writeKeyctl p v.toNat := by
  obtain ⟨-, hf⟩ := s.running_iff.mp hr
  have hf' : s.raised.host.frozen = false := hf
  have hp' : s.raised.host.powerOff = false := hp
  have hs' : s.raised.host.semOwner.toNat = p := hs
  have ha : s.raised.answers p = true := by rcases h12 with rfl | rfl <;> simp [State.answers]
  simp only [State.writeFrom, ha, hs', hf', hp', ne_eq, not_true_eq_false, and_false, Bool.not_true, Bool.false_and, Bool.or_false,
    Bool.false_eq_true, if_false, State.writeControl_single (show singleOffset 0x5000 = true by decide)]
  rfl

theorem exec_keyLoad {s : State} (hr : s.running = true) (hp : s.host.powerOff = false) {p : Nat} (h12 : p = 1 ∨ p = 2)
    (hs : s.host.semOwner.toNat = p) {v : W64} (hv : bits v.toNat 15 14 = 1) :
    exec (.keyLoad p v) s = .next (s.raised.writeKeyctl p v.toNat) := by
  show execKeyLoad p v s = _
  rw [execKeyLoad, event_running hr, if_pos hv, State.writeFrom_keyctl hr hp h12 hs]

theorem exec_keyEmpty {s : State} (hr : s.running = true) (hp : s.host.powerOff = false) {p : Nat} (h12 : p = 1 ∨ p = 2)
    (hs : s.host.semOwner.toNat = p) {v : W64} (hv : bits v.toNat 15 14 = 2) :
    exec (.keyEmpty p v) s = .next (s.raised.writeKeyctl p v.toNat) := by
  show execKeyEmpty p v s = _
  rw [execKeyEmpty, event_running hr, if_pos hv, State.writeFrom_keyctl hr hp h12 hs]

theorem State.writeKeyctl_loadRefused {s : State} {p v : Nat} (hp : p ≠ 0) (hv : bits v 15 14 = 1) (h0 : bits v 12 0 = 0)
    (hc : (s.ctxs.any fun e => e.2.resident) = true) :
    ∃ h : HostIf, s.writeKeyctl p v = { s with host := h } ∧ h.keyErr = true ∧ h.keys = s.host.keys := by
  simp only [State.writeKeyctl, hp, if_false, hv, h0, hc, Bool.and_true, beq_self_eq_true, if_true]
  exact ⟨_, rfl, rfl, rfl⟩

theorem State.writeKeyctl_load {s : State} {p v : Nat} (hp : p ≠ 0) (hv : bits v 15 14 = 1)
    (hc : bits v 12 0 ≠ 0 ∨ (s.ctxs.any fun e => e.2.resident) = false) :
    ∃ h : HostIf, s.writeKeyctl p v = { s with host := h }
      ∧ h.keys = FMap.set none s.host.keys (bits v 12 0) (some s.host.keyWords) := by
  have hne : (bits v 12 0 == 0 && s.ctxs.any fun e => e.2.resident) = false := by
    rcases hc with h | h <;> simp [h]
  simp only [State.writeKeyctl, hp, if_false, hv, hne, Bool.false_eq_true]
  exact ⟨_, rfl, rfl⟩

theorem State.writeKeyctl_empty {s : State} {p v : Nat} (hp : p ≠ 0) (hv : bits v 15 14 = 2) :
    ∃ h : HostIf, s.writeKeyctl p v = { s with host := h }
      ∧ h.keys = FMap.set none s.host.keys (bits v 12 0) none ∧ h.keydata = [] := by
  simp only [State.writeKeyctl, hp, if_false, hv]
  exact ⟨_, rfl, rfl, rfl⟩

/-! ### Registers of ports, peer bounds and power -/

/-- A port register's counts are cleared bit by bit (R426). -/
theorem State.writeControl_port {p : Nat} (hp : p < 28) (s : State) (port : Nat) (v : W64) :
    s.writeControl port (0x2100 + 8 * p) v = s.setPort p { s.port p with
      replays := (s.port p).replays &&& ~~~BitVec.ofNat 16 (bits v.toNat 47 32)
      retrains := (s.port p).retrains &&& ~~~BitVec.ofNat 16 (bits v.toNat 31 16) } := by
  have hn : (0x2100 + 8 * p - 0x2100) / 8 = p := by omega
  unfold State.writeControl
  rw [if_neg (by omega), if_pos (by omega), hn]
  rfl

/-- UEPT written without a change of its valid bit (R424). -/
theorem State.writeUept_sameValid {s : State} {v : W64} (h : v.getLsbD 0 = s.ctrl.ueptValid) :
    s.writeUept v.toNat = { s with ctrl := { s.ctrl with ueptBase := v.extractLsb' 21 11 } } := by
  have same : s.ctrl.ueptValid = bit v.toNat 0 := by rw [bit_toNat, h]
  unfold State.writeUept
  rw [if_pos same, ofNat_bits v (by decide), ← same]

/-- PWRCTL (R459, R460). -/
theorem State.writePwrctl_eq (s : State) (v : W64) : s.writePwrctl v.toNat = { s with host := { s.host with
    powerCap := if 2000 ≤ bits v.toNat 29 16 ∧ bits v.toNat 29 16 ≤ 4800 then v.extractLsb' 16 14 else s.host.powerCap
    clockSet := if bits v.toNat 1 0 = 3 then s.host.clockSet else v.extractLsb' 0 2
    clockState := if bits v.toNat 1 0 = 3 then s.host.clockState
      else if s.host.throttled = true ∧ bits v.toNat 1 0 = 0 then 1 else v.extractLsb' 0 2 } } := by
  have fastest : v.extractLsb' 0 2 = 0 ↔ bits v.toNat 1 0 = 0 := by
    rw [← BitVec.toNat_inj]
    simp [bits]
  simp only [State.writePwrctl, rwIf, HostIf.heldClock, Bool.and_eq_true, decide_eq_true_eq, beq_iff_eq, ofNat_bits, ofNat_toNat_eq_extract]
  by_cases reserved : bits v.toNat 1 0 = 3
  · simp only [reserved, if_true]
  · simp only [reserved, if_false, fastest]

/-! ### Temperature -/

/-- The hold of the clock by the temperature, as `judgeTemp` has it before the trip (R460). -/
def State.holdClock (s : State) : State :=
  let h := s.host
  if !s.running then s
  else if h.throttle ≤ h.temp then
    let s' := { s with host := { h with throttled := true, clockState := if h.clockState = 0 then 1 else h.clockState } }
    if h.throttled then s' else s'.raiseVector 4
  else if h.throttled && decide (h.temp.toNat + 5 ≤ h.throttle.toNat) then
    State.raiseVector { s with host := { h with throttled := false, clockState := h.clockSet } } 4
  else s

theorem State.judgeTemp_holdClock (s : State) : s.judgeTemp = if s.host.trip ≤ s.host.temp
    then { s.holdClock with host := { s.holdClock.host with frozen := true, powerOff := true } } else s.holdClock := rfl

/-- The hold and the state of the clock that a running module's temperature comes to. -/
structure HostIf.Held (h : HostIf) (held : Bool) (clock : BitVec 2) : Prop where
  hot : h.throttle ≤ h.temp → held = true ∧ clock ≠ 0
  cool : h.temp < h.throttle → h.throttled = true → h.temp.toNat + 5 ≤ h.throttle.toNat → held = false ∧ clock = h.clockSet
  between : h.temp < h.throttle → h.throttled = false ∨ h.throttle.toNat < h.temp.toNat + 5 →
    held = h.throttled ∧ clock = h.clockState

theorem State.holdClock_eq {s : State} (hr : s.running = true) : ∃ p o held clock, s.host.Held held clock ∧
    s.holdClock = { s with host := { s.host with pendingV := p, throttled := held, clockState := clock }, out := o } := by
  have raised (s' : State) := State.raiseVector_eq s' 4
  unfold State.holdClock
  simp only [hr, Bool.not_true, Bool.false_eq_true, if_false]
  by_cases hot : s.host.throttle ≤ s.host.temp
  · have held : s.host.Held true (if s.host.clockState = 0 then 1 else s.host.clockState) := by
      refine ⟨fun _ => ⟨rfl, ?_⟩, fun h => absurd hot (BitVec.not_le.mpr h), fun h => absurd hot (BitVec.not_le.mpr h)⟩
      split <;> simp_all
    rw [if_pos hot]
    split
    · exact ⟨_, _, _, _, held, rfl⟩
    · obtain ⟨p, o, e⟩ := raised _
      exact ⟨p, o, _, _, held, e⟩
  · rw [if_neg hot]
    by_cases cool : s.host.throttled = true ∧ s.host.temp.toNat + 5 ≤ s.host.throttle.toNat
    · obtain ⟨p, o, e⟩ := raised { s with host := { s.host with throttled := false, clockState := s.host.clockSet } }
      rw [if_pos (by simpa using cool), e]
      refine ⟨p, o, _, _, ⟨fun h => absurd h hot, fun _ _ _ => ⟨rfl, rfl⟩, fun _ h => ?_⟩, rfl⟩
      rcases h with h | h
      · simp [cool.1] at h
      · omega
    · rw [if_neg (by simpa using cool)]
      exact ⟨_, _, _, _, ⟨fun h => absurd h hot, fun _ h5 h6 => absurd ⟨h5, h6⟩ cool, fun _ _ => ⟨rfl, rfl⟩⟩, rfl⟩

/-- What the temperature does to a running module with power: the hold of the clock, and the trip behind it. -/
theorem State.judgeTemp_eq {s : State} (hr : s.running = true) (hp : s.host.powerOff = false) :
    ∃ p o held clock, s.host.Held held clock ∧ s.judgeTemp = { s with
        host := { s.host with
          pendingV := p, throttled := held, clockState := clock, frozen := decide (s.host.trip ≤ s.host.temp)
          powerOff := decide (s.host.trip ≤ s.host.temp) }
        out := o } := by
  obtain ⟨-, hf⟩ := s.running_iff.mp hr
  obtain ⟨p, o, held, clock, h, e⟩ := State.holdClock_eq hr
  refine ⟨p, o, held, clock, h, ?_⟩
  rw [State.judgeTemp_holdClock, e]
  split
  · next trip => simp [trip]
  · next trip => simp [trip, hf, hp]

/-- THERM: its fields, and then what the temperature does under them (R460). -/
theorem State.writeTherm_eq (s : State) (v : W64) : s.writeTherm v.toNat = State.judgeTemp { s with host := { s.host with
    trip := if 95 ≤ bits v.toNat 47 40 ∧ bits v.toNat 47 40 ≤ 115 then v.extractLsb' 40 8 else s.host.trip
    throttle := if 80 ≤ bits v.toNat 39 32 ∧ bits v.toNat 39 32 ≤ 105 then v.extractLsb' 32 8 else s.host.throttle } } := by
  simp only [State.writeTherm, rwIf, Bool.and_eq_true, decide_eq_true_eq, ofNat_bits]

/-! ### The trace -/

theorem Team.party_mapLanes (T : Team) (f : Lane → Lane) (k : Nat) :
    (T.mapLanes f).party k = (T.party k).mapLanes (T.party k).active fun _ x => f x :=
  FMap.get_map (fun P : Party => P.mapLanes P.active fun _ x => f x) {} T.parties k

/-- Every lane of the device that has not exited becomes what f makes of it. -/
theorem lane_of_mapTeams {s u : State} {f : Lane → Lane}
    (h : u.teams = s.teams.map fun (e : Nat × Team) => (e.1, e.2.mapLanes f)) (t k l : Nat) :
    (u.party t k).lane l = if l ∈ (s.party t k).active then f ((s.party t k).lane l) else (s.party t k).lane l := by
  have ht : u.team t = (s.team t).mapLanes f := by
    unfold State.team
    rw [h]
    exact FMap.get_map (fun T : Team => T.mapLanes f) {} s.teams t
  unfold State.party
  rw [ht, Team.party_mapLanes, Party.lane_mapLanes]

/-- The trace's settings that a write of TRCCTL leaves (R438). -/
def Debug.withTrcctl (d : Debug) (v : W64) : Debug :=
  { d with
    trcEnable := v.getLsbD 0, trcStall := v.getLsbD 1, trcKinds := v.extractLsb' 2 4, trcAll := v.getLsbD 47
    trcAsid := v.extractLsb' 48 16 }

theorem State.writeTrcctl_eq (s : State) (v : W64) : s.writeTrcctl v.toNat = { s with
    dbg := s.dbg.withTrcctl v
    teams := if v.getLsbD 0 = true ∧ s.dbg.trcEnable = false
      then s.teams.map fun (e : Nat × Team) => (e.1, e.2.mapLanes fun x => { x with anchorDue := true }) else s.teams } := by
  simp only [State.writeTrcctl, bit_toNat, ofNat_bits, Bool.and_eq_true, Bool.not_eq_true']
  split <;> rfl

/-! ### Breakpoints -/

theorem toNat_append_add {m n : Nat} (x : BitVec m) (y : BitVec n) : (x ++ y).toNat = x.toNat * 2 ^ n + y.toNat := by
  rw [BitVec.toNat_append, ← Nat.shiftLeft_add_eq_or_of_lt y.isLt, Nat.shiftLeft_eq]

theorem toNat_clear_low2 (v : W64) : (v &&& ~~~3#64).toNat = v.toNat / 4 * 4 := by
  have e : v &&& ~~~3#64 = (v >>> 2) <<< 2 := by
    have mask : ∀ i < 64, (~~~3#64).getLsbD i = decide (2 ≤ i) := by decide
    apply BitVec.eq_of_getLsbD_eq
    intro i hi
    rw [BitVec.getLsbD_and, mask i hi, BitVec.getLsbD_shiftLeft, BitVec.getLsbD_ushiftRight]
    by_cases h : 2 ≤ i
    · simp [h, hi, Nat.not_lt.mpr h, Nat.add_sub_cancel' h]
    · simp [h, Nat.lt_of_not_le h]
  rw [e]
  simp [Nat.shiftRight_eq_div_pow, Nat.shiftLeft_eq]
  omega

/-- A breakpoint's lower half replaced: bits 1 and 0 of an address read zero (R430). -/
theorem bp_low (b : BitVec 128) (v : W64) :
    BitVec.ofNat 128 (b.toNat / 2 ^ 64 * 2 ^ 64 + v.toNat / 4 * 4) = b.extractLsb' 64 64 ++ (v &&& ~~~3#64) := by
  apply BitVec.eq_of_toNat_eq
  rw [toNat_append_add, toNat_clear_low2]
  simp [Nat.shiftRight_eq_div_pow]
  omega

/-- A breakpoint's upper half replaced by a control word's fields (R430). -/
theorem bp_high (b : BitVec 128) (v : W64) :
    BitVec.ofNat 128 (b.toNat % 2 ^ 64 + 2 ^ 64 * (bits v.toNat 7 0 + 2 ^ 48 * bits v.toNat 63 48))
      = ((v.extractLsb' 48 16 ++ 0#40) ++ v.extractLsb' 0 8) ++ b.extractLsb' 0 64 := by
  apply BitVec.eq_of_toNat_eq
  simp only [toNat_append_add, bits]
  simp [Nat.shiftRight_eq_div_pow]
  omega

/-- The address word of a breakpoint (R430). -/
theorem State.writeControl_bpAddr {n : Nat} (hn : n < 8) (s : State) (port : Nat) (v : W64) :
    s.writeControl port (0x4000 + 16 * n) v = { s with dbg := { s.dbg with
      bp := FMap.set 0 s.dbg.bp n ((FMap.get 0 s.dbg.bp n).extractLsb' 64 64 ++ (v &&& ~~~3#64)) } } := by
  have hdiv : (0x4000 + 16 * n - 0x4000) / 16 = n := by omega
  unfold State.writeControl
  rw [if_neg (by omega), if_neg (by omega), if_pos (by omega)]
  simp only [hdiv]
  rw [if_neg (by omega), bp_low]

/-- The control word of a breakpoint (R430). -/
theorem State.writeControl_bpCtrl {n : Nat} (hn : n < 8) (s : State) (port : Nat) (v : W64) :
    s.writeControl port (0x4008 + 16 * n) v = { s with dbg := { s.dbg with
      bp := FMap.set 0 s.dbg.bp n
        (((v.extractLsb' 48 16 ++ 0#40) ++ v.extractLsb' 0 8) ++ (FMap.get 0 s.dbg.bp n).extractLsb' 0 64) } } := by
  have hdiv : (0x4008 + 16 * n - 0x4000) / 16 = n := by omega
  unfold State.writeControl
  rw [if_neg (by omega), if_neg (by omega), if_pos (by omega)]
  simp only [hdiv]
  rw [if_pos (by omega), bp_high]

/-! ### The events together -/

/-- Settles O57: each event is its effect on the raised state, and each register's write, field by field, is the record that the
statement writes out. -/
theorem hostEvents : Obligations.HostEvents := by
  intro s hr b key
  have inside {o n : Nat} (h : o + n ≤ 3 * 2 ^ 39) (hk : s.hasKey key = true) : s.hostFails o n = none := by
    rw [State.hostFails, if_neg (by omega), if_pos hk]
  refine ⟨?inFar, ?beyondFar, ?doorbell, ?judged, ?masks, ?keys, ?bar0, ?fields, ?windows⟩
  case inFar =>
    intro o n h
    refine ⟨fun hk => ⟨fun hb => ?_, fun hb => ?_, ?_⟩, fun hk => ?_⟩
    · obtain ⟨v, e⟩ := exec_hostFarRead_sound hr (inside h hk) hb
      exact ⟨_, e, length_bytesOf v n⟩
    · obtain ⟨sent, far⟩ := State.abortHost_spec b.countUncorrected o 4 0
      exact ⟨_, exec_hostFarRead_bad hr (inside h hk) hb, sent, far.trans (State.countUncorrected_far b)⟩
    · rintro bytes rfl
      exact exec_hostFarWrite hr (inside h hk)
    · refine exec_hostFar_fails (d := 11) hr ?_
      rw [State.hostFails, if_neg (by omega), if_neg (by simpa using hk)]
  case beyondFar =>
    intro o n h
    exact exec_hostFar_fails (d := 2) hr (if_pos h)
  case doorbell =>
    intro q hq
    have ring : exec (.doorbell q) s = .next (b.ring q) := event_running (s := s) hr (State.ring · q)
    refine ⟨fun busy => ?_, fun idle => ?_⟩
    · rw [ring, State.ring, if_pos (.inr busy)]
    · have idle' : ¬ (64 ≤ q ∨ (b.window q).busy = true) := by
        rintro (h | h)
        · omega
        · exact Bool.false_ne_true (idle.symm.trans h)
      rw [ring, State.ring, if_neg idle']
      rfl
  case judged =>
    intro q slot w f H
    refine ⟨State.judgeWindows_single, State.judge_unowned, State.judge_refusedHeader,
      fun owner header asking => ⟨fun bad => ?_, ?_⟩, ?_⟩
    · exact State.judge_launchQueue_none ⟨owner, header, asking⟩ (if_pos bad)
    · intro word h64
      have judged : s.Judged q slot := ⟨owner, header, asking⟩
      have queue : (s.ctx slot).launchQueue f.2.1 H (some q) = some q := if_neg (by simp [word, h64])
      refine ⟨fun m x peer => State.judge_peer judged queue peer, fun a d here fails => ?_, fun v read => ⟨fun invalid => ?_, ?_⟩⟩
      · rw [State.judge_here judged here, State.submitWindow_readFails queue fails]
        rfl
      · rw [State.judge_read judged queue h64 read, State.launchHeader, show parseHeader (s.rungHeader q) v = none from invalid]
        rfl
      · intro h valid
        rw [State.judge_read judged queue h64 read]
        exact windowResult_launchHeader (a := f.1) valid
    · intro c n
      rw [State.endWindow_window]
      exact ⟨rfl, rfl⟩
  case masks =>
    intro v hv
    obtain ⟨h, o, e, unmasked, sent⟩ := State.maskVector_unmask (s := b) hv
    refine ⟨b.maskVector v false, event_running (s := s) hr (State.maskVector · v false), ?_⟩
    rw [e]
    exact ⟨unmasked, ⟨rfl, rfl, rfl, rfl⟩, sent⟩
  case keys =>
    intro p v hp hs power
    have hp0 : p ≠ 0 := by omega
    refine ⟨fun op h0 resident => ?_, fun op free => ?_, fun op => ?_⟩
    · obtain ⟨h, e, err, keys⟩ := State.writeKeyctl_loadRefused (s := b) hp0 op h0 resident
      exact ⟨_, (exec_keyLoad hr power hp hs op).trans (congrArg _ e), err, keys, ⟨rfl, rfl, rfl, rfl⟩⟩
    · obtain ⟨h, e, keys⟩ := State.writeKeyctl_load (s := b) hp0 op free
      refine ⟨_, (exec_keyLoad hr power hp hs op).trans (congrArg _ e), ?_, fun j hj => ?_, ⟨rfl, rfl, rfl, rfl⟩⟩
      · exact (congrArg (FMap.get none · _) keys).trans ((FMap.get_set ..).trans (if_pos rfl))
      · exact (congrArg (FMap.get none · j) keys).trans ((FMap.get_set ..).trans (if_neg hj))
    · obtain ⟨h, e, keys, keydata⟩ := State.writeKeyctl_empty (s := b) hp0 op
      refine ⟨_, (exec_keyEmpty hr power hp hs op).trans (congrArg _ e), ?_, keydata, ⟨rfl, rfl, rfl, rfl⟩⟩
      exact (congrArg (FMap.get none · _) keys).trans ((FMap.get_set ..).trans (if_pos rfl))
  case bar0 =>
    intro v power
    refine ⟨⟨_, exec_single hr power (by decide) v, rfl, rfl⟩, ⟨_, exec_single hr power (by decide) v, ?_, ⟨rfl, rfl, rfl, rfl⟩⟩,
      ⟨_, exec_single hr power (by decide) v, ?_, ?_⟩, ⟨_, exec_launchWrite hr _ v, ?_, ?_⟩⟩
    · exact ofNat_toNat_eq_extract v 13
    · exact congrArg (fun x => s.host.eccCorrected &&& ~~~x) (ofNat_toNat_eq_extract v 32)
    · exact congrArg (fun x => s.host.eccUncorrected &&& ~~~x) (ofNat_div v 32 32)
    · exact congrArg Window.launch ((State.window_setWindow ..).trans (if_pos rfl))
    · exact fun j hj => (State.window_setWindow ..).trans (if_neg hj)
  case fields =>
    intro v hp field c d h put
    have single {o : Nat} (ho : singleOffset o = true) : exec (.registerWrite 0 .control o v) s = .next (b.putControl 0 o v) :=
      exec_single hr hp ho v
    refine ⟨?dswap, ?share, ?age, ?flush, ?limit, ?vlog, ?fq, ?fab, ?uept, ?peak, ?port, ?pattern, ?halt, ?sampRead, ?tide, ?stash,
      ?breakpoint, ?sampler, ?trace, ?power, ?therm⟩
    case uept =>
      exact fun same => (single (o := 0x2038) rfl).trans (congrArg _ (State.writeUept_sameValid same))
    case port =>
      intro p hp28
      rw [exec_controlWrite hr hp (by omega), State.writeControl_port hp28, ofNat_bits _ (by decide), ofNat_bits _ (by decide)]
      rfl
    case breakpoint =>
      intro n hn
      rw [exec_controlWrite hr hp (by omega), exec_controlWrite hr hp (by omega), State.writeControl_bpAddr hn,
        State.writeControl_bpCtrl hn]
      exact ⟨rfl, rfl⟩
    case trace =>
      refine ⟨_, single rfl, ?_⟩
      have e : b.putControl 0 0x40A8 v = _ := b.writeTrcctl_eq v
      rw [e]
      refine ⟨rfl, fun kept => if_neg ?_, fun on off =>
        lane_of_mapTeams (s := s) (f := fun x => { x with anchorDue := true }) (if_pos (And.intro on off))⟩
      rintro ⟨on, off⟩
      rcases kept with kept | kept
      · exact Bool.false_ne_true (kept.symm.trans on)
      · exact Bool.false_ne_true (off.symm.trans kept)
    case power => exact (single (o := 0x1020) rfl).trans (congrArg _ (b.writePwrctl_eq v))
    case therm =>
      intro trip thr
      have e : b.putControl 0 0x1028 v = State.judgeTemp { b with host := { h with trip := trip, throttle := thr } } := b.writeTherm_eq v
      obtain ⟨p, o, held, clock, hold, e'⟩ :=
        State.judgeTemp_eq (s := { b with host := { h with trip := trip, throttle := thr } }) hr hp
      exact ⟨_, (single rfl).trans (congrArg _ (e.trans e')), ⟨rfl, rfl, rfl, rfl⟩, rfl, rfl, rfl, rfl, hold.hot, hold.cool,
        hold.between, rfl, rfl⟩
    all_goals simp (disch := decide) only [put, single, State.putControl, State.writeVlogctl, State.writeFqctl, State.writeFabctl,
      State.writeSampctl, rwIf, w1c, ringRead, ofNat_toNat_eq_extract, ofNat_bits, bit_toNat, decide_eq_true_eq, bne_iff_ne, beq_iff_eq,
      Bool.and_eq_true, Bool.or_eq_true, Bool.not_eq_true', List.isEmpty_iff]
    case age | flush =>
      intro h20
      simp only [h20, Bool.false_eq_true, if_true, if_false]
      rfl
    all_goals rfl
  case windows =>
    intro q o v hq h8 ho
    exact ⟨_, exec_launchWrite hr _ v, readLaunch_after_field hq h8 ho v⟩

end Sys2Proof.Machine
end

section
/-! PROOFS. Encoding and decoding: how `pack` and the fields of a word meet (R18), and the decoder's rows (R30, R31). -/

namespace Sys2Proof

/-! ### Fields of a word -/

theorem fd_toNat (w : W32) (lo n : Nat) : (fd w lo n).toNat = w.toNat / 2 ^ lo % 2 ^ n := BitVec.toNat_ofNat ..

theorem fx_eq (w : W32) (hi lo v : Nat) : fx w hi lo v = ((fd w lo (hi - lo + 1)).toNat == v) := by
  rw [fd_toNat]
  rfl

theorem fx_iff (w : W32) (hi lo v : Nat) : fx w hi lo v = true ↔ w.toNat / 2 ^ lo % 2 ^ (hi - lo + 1) = v := beq_iff_eq

/-- A word whose low bits of a field are other than those of v does not hold v there. -/
theorem fx_eq_false {w : W32} {hi lo v : Nat} (mid : Nat) (h : fx w mid lo (v % 2 ^ (mid - lo + 1)) = false) (hm : mid ≤ hi) :
    fx w hi lo v = false := by
  rw [Bool.eq_false_iff] at h ⊢
  refine fun e => h ?_
  rw [fx_iff] at e ⊢
  rw [← e, Nat.mod_mod_of_dvd _ (Nat.pow_dvd_pow 2 (by omega))]

/-- The decoder's rows are chosen by bits [31:25]. -/
theorem decodeRow_eq (w : W32) : decodeRow w = decodeMajor w (fd w 25 7).toNat := by
  rw [fd_toNat, Nat.mod_eq_of_lt (by have := w.isLt; omega)]
  rfl

/-! ### Words put together from fields -/

/-- The number whose low 32 bits `pack` takes. -/
def packSum (base : Nat) (fs : List (Nat × Nat)) : Nat := fs.foldr (fun f n => f.1 * 2 ^ f.2 + n) base

theorem packSum_nil (base : Nat) : packSum base [] = base := by
  unfold packSum
  exact List.foldr_nil

theorem packSum_cons (base v k : Nat) (fs : List (Nat × Nat)) : packSum base ((v, k) :: fs) = v * 2 ^ k + packSum base fs := by
  unfold packSum
  exact List.foldr_cons ..

theorem pack_eq_of_packSum {base : Nat} {fs : List (Nat × Nat)} {w : W32} (h : packSum base fs = w.toNat) : pack base fs = w := by
  unfold packSum at h
  rw [pack, h, BitVec.ofNat_toNat, BitVec.setWidth_eq]

theorem fd_pack {lo n : Nat} (h : lo + n ≤ 32) (base : Nat) (fs : List (Nat × Nat)) :
    fd (pack base fs) lo n = BitVec.ofNat n (packSum base fs / 2 ^ lo) := by
  apply BitVec.eq_of_toNat_eq
  rw [fd_toNat, BitVec.toNat_ofNat]
  apply Nat.eq_of_testBit_eq
  intro j
  show ((packSum base fs % 2 ^ 32) / 2 ^ lo % 2 ^ n).testBit j = _
  simp only [Nat.testBit_mod_two_pow, Nat.testBit_div_two_pow]
  by_cases hj : j < n
  · have : j + lo < 32 := by omega
    simp [this]
  · simp [hj]

/-- A field above the bits that are read does not matter. -/
theorem fd_pack_above {lo n k : Nat} (h : lo + n ≤ k) (hn : lo + n ≤ 32) (base v : Nat) (fs : List (Nat × Nat)) :
    fd (pack base ((v, k) :: fs)) lo n = fd (pack base fs) lo n := by
  rw [fd_pack hn, fd_pack hn, packSum_cons]
  apply BitVec.eq_of_toNat_eq
  obtain ⟨j, rfl⟩ := Nat.exists_eq_add_of_le h
  have e : v * 2 ^ (lo + n + j) = 2 ^ lo * (2 ^ n * (v * 2 ^ j)) := by ring
  rw [BitVec.toNat_ofNat, BitVec.toNat_ofNat, e, Nat.mul_add_div (Nat.two_pow_pos lo), Nat.mul_add_mod]

/-- A sum that is clear in the m bits from k on: what stands above them and what stands below. -/
theorem exists_of_fd_zero {k m : Nat} (hk : k + m ≤ 32) {base : Nat} {fs : List (Nat × Nat)} (h : fd (pack base fs) k m = 0#m) :
    ∃ q r, r < 2 ^ k ∧ packSum base fs = 2 ^ (k + m) * q + r := by
  rw [fd_pack hk] at h
  have h := congrArg BitVec.toNat h
  rw [BitVec.toNat_ofNat, BitVec.toNat_zero] at h
  have h1 := Nat.div_add_mod (packSum base fs) (2 ^ k)
  have h2 := Nat.div_add_mod (packSum base fs / 2 ^ k) (2 ^ m)
  rw [h, Nat.add_zero] at h2
  exact ⟨packSum base fs / 2 ^ k / 2 ^ m, packSum base fs % 2 ^ k, Nat.mod_lt _ (Nat.two_pow_pos k), by
    rw [Nat.pow_add, Nat.mul_assoc, h2, h1]⟩

section
variable {k m : Nat} {base : Nat} {fs : List (Nat × Nat)} (h : fd (pack base fs) k m = 0#m) (x : BitVec m)
include h

/-- A field that stands where the rest is clear does not matter to the bits above it. -/
theorem fd_pack_below {lo n : Nat} (hk : k + m ≤ lo) (hn : lo + n ≤ 32) :
    fd (pack base ((x.toNat, k) :: fs)) lo n = fd (pack base fs) lo n := by
  obtain ⟨q, r, hr, e⟩ := exists_of_fd_zero (by omega) h
  obtain ⟨j, rfl⟩ := Nat.exists_eq_add_of_le hk
  have hx : x.toNat * 2 ^ k + r < 2 ^ (k + m) := by
    have : (x.toNat + 1) * 2 ^ k ≤ 2 ^ m * 2 ^ k := Nat.mul_le_mul_right _ x.isLt
    rw [Nat.pow_add, Nat.mul_comm (2 ^ k)]
    linarith
  have hr' : r < 2 ^ (k + m) := by omega
  rw [fd_pack hn, fd_pack hn, packSum_cons, e, Nat.add_left_comm, Nat.pow_add _ (k + m) j, ← Nat.div_div_eq_div_mul, ← Nat.div_div_eq_div_mul,
    Nat.mul_add_div (Nat.two_pow_pos _), Nat.mul_add_div (Nat.two_pow_pos _), Nat.div_eq_of_lt hr', Nat.div_eq_of_lt hx]

/-- A field that stands where the rest is clear reads back. -/
theorem fd_pack_here (hk : k + m ≤ 32) : fd (pack base ((x.toNat, k) :: fs)) k m = x := by
  obtain ⟨q, r, hr, e⟩ := exists_of_fd_zero hk h
  have e' : x.toNat * 2 ^ k + (2 ^ (k + m) * q + r) = 2 ^ k * (2 ^ m * q + x.toNat) + r := by ring
  apply BitVec.eq_of_toNat_eq
  rw [fd_pack hk, BitVec.toNat_ofNat, packSum_cons, e, e', Nat.mul_add_div (Nat.two_pow_pos _), Nat.div_eq_of_lt hr, Nat.add_zero,
    Nat.mul_add_mod, Nat.mod_eq_of_lt x.isLt]

end

/-! ### All fields of a word at once -/

/-- A field of a word: its width, its lowest bit and its value. -/
structure WordField where
  width : Nat
  low : Nat
  val : BitVec width

/-- The fields that `pack` is given as numbers, with their values and with their widths and lowest bits. -/
inductive HasFields : List (Nat × Nat) → List WordField → List (Nat × Nat) → Prop
  | nil : HasFields [] [] []
  | cons {n k : Nat} {fs ds : List (Nat × Nat)} {gs : List WordField} (x : BitVec n) (t : HasFields fs gs ds) :
      HasFields ((x.toNat, k) :: fs) (⟨n, k, x⟩ :: gs) ((n, k) :: ds)

/-- From bit `top` down the fields of these widths and lowest bits follow one another, and the fixed bits are clear in them. -/
def laidOut (base : Nat) : Nat → List (Nat × Nat) → Bool
  | _, [] => true
  | top, (n, k) :: ds => decide (k + n ≤ top) && base / 2 ^ k % 2 ^ n == 0 && laidOut base k ds

theorem laidOut_cons {base top n k : Nat} {ds : List (Nat × Nat)} (h : laidOut base top ((n, k) :: ds) = true) :
    k + n ≤ top ∧ BitVec.ofNat n (base / 2 ^ k) = 0#n ∧ laidOut base k ds = true := by
  simp only [laidOut, Bool.and_eq_true, decide_eq_true_eq, beq_iff_eq] at h
  obtain ⟨⟨ht, hb⟩, hg⟩ := h
  refine ⟨ht, ?_, hg⟩
  apply BitVec.eq_of_toNat_eq
  rw [BitVec.toNat_ofNat, hb, BitVec.toNat_zero]

theorem laidOut_below {base top : Nat} {ds : List (Nat × Nat)} (h : laidOut base top ds = true) : ∀ d ∈ ds, d.2 + d.1 ≤ top := by
  induction ds generalizing top with
  | nil => simp
  | cons d ds ih =>
    obtain ⟨ht, -, hg⟩ := laidOut_cons h
    intro x hx
    rcases List.mem_cons.mp hx with rfl | hx
    · exact ht
    · have := ih hg x hx
      omega

theorem HasFields.dims {fs ds : List (Nat × Nat)} {gs : List WordField} (t : HasFields fs gs ds) :
    ∀ g ∈ gs, (g.width, g.low) ∈ ds := by
  induction t with
  | nil => simp
  | cons x t ih => exact List.forall_mem_cons.mpr ⟨List.mem_cons_self, fun g m => List.mem_cons_of_mem _ (ih g m)⟩

/-- Bits outside every field are the fixed bits, and every field reads back. -/
theorem fd_pack_laidOut {base top : Nat} {fs ds : List (Nat × Nat)} {gs : List WordField} (t : HasFields fs gs ds)
    (h : laidOut base top ds = true) (htop : top ≤ 32) :
    (∀ lo n, lo + n ≤ 32 → (∀ d ∈ ds, lo + n ≤ d.2 ∨ d.2 + d.1 ≤ lo) → fd (pack base fs) lo n = BitVec.ofNat n (base / 2 ^ lo))
    ∧ ∀ g ∈ gs, fd (pack base fs) g.low g.width = g.val := by
  induction t generalizing top with
  | nil => exact ⟨fun lo n hn _ => by rw [fd_pack hn, packSum_nil], by simp⟩
  | @cons n k fs ds gs x t ih =>
    obtain ⟨ht, hb, hg⟩ := laidOut_cons h
    obtain ⟨fixed, fields⟩ := ih hg (by omega)
    have below := laidOut_below hg
    have clear : fd (pack base fs) k n = 0#n := (fixed k n (by omega) fun d m => .inr (below d m)).trans hb
    refine ⟨fun lo j hj hds => ?_, List.forall_mem_cons.mpr ⟨fd_pack_here clear x (by omega), fun g hgm => ?_⟩⟩
    · obtain ⟨hk, hds⟩ := List.forall_mem_cons.mp hds
      rw [← fixed lo j hj hds]
      rcases hk with hk | hk
      · exact fd_pack_above hk hj ..
      · exact fd_pack_below clear x hk hj
    · have : g.low + g.width ≤ k := below _ (t.dims g hgm)
      rw [fd_pack_above this (by omega)]
      exact fields g hgm

/-- What a word put together from fields below bit 25 says to the decoder. -/
theorem fields_of_pack {base : Nat} {fs ds : List (Nat × Nat)} {gs : List WordField} {w : W32} (hw : some (pack base fs) = some w)
    (t : HasFields fs gs ds) (h : laidOut base 25 ds = true) :
    decodeRow w = decodeMajor w (base / 2 ^ 25 % 2 ^ 7)
    ∧ (∀ g ∈ gs, fd w g.low g.width = g.val)
    ∧ ∀ hi lo v, lo ≤ hi → hi < 32 → (∀ d ∈ ds, hi < d.2 ∨ d.2 + d.1 ≤ lo) →
        fx w hi lo v = (base / 2 ^ lo % 2 ^ (hi - lo + 1) == v) := by
  obtain rfl := Option.some.inj hw
  obtain ⟨fixed, fields⟩ := fd_pack_laidOut t h (by decide)
  refine ⟨?_, fields, fun hi lo v hl hh hds => ?_⟩
  · rw [decodeRow_eq, fixed 25 7 (by decide) fun d m => .inr (laidOut_below h d m), BitVec.toNat_ofNat]
  · rw [fx_eq, fixed lo (hi - lo + 1) (by omega) fun d m => (hds d m).imp (by omega) id, BitVec.toNat_ofNat]

end Sys2Proof
end

section
/-! PROOFS. A word that decodes is the word of its instruction (R18), row by row. -/

namespace Sys2Proof

/-- What the decoder answers for w is a refusal, or an instruction whose word is w. -/
inductive EncodesTo (w : W32) : Except Reject Instr → Prop
  | error (r : Reject) : EncodesTo w (.error r)
  | ok {i : Instr} (h : encode i = some w) : EncodesTo w (.ok i)

theorem EncodesTo.ite {w : W32} {c : Prop} [Decidable c] {a b : Except Reject Instr} (ha : c → EncodesTo w a) (hb : EncodesTo w b) :
    EncodesTo w (if c then a else b) := by
  split
  · exact ha ‹_›
  · exact hb

/-- Fields and fixed bits that add up to w make its word: a row's bounds on them, with w below 2 ^ 32, give the sum. -/
theorem some_pack {base : Nat} {fs : List (Nat × Nat)} {w : W32} (h : packSum base fs = w.toNat := by
      simp only [packSum_cons, packSum_nil, fd_toNat, fx_iff, Bool.and_eq_true] at *
      omega) : some (pack base fs) = some w :=
  congrArg some (pack_eq_of_packSum h)

theorem rows0_encodesTo (w : W32) : EncodesTo w (rows0 w (w.toNat / 2 ^ 25)) := by
  have hw := w.isLt
  unfold rows0
  repeat' refine .ite (fun h => ?_) ?_
  all_goals constructor
  all_goals exact some_pack

theorem rows1_encodesTo (w : W32) : EncodesTo w (rows1 w (w.toNat / 2 ^ 25)) := by
  have hw := w.isLt
  unfold rows1
  repeat' refine .ite (fun h => ?_) ?_
  all_goals constructor
  all_goals exact some_pack

theorem rows2_encodesTo (w : W32) : EncodesTo w (rows2 w (w.toNat / 2 ^ 25)) := by
  have hw := w.isLt
  unfold rows2
  repeat' refine .ite (fun h => ?_) ?_
  all_goals constructor
  all_goals exact some_pack

theorem rows3_encodesTo (w : W32) : EncodesTo w (rows3 w (w.toNat / 2 ^ 25)) := by
  have hw := w.isLt
  unfold rows3
  repeat' refine .ite (fun h => ?_) ?_
  all_goals constructor
  all_goals exact some_pack

theorem rows4_encodesTo (w : W32) : EncodesTo w (rows4 w (w.toNat / 2 ^ 25)) := by
  have hw := w.isLt
  unfold rows4
  repeat' refine .ite (fun h => ?_) ?_
  all_goals constructor
  all_goals exact some_pack

theorem rows5_encodesTo (w : W32) : EncodesTo w (rows5 w (w.toNat / 2 ^ 25)) := by
  have hw := w.isLt
  unfold rows5
  repeat' refine .ite (fun h => ?_) ?_
  all_goals constructor
  all_goals exact some_pack

theorem rows6_encodesTo (w : W32) : EncodesTo w (rows6 w (w.toNat / 2 ^ 25)) := by
  have hw := w.isLt
  unfold rows6
  repeat' refine .ite (fun h => ?_) ?_
  all_goals constructor
  all_goals exact some_pack

theorem rows7_encodesTo (w : W32) : EncodesTo w (rows7 w (w.toNat / 2 ^ 25)) := by
  have hw := w.isLt
  unfold rows7
  repeat' refine .ite (fun h => ?_) ?_
  all_goals constructor
  all_goals exact some_pack

theorem rows8_encodesTo (w : W32) : EncodesTo w (rows8 w (w.toNat / 2 ^ 25)) := by
  have hw := w.isLt
  unfold rows8
  repeat' refine .ite (fun h => ?_) ?_
  all_goals constructor
  all_goals exact some_pack

theorem rows9_encodesTo (w : W32) : EncodesTo w (rows9 w (w.toNat / 2 ^ 25)) := by
  have hw := w.isLt
  unfold rows9
  repeat' refine .ite (fun h => ?_) ?_
  all_goals constructor
  all_goals exact some_pack

theorem rows10_encodesTo (w : W32) : EncodesTo w (rows10 w (w.toNat / 2 ^ 25)) := by
  have hw := w.isLt
  unfold rows10
  repeat' refine .ite (fun h => ?_) ?_
  all_goals constructor
  all_goals exact some_pack

theorem rows11_encodesTo (w : W32) : EncodesTo w (rows11 w (w.toNat / 2 ^ 25)) := by
  have hw := w.isLt
  unfold rows11
  repeat' refine .ite (fun h => ?_) ?_
  all_goals constructor
  all_goals exact some_pack

theorem rows12_encodesTo (w : W32) : EncodesTo w (rows12 w (w.toNat / 2 ^ 25)) := by
  have hw := w.isLt
  unfold rows12
  repeat' refine .ite (fun h => ?_) ?_
  all_goals constructor
  all_goals exact some_pack

theorem rows13_encodesTo (w : W32) : EncodesTo w (rows13 w (w.toNat / 2 ^ 25)) := by
  have hw := w.isLt
  unfold rows13
  repeat' refine .ite (fun h => ?_) ?_
  all_goals constructor
  all_goals exact some_pack

theorem rows14_encodesTo (w : W32) : EncodesTo w (rows14 w (w.toNat / 2 ^ 25)) := by
  have hw := w.isLt
  unfold rows14
  repeat' refine .ite (fun h => ?_) ?_
  all_goals constructor
  all_goals exact some_pack

theorem rows15_encodesTo (w : W32) : EncodesTo w (rows15 w (w.toNat / 2 ^ 25)) := by
  have hw := w.isLt
  unfold rows15
  repeat' refine .ite (fun h => ?_) ?_
  all_goals constructor
  all_goals exact some_pack

/-- Whatever row the decoder comes to. -/
theorem decodeRow_encodesTo (w : W32) : EncodesTo w (decodeRow w) := by
  unfold decodeRow decodeMajor
  repeat' split
  exacts [rows0_encodesTo w, rows1_encodesTo w, rows2_encodesTo w, rows3_encodesTo w, rows4_encodesTo w, rows5_encodesTo w,
    rows6_encodesTo w, rows7_encodesTo w, rows8_encodesTo w, rows9_encodesTo w, rows10_encodesTo w, rows11_encodesTo w,
    rows12_encodesTo w, rows13_encodesTo w, rows14_encodesTo w, rows15_encodesTo w]

/-- A word that the decoder accepts is taken from its rows and is well formed. -/
theorem decode_eq_ok {w : W32} {i : Instr} (h : decode w = .ok i) : decodeRow w = .ok i ∧ wellFormed i = true := by
  unfold decode at h
  split at h
  · cases h
  · split at h
    · next j hj =>
      split at h
      · next hwf =>
        cases h
        exact ⟨hj, hwf⟩
      · cases h
    · cases h

theorem encode_of_decodeRow {w : W32} {i : Instr} (h : decodeRow w = .ok i) : encode i = some w := by
  have e := decodeRow_encodesTo w
  rw [h] at e
  cases e with
  | ok e => exact e

/-- Settles O3: every row's fields and fixed bits add up to the word. -/
theorem encodeDecode : Obligations.EncodeDecode := fun _ _ h => encode_of_decodeRow (decode_eq_ok h).1

end Sys2Proof
end

section
/-! PROOFS. The word of an instruction decodes to it (R18, R30, R31), family by family. -/

namespace Sys2Proof

open Machine

theorem decodeRow_encode_body {i : Instr} {w : W32} (hf : familyOf i = .body) (h : encode i = some w) : decodeRow w = .ok i := by
  cases i with
  | bfe =>
    obtain ⟨row, fields, fixed⟩ := fields_of_pack h (by repeat' constructor) rfl
    simp only [List.forall_mem_cons] at fields
    have other (v : Nat) (hv : v < 3) : fx w 10 2 v = false := fx_eq_false 3 (by simp [fixed]; omega) (by decide)
    simp [row, decodeMajor, rows1, other, fixed, fields]
  | add | sub | mul | mad | and | or | xor | andn | shl | shr | sar | rot | min | max | cmp | sel | popc | clz | brev | mov
    | movc | addi | andi | shli | shri | sari | li | lih | fadd | fsub | fmul | ffma | fmin | fmax | fcmp | fsgn | cvtF
    | cvtFi | cvtIf | fclass | rcp | rsqrt | sqrt | exp2 | log2 | sin | cos | tanh | lgst =>
    obtain ⟨row, fields, fixed⟩ := fields_of_pack h (by repeat' constructor) rfl
    simp only [List.forall_mem_cons] at fields
    simp [row, decodeMajor, rows0, rows1, rows2, rows3, fixed, fields]
  | _ => cases hf

theorem decodeRow_encode_cross {i : Instr} {w : W32} (hf : familyOf i = .cross) (h : encode i = some w) : decodeRow w = .ok i := by
  cases i with
  | shfl | voteAny | voteAll | voteBallot | scan | matchLanes | elect | reds | redsAf | redsInt =>
    obtain ⟨row, fields, fixed⟩ := fields_of_pack h (by repeat' constructor) rfl
    simp only [List.forall_mem_cons] at fields
    simp [row, decodeMajor, rows4, fixed, fields]
  | _ => cases hf

theorem decodeRow_encode_lane {i : Instr} {w : W32} (hf : familyOf i = .lane) (h : encode i = some w) : decodeRow w = .ok i := by
  cases i with
  | bra | brx | lpad | call | ret | reconv | exit | ldB | ldH | ldW | ldD | ldQ | stB | stH | stW | stD | stQ | ldv | ldvTag
    | atom | red | qopPop | qopPush | rand | tcon =>
    obtain ⟨row, fields, fixed⟩ := fields_of_pack h (by repeat' constructor) rfl
    simp only [List.forall_mem_cons] at fields
    simp [row, decodeMajor, rows5, rows6, rows7, fixed, fields]
  | _ => cases hf

theorem decodeRow_encode_uniform {i : Instr} {w : W32} (hf : familyOf i = .uniform) (h : encode i = some w) : decodeRow w = .ok i := by
  cases i with
  | brk =>
    obtain ⟨row, fields, fixed⟩ := fields_of_pack h (by repeat' constructor) rfl
    simp only [List.forall_mem_cons] at fields
    have other : fx w 24 2 1 = false := fx_eq_false 12 (by simp [fixed]) (by decide)
    simp [row, decodeMajor, rows15, other, fixed, fields]
  | sadd | ssub | smul | sand | sor | sxor | sandn | sshl | sshr | ssar | smin | smax | scmp | ssel | saddi | sli | slik
    | sld | sst | sbr | sloop | sjmp | mfsrUniform | mtsrUniform | accAlloc | accFree | accRd | accAnc | accFlg | tshape
    | tld | tst | barInit | barArr | barWait | barAw | barTry | fence | ifence | icinv | copy | copyt | taskSub | taskSigAdd
    | taskSigSet | taskSigRd | taskWait | taskWaitTake | taskTry | taskTryTake | launch | replay | stepEnter | stepPub
    | verOpen | ckptFreeze | ckptStat | collOpen | collPut | collWait | collStat | tideRd | gauge | patLd | patDone
    | stashPut | stashGet | stashFree | trap | eret | halt =>
    obtain ⟨row, fields, fixed⟩ := fields_of_pack h (by repeat' constructor) rfl
    simp only [List.forall_mem_cons] at fields
    simp [row, decodeMajor, rows8, rows9, rows10, rows11, rows12, rows13, rows14, rows15, fixed, fields]
  | _ => cases hf

theorem decodeRow_encode_strandU {i : Instr} {w : W32} (hf : familyOf i = .strandU) (h : encode i = some w) : decodeRow w = .ok i := by
  cases i with
  | mfsrLane =>
    obtain ⟨row, fields, fixed⟩ := fields_of_pack h (by repeat' constructor) rfl
    simp only [List.forall_mem_cons] at fields
    have other : fx w 18 12 0 = false := fx_eq_false 12 (by simp [fixed]) (by decide)
    simp [row, decodeMajor, rows10, other, fixed, fields]
  | mtsrLane =>
    obtain ⟨row, fields, fixed⟩ := fields_of_pack h (by repeat' constructor) rfl
    simp only [List.forall_mem_cons] at fields
    have other : fx w 18 12 0 = false := fx_eq_false 12 (by simp [fixed]) (by decide)
    simp [row, decodeMajor, rows10, other, fixed, fields]
  | clause | clend | patNext =>
    obtain ⟨row, fields, fixed⟩ := fields_of_pack h (by repeat' constructor) rfl
    simp only [List.forall_mem_cons] at fields
    simp [row, decodeMajor, rows10, rows15, fixed, fields]
  | _ => cases hf

theorem decodeRow_encode_seqU {i : Instr} {w : W32} (hf : familyOf i = .seqU) (h : encode i = some w) : decodeRow w = .ok i := by
  cases i with
  | wload | wswap | mma | mmac =>
    obtain ⟨row, fields, fixed⟩ := fields_of_pack h (by repeat' constructor) rfl
    simp only [List.forall_mem_cons] at fields
    simp [row, decodeMajor, rows10, fixed, fields]
  | _ => cases hf

theorem decodeRow_encode_system {i : Instr} {w : W32} (hf : familyOf i = .system) (h : encode i = some w) : decodeRow w = .ok i := by
  cases i with
  | map | unmap | tlbinv | fqPop =>
    obtain ⟨row, fields, fixed⟩ := fields_of_pack h (by repeat' constructor) rfl
    simp only [List.forall_mem_cons] at fields
    simp [row, decodeMajor, rows15, fixed, fields]
  | resume | ctxSave | ctxRest =>
    obtain ⟨row, fields, fixed⟩ := fields_of_pack h (by repeat' constructor) rfl
    simp only [List.forall_mem_cons] at fields
    have other : fx w 12 2 3 = false := fx_eq_false 6 (by simp [fixed]) (by decide)
    simp [row, decodeMajor, rows15, other, fixed, fields]
  | _ => cases hf

theorem encode_event {i : Instr} (hf : familyOf i = .event) : encode i = none := by
  cases i with
  | pendingRegisterWrite | barTryTimeout | teamPlace | dispatchSwap | parkedShareSwitch | engdrainExpiry | teamRetire | taskStart
  | jobComplete | jobPark | replayInstanceStart | contextTeardown | teamHalt | frameOpenRetry | framePublish | stalenessFault
  | wcbAgeDrain | wcbFlush | peerRequestReceive | peerResponseLand | peerAckLand | linkReplay | linkRetrain | moduleUnreachable
  | tideEnable | tideBeaconSend | tideBeaconReceive | tideLateExpiry | tideAbsentExpiry | collContributionArrival | collTimerClose
  | collCloseReceive | gaugeDigestReceive | partialArrival | combineWindowExpiry | ckptDrainEnd | patternSignalReceive
  | creditReceive | patternHandout | patcfgEnable | patcfgDisable | sampleTick | traceFrameSend | traceOverflowRecord | debugHalt
  | debugRelease | dbgdataRead | dbgdataWrite | freezePin | mgmtFreeze | jtagExtest | jtagIdcode | jtagSamplePreload | jtagFreeze
  | jtagDsel | jtagDdata | jtagBypass | hostFarRead | hostFarWrite | doorbell | msixUnmask | mgmtsemAcquire | mgmtsemRelease
  | mgmtLinkLossRelease | identity | attest | bringUp | keyLoad | keyEmpty | powerCapThrottle | thermalThrottle | thermalTrip
  | registerWrite | longWordUnitComplete | endToEndAckReceive | thermalThrottleRelease | illegalInstruction
  | instructionFetchFault => rfl
  | _ => cases hf

/-- Every instruction that has a word. -/
theorem decodeRow_encode {i : Instr} {w : W32} (h : encode i = some w) : decodeRow w = .ok i := by
  cases hf : familyOf i with
  | body => exact decodeRow_encode_body hf h
  | cross => exact decodeRow_encode_cross hf h
  | lane => exact decodeRow_encode_lane hf h
  | uniform => exact decodeRow_encode_uniform hf h
  | strandU => exact decodeRow_encode_strandU hf h
  | seqU => exact decodeRow_encode_seqU hf h
  | system => exact decodeRow_encode_system hf h
  | event => cases (encode_event hf).symm.trans h

/-- No well-formed instruction has one of the words that R16 makes illegal: the first would be `add` with all fields 0, and the decoder's
rows refuse the second. -/
theorem encode_legal {i : Instr} {w : W32} (hi : wellFormed i = true) (h : encode i = some w) : w ≠ 0x00000000#32 ∧ w ≠ 0xFFFFFFFF#32 := by
  have hd := decodeRow_encode h
  constructor
  · rintro rfl
    have e : decodeRow 0x00000000#32 = .ok (.add 0 0 0 0 0) := by rfl
    cases e.symm.trans hd
    cases hi
  · rintro rfl
    have e : decodeRow 0xFFFFFFFF#32 = .error .reserved := by rfl
    cases e.symm.trans hd

/-- Settles O2: the decoder's rows come to the instruction, which is well formed, and its word is legal. -/
theorem decodeEncode : Obligations.DecodeEncode := by
  intro i w hi h
  obtain ⟨h0, h1⟩ := encode_legal hi h
  simp [decode, h0, h1, decodeRow_encode h, hi]

/-- Settles O4. -/
theorem illegalWords : Obligations.IllegalWords :=
  ⟨rfl, rfl, rfl, fun _ _ hi h => encode_legal hi h⟩

/-- Settles O1: each word by evaluation. -/
theorem specWordsDecode : Obligations.SpecWordsDecode := by
  unfold Obligations.SpecWordsDecode
  decide

end Sys2Proof
end

section
/-! PROOFS. Turns that are machine events, and words that cannot run. -/

namespace Sys2Proof.Machine

open Sys2Proof

/-- A step whose turn is a machine event runs that turn. -/
theorem step_event {s : State} {i : Instr} {rest : List Turn} (h : s.agenda = .event i :: rest) (he : isEvent i = true) :
    step s = Result.finish (State.eventTurn { s with agenda := rest } i) := by
  unfold step State.turn
  rw [h]
  simp only [he, if_true]

/-- An event acts at once in a module that does not run, or where it does not come too late. -/
theorem State.eventTurn_now {a : State} {i : Instr} (h : a.running = false ∨ a.tooLate i 0 0 = false) :
    a.eventTurn i = exec i (a.noteRank i 0 0) := by
  have e : (a.running && a.tooLate i 0 0) = false := by rcases h with h | h <;> simp [h]
  simp [State.eventTurn, e]

/-- An event that comes too late acts after a cycle. -/
theorem State.eventTurn_late {a : State} {i : Instr} (hr : a.running = true) (hl : a.tooLate i 0 0 = true) :
    a.eventTurn i = exec i (a.tick.noteRank i 0 0) := by
  simp [State.eventTurn, hr, hl]

/-- Noting how far the cycle has come changes nothing else. -/
theorem State.noteRank_eq (a : State) (i : Instr) (core party : Nat) : { a.noteRank i core party with cyc := a.cyc } = a := by
  unfold State.noteRank
  split <;> rfl

/-- Settles O6. -/
theorem stepTakesEvents : Obligations.StepTakesEvents := by
  refine ⟨fun s i rest h he => ⟨fun now => ?_, fun hr hl => ?_, State.noteRank_eq _ i 0 0⟩, fun s t k ls serve => ⟨fun f hf => ?_, fun w r hw hr => ?_⟩⟩
  · rw [step_event h he, State.eventTurn_now now]
  · rw [step_event h he, State.eventTurn_late hr hl]
  · simp only [State.runLanes, hf]
  · simp only [State.runLanes, hw, hr]

end Sys2Proof.Machine
end

section
/-! PROOFS. What settling a word leaves alone (R17, R201, R212, R338, R351, R432). -/

namespace Sys2Proof.Machine

open Sys2Proof

/-- Lane y is lane x but for what issuing a word counts. -/
def Lane.Counted (x y : Lane) : Prop :=
  { y with ready := x.ready, pend := x.pend, skipped := x.skipped, pass := x.pass, lastPc := x.lastPc, bad := x.bad } = x

theorem Lane.Counted.trans {x y z : Lane} (h : x.Counted y) (g : y.Counted z) : x.Counted z := by
  have e := congrArg (fun q : Lane => { q with
    ready := x.ready, pend := x.pend, skipped := x.skipped, pass := x.pass, lastPc := x.lastPc, bad := x.bad }) g
  exact e.trans h

/-- Lane y is lane x but for the count of R201. -/
def Lane.PassedOver (x y : Lane) : Prop := { y with skipped := x.skipped } = x

theorem Lane.PassedOver.trans {x y z : Lane} (h : x.PassedOver y) (g : y.PassedOver z) : x.PassedOver z := by
  have e := congrArg (fun q : Lane => { q with skipped := x.skipped }) g
  exact e.trans h

theorem Lane.PassedOver.counted {x y : Lane} (h : x.PassedOver y) : x.Counted y :=
  (congrArg (fun q : Lane => { q with ready := x.ready, pend := x.pend, pass := x.pass, lastPc := x.lastPc, bad := x.bad }) h :)

theorem Lane.counted_settle (now : Nat) (u : Uses) (st : BitVec 2) (p : Party) (x0 x : Lane) : x.Counted (Lane.settle now u st p x0 x) := rfl

/-- Party q is party p but for what issuing a word counts; lanes other than `ls` have at most been passed over. -/
structure Party.Counted (ls : List Nat) (p q : Party) : Prop where
  uniform : q.s = p.s
  round : q.round = p.round
  fault : q.fault = p.fault
  lanes : ∀ l, (p.lane l).Counted (q.lane l)
  idle : ∀ l, l ∉ ls → (p.lane l).PassedOver (q.lane l)

theorem Party.Counted.refl (ls : List Nat) (p : Party) : p.Counted ls p := ⟨rfl, rfl, rfl, fun _ => rfl, fun _ _ => rfl⟩

theorem Party.Counted.trans {ls : List Nat} {p q r : Party} (h : p.Counted ls q) (g : q.Counted ls r) : p.Counted ls r :=
  ⟨g.uniform.trans h.uniform, g.round.trans h.round, g.fault.trans h.fault, fun l => (h.lanes l).trans (g.lanes l),
    fun l hl => (h.idle l hl).trans (g.idle l hl)⟩

/-- Changing some of the listed lanes. -/
theorem Party.counted_mapLanes {ls ms : List Nat} (hs : ms ⊆ ls) {f : Nat → Lane → Lane} (hf : ∀ l x, Lane.Counted x (f l x)) (p : Party) :
    p.Counted ls (p.mapLanes ms f) := by
  refine ⟨rfl, rfl, rfl, fun l => ?_, fun l hl => ?_⟩
  · rw [Party.lane_mapLanes]
    split
    · exact hf l _
    · rfl
  · rw [Party.lane_mapLanes, if_neg fun m => hl (hs m)]
    rfl

/-- Passing lanes over. -/
theorem Party.counted_passOver (ls ms : List Nat) {f : Nat → Lane → Lane} (hf : ∀ l x, Lane.PassedOver x (f l x)) (p : Party) :
    p.Counted ls (p.mapLanes ms f) := by
  have h (l : Nat) : (p.lane l).PassedOver ((p.mapLanes ms f).lane l) := by
    rw [Party.lane_mapLanes]
    split
    · exact hf l _
    · rfl
  exact ⟨rfl, rfl, rfl, fun l => (h l).counted, fun l _ => h l⟩

/-- State t is state r but for what issuing a word counts for the issuing party and its team. -/
structure State.Counted (r t : State) : Prop where
  rest : { t with teams := r.teams } = r
  others : ∀ j, j ≠ r.cur.team → t.team j = r.team j
  parties : ∀ k, k ≠ r.cur.party → t.party r.cur.team k = r.party r.cur.team k
  team : { t.team r.cur.team with
    parties := r.curTeam.parties, lastIssue := r.curTeam.lastIssue, swapIn := r.curTeam.swapIn } = r.curTeam
  party : r.curParty.Counted r.cur.lanes (t.party r.cur.team r.cur.party)

theorem State.Counted.refl (r : State) : r.Counted r := ⟨rfl, fun _ _ => rfl, fun _ _ => rfl, rfl, .refl _ _⟩

/-- A team that takes the issuing team's place. -/
theorem State.counted_setTeam {r : State} {T : Team}
    (hT : { T with parties := r.curTeam.parties, lastIssue := r.curTeam.lastIssue, swapIn := r.curTeam.swapIn } = r.curTeam)
    (hk : ∀ k, k ≠ r.cur.party → T.party k = r.curTeam.party k) (hP : r.curParty.Counted r.cur.lanes (T.party r.cur.party)) :
    r.Counted (r.setTeam r.cur.team T) := by
  have e : (r.setTeam r.cur.team T).team r.cur.team = T := (State.team_setTeam ..).trans (if_pos rfl)
  refine ⟨rfl, fun j hj => (State.team_setTeam ..).trans (if_neg hj), fun k h => ?_, ?_, ?_⟩
  · show ((r.setTeam r.cur.team T).team r.cur.team).party k = _
    rw [e]
    exact hk k h
  · rw [e]
    exact hT
  · show r.curParty.Counted r.cur.lanes (((r.setTeam r.cur.team T).team r.cur.team).party r.cur.party)
    rw [e]
    exact hP

/-- The issuing party written. -/
theorem State.counted_setCurParty {r : State} {Q : Party} (h : r.curParty.Counted r.cur.lanes Q) : r.Counted (r.setCurParty Q) := by
  refine State.counted_setTeam (T := r.curTeam.setParty r.cur.party Q) rfl (fun k hk => ?_) ?_
  · exact (Team.party_setParty ..).trans (if_neg hk)
  · rw [Team.party_setParty, if_pos rfl]
    exact h

/-- The issuing party written, and the word counted for it and its team. -/
theorem State.counted_countIssue {r : State} {Q : Party} (h : r.curParty.Counted r.cur.lanes Q) (went : List Nat) :
    r.Counted ((r.setCurParty Q).countIssue r.cur.team r.cur.party went) := by
  have hteam : (r.setCurParty Q).team r.cur.team = r.curTeam.setParty r.cur.party Q := State.curTeam_setCurParty r Q
  have hparty : ((r.setCurParty Q).team r.cur.team).party r.cur.party = Q := State.curParty_setCurParty r Q
  unfold State.countIssue
  simp only [hparty]
  simp only [hteam]
  unfold State.setCurParty State.setParty
  rw [State.setTeam_setTeam]
  refine State.counted_setTeam rfl (fun k hk => ?_) ?_
  · rw [Team.party_setParty, if_neg hk]
    exact (Team.party_setParty ..).trans (if_neg hk)
  · rw [Team.party_setParty, if_pos rfl]
    have passed := Q.counted_passOver r.cur.lanes (Q.active.filter fun l => !went.contains l)
      (f := fun _ x => { x with skipped := x.skipped + 1 }) fun _ _ => rfl
    exact h.trans ⟨passed.uniform, passed.round, passed.fault, passed.lanes, passed.idle⟩

/-- The issuing lanes that begin the word (R17, R201). -/
def State.begun (r b : State) : List Nat :=
  if (b.curParty.lane b.firstLane).unit = 0 then r.cur.lanes.filter fun l => (r.curParty.lane l).wait == .none else []

/-- The issuing lanes that have gone past the word. -/
def State.went (r : State) : List Nat :=
  r.cur.lanes.filter fun l => (r.curParty.lane l).wait == .none && (r.curParty.lane l).units == 0

/-- The issuing party once the word is counted in its lanes. -/
def State.countedParty (r : State) (i : Instr) (u : Uses) (b : State) : Party :=
  (r.curParty.mapLanes (r.begun b) fun _ x => { x with skipped := 0 }).mapLanes r.went fun l x =>
    Lane.settle r.now u ((b.curParty.lane l).stall i) b.curParty (b.curParty.lane l) x

/-- The same, where a lane has gone past the word: the bytes fetched for the word are gone. -/
def State.settledCurParty (r : State) (i : Instr) (u : Uses) (b : State) : Party :=
  if r.went.isEmpty then r.countedParty i u b else { r.countedParty i u b with peerBuf := [], refused := [] }

theorem State.settle_eq (r : State) (i : Instr) (u : Uses) (b : State) :
    r.settle i u b = if (r.begun b).isEmpty && r.went.isEmpty then r
      else if (r.begun b).isEmpty then r.setCurParty (r.settledCurParty i u b)
      else (r.setCurParty (r.settledCurParty i u b)).countIssue r.cur.team r.cur.party (r.begun b) := rfl

theorem State.begun_subset (r b : State) : r.begun b ⊆ r.cur.lanes := by
  unfold State.begun
  split
  · exact List.filter_subset_self _
  · exact List.nil_subset _

theorem State.went_subset (r : State) : r.went ⊆ r.cur.lanes := List.filter_subset_self _

theorem State.counted_settledCurParty (r : State) (i : Instr) (u : Uses) (b : State) :
    r.curParty.Counted r.cur.lanes (r.settledCurParty i u b) := by
  have hBegun := Party.counted_mapLanes (r.begun_subset b) (f := fun _ x => { x with skipped := 0 }) (fun _ _ => rfl) r.curParty
  have hWent := Party.counted_mapLanes r.went_subset
    (fun l x => Lane.counted_settle r.now u ((b.curParty.lane l).stall i) b.curParty (b.curParty.lane l) x)
    (r.curParty.mapLanes (r.begun b) fun _ x => { x with skipped := 0 })
  have h : r.curParty.Counted r.cur.lanes (r.countedParty i u b) := hBegun.trans hWent
  unfold State.settledCurParty
  split
  · exact h
  · exact ⟨h.uniform, h.round, h.fault, h.lanes, h.idle⟩

/-- Settling a word changes what issuing it counts, and nothing else. -/
theorem State.settle_counted (r : State) (i : Instr) (u : Uses) (b : State) : r.Counted (r.settle i u b) := by
  have h := r.counted_settledCurParty i u b
  rw [State.settle_eq]
  generalize r.settledCurParty i u b = Q at h ⊢
  generalize r.begun b = ls
  generalize r.went = ms
  split
  · exact .refl r
  · split
    · exact State.counted_setCurParty h
    · exact State.counted_countIssue h ls

/-- Settles O38: settling a word counts it, and `State.Counted` says what that leaves alone. -/
theorem settlingFrame : Obligations.SettlingFrame := by
  intro s r i t
  have h : r.Counted t := State.settle_counted r i _ _
  have hcur : t.cur = r.cur := by
    have e := congrArg State.cur h.rest
    exact e
  have team : t.curTeam = t.team r.cur.team := congrArg (fun c : Issue => t.team c.team) hcur
  have party : t.curParty = t.party r.cur.team r.cur.party := congrArg (fun c : Issue => t.party c.team c.party) hcur
  rw [team, party]
  exact ⟨h.rest, h.others, h.parties, h.team, h.party.uniform, h.party.round, h.party.fault, h.party.lanes, h.party.idle⟩

end Sys2Proof.Machine
end

section
/-! PROOFS. A refused fetch keeps the translation that its walk found (R93, R328). -/

namespace Sys2Proof.Machine

open Sys2Proof Sys2Proof.Tests

/-- Tables that map the first GiB of near memory for reading and writing alone, so that no word may be fetched there (R325, R326). -/
def tablesWithoutExecute : Mem := Mem.write (Mem.write (Mem.write [] 0x1000 8 0x20000021) 0x2000 8 0x30000021) 0x3000 8 0xAE

/-- A strand whose lane 0 stands in that page, with no translation cached. -/
def strandWithoutExecute : State := { strand lane0 with near := tablesWithoutExecute }

/-- The event of its fetch. -/
def refusedFetch : Instr := .instructionFetchFault (.violation 1) 0x10000

/-- The fetch is one that the rights refuse, so that the event is the one that the machine itself would take. -/
theorem strandWithoutExecute_fetch : strandWithoutExecute.fetchWord 0 0 0x10000 matches .error (.violation 1) := by decide +kernel

/-- The translations that a result's state has cached. -/
def cachedAfter : Result → List Cached
  | .next t => t.tlb
  | _ => []

theorem exec_refusedFetch_cached :
    cachedAfter (exec refusedFetch strandWithoutExecute) = [{ asid := 0, page := 0, bytes := 2 ^ 30, leaf := 0xAE }] := by decide +kernel

/-- Refutes O45: a fetch refused for its page's rights has walked the tables and keeps the leaf that it found (R328), and
`State.Trapped` leaves no room for that, since its `rest` keeps the cached translations. -/
theorem not_badWordsTrap : ¬ Obligations.BadWordsTrap := by
  intro h
  have looks : strandWithoutExecute.Looks := looks_of (by decide +kernel)
  have ready : strandWithoutExecute.Ready refusedFetch := ready_of (by decide +kernel)
  obtain ⟨-, hrefused, -⟩ := h strandWithoutExecute looks
  obtain ⟨t, hexec, trapped⟩ := hrefused 1 0x10000 ready
  have hcached : t.tlb = [{ asid := 0, page := 0, bytes := 2 ^ 30, leaf := 0xAE }] := by
    have e := exec_refusedFetch_cached
    rw [show exec refusedFetch strandWithoutExecute = .next t from hexec] at e
    exact e
  have hkept : t.tlb = [] := (congrArg State.tlb trapped.rest).trans (by decide +kernel)
  rw [hcached] at hkept
  cases hkept

end Sys2Proof.Machine
end

section
/-! PROOFS. What writing trace records and taking a trap change (R332, R338, R438 to R441). -/

namespace Sys2Proof.Machine

open Sys2Proof

/-- State t is state s but for trace records and what reports their loss. -/
def State.Noted (s t : State) : Prop :=
  { t with dbg := s.dbg, host := { t.host with pendingV := s.host.pendingV }, out := s.out } = s

theorem State.Noted.refl (s : State) : s.Noted s := rfl

theorem State.Noted.trans {s t u : State} (h : s.Noted t) (g : t.Noted u) : s.Noted u := by
  have e := congrArg (fun x : State => { x with
    dbg := s.dbg, host := { x.host with pendingV := s.host.pendingV }, out := s.out }) g
  exact e.trans h

theorem State.Noted.teams {s t : State} (h : s.Noted t) : t.teams = s.teams := by
  have e := congrArg State.teams h
  exact e

theorem State.Noted.cur {s t : State} (h : s.Noted t) : t.cur = s.cur := by
  have e := congrArg State.cur h
  exact e

theorem State.noted_reportLost (s : State) (die : Nat) : s.Noted (s.reportLost die) := by
  unfold State.reportLost
  dsimp only
  split
  · exact .refl s
  · next =>
    generalize hd : ({ s.traceDie die with buffer := _, lost := 0 } : TraceDie) = d
    obtain ⟨p, o, e⟩ := State.raiseVector_eq (s.setTraceDie die d) 8
    rw [e]
    rfl

theorem State.noted_pushTrace (s : State) (die : Nat) (r : BitVec 256) : s.Noted (s.pushTrace die r) := by
  refine (s.noted_reportLost die).trans ?_
  unfold State.pushTrace
  dsimp only
  split <;> rfl

/-- Lane y is lane x but for what counts its trace records. -/
def Lane.Noted (x y : Lane) : Prop := ∃ n due, y = { x with traced := n, anchorDue := due }

theorem Lane.Noted.refl (x : Lane) : x.Noted x := ⟨_, _, rfl⟩

theorem Lane.Noted.trans {x y z : Lane} (h : x.Noted y) (g : y.Noted z) : x.Noted z := by
  obtain ⟨n, due, rfl⟩ := h
  obtain ⟨m, due', rfl⟩ := g
  exact ⟨m, due', rfl⟩

/-- Party k of team t has written trace records from state s to state u. -/
structure State.Recorded (t k : Nat) (s u : State) : Prop where
  cur : u.cur = s.cur
  rest : s.TracedFrom u
  others : ∀ j, j ≠ t → u.team j = s.team j
  team : { u.team t with parties := (s.team t).parties } = s.team t
  party : { u.party t k with lanes := (s.party t k).lanes } = s.party t k
  lanes : ∀ l, ((s.party t k).lane l).Noted ((u.party t k).lane l)

theorem State.TracedFrom.trans {s t u : State} (h : s.TracedFrom t) (g : t.TracedFrom u) : s.TracedFrom u := by
  have e := congrArg (fun x : State => { x with
    teams := s.teams, dbg := s.dbg, cur := s.cur, host := { x.host with pendingV := s.host.pendingV }, out := s.out }) g
  exact e.trans h

theorem State.Noted.tracedFrom {s t : State} (h : s.Noted t) : s.TracedFrom t := by
  have e := congrArg (fun x : State => { x with teams := s.teams, cur := s.cur }) h
  exact e

theorem State.Recorded.trans {t k : Nat} {s u v : State} (h : s.Recorded t k u) (g : u.Recorded t k v) : s.Recorded t k v where
  cur := g.cur.trans h.cur
  rest := h.rest.trans g.rest
  others j hj := (g.others j hj).trans (h.others j hj)
  team := (congrArg (fun T : Team => { T with parties := (s.team t).parties }) g.team).trans h.team
  party := (congrArg (fun P : Party => { P with lanes := (s.party t k).lanes }) g.party).trans h.party
  lanes l := (h.lanes l).trans (g.lanes l)

theorem State.Noted.recorded {s u : State} (h : s.Noted u) (t k : Nat) : s.Recorded t k u := by
  have team (j : Nat) : u.team j = s.team j := congrArg (fun m => FMap.get ({} : Team) m j) h.teams
  have party : u.party t k = s.party t k := congrArg (Team.party · k) (team t)
  refine ⟨h.cur, h.tracedFrom, fun j _ => team j, ?_, ?_, fun l => ?_⟩
  · rw [team]
  · rw [party]
  · rw [party]
    exact .refl _

/-- A lane written with new counts of its trace records. -/
theorem State.recorded_setLane (s : State) (t k l n : Nat) (due : Bool) :
    s.Recorded t k (s.setLane t k l { (s.party t k).lane l with traced := n, anchorDue := due }) := by
  have party := State.party_setParty s t k t k ((s.party t k).setLane l { (s.party t k).lane l with traced := n, anchorDue := due })
  rw [if_pos ⟨rfl, rfl⟩] at party
  refine ⟨rfl, rfl, fun j hj => (State.team_setParty ..).trans (if_neg hj), ?_, ?_, fun m => ?_⟩
  · unfold State.setLane
    rw [State.team_setParty, if_pos rfl]
    rfl
  · unfold State.setLane
    rw [party]
    rfl
  · unfold State.setLane
    rw [party, Party.lane_setLane]
    split
    · next h => subst h; exact ⟨n, due, rfl⟩
    · exact .refl _

/-- One more record may be written, or none. -/
theorem State.Noted.pushIf {s a : State} (h : s.Noted a) (c : Prop) [Decidable c] (die : Nat) (r : BitVec 256) :
    s.Noted (if c then a.pushTrace die r else a) := by
  split
  · exact h.trans (a.noted_pushTrace die r)
  · exact h

theorem State.recorded_traceLane (s : State) (t k l type : Nat) (pc payload : W64) :
    s.Recorded t k (s.traceLane t k l type pc payload) := by
  have written {a : State} {x : Lane} (n : Nat) (due : Bool) (noted : s.Noted a) (hx : (s.party t k).lane l = x) :
      s.Recorded t k (a.setLane t k l { x with traced := n, anchorDue := due }) := by
    have party : a.party t k = s.party t k := congrArg (fun m => (FMap.get ({} : Team) m t).party k) noted.teams
    rw [← hx, ← party]
    exact (noted.recorded t k).trans (a.recorded_setLane t k l n due)
  have lost := s.noted_reportLost (dieOf ((s.team t).party k).core)
  refine written _ _ ?_ (congrArg (fun m => ((FMap.get ({} : Team) m t).party k).lane l) lost.teams.symm)
  split
  · exact State.Noted.pushIf (.trans (State.Noted.pushIf lost _ _ _) (State.noted_pushTrace ..)) _ _ _
  · exact .trans (State.Noted.pushIf lost _ _ _) (State.noted_pushTrace ..)

theorem State.recorded_trace (s : State) (t k : Nat) (ls : List Nat) (type kind : Nat) (pc payload : Nat → W64) :
    s.Recorded t k (s.trace t k ls type kind pc payload) := by
  have each (ls : List Nat) (s : State) : s.Recorded t k (ls.foldl (fun s l => s.traceLane t k l type (pc l) (payload l)) s) := by
    induction ls generalizing s with
    | nil => exact (State.Noted.refl s).recorded t k
    | cons l ls ih => exact (s.recorded_traceLane t k l type (pc l) (payload l)).trans (ih _)
  unfold State.trace
  split
  · exact each ls s
  · exact (State.Noted.refl s).recorded t k

/-- The issuing party with the listed lanes stopped by a cause, as the first trap of its team leaves it. -/
def State.stoppedParty (s : State) (ls : List Nat) (lane : Nat) (c : Cause) : Party :=
  { s.curParty.mapLanes ls fun _ l => l.hold .stopped with
    fault := faultWord c.kind c.detail lane 0 c.info, trapLane := ls.head?.getD 0, trapAcc := c.acc, skid := 0, trapped := true }

/-- Its team, whose skid begins. -/
def State.skiddingTeam (s : State) (ls : List Nat) (lane : Nat) (c : Cause) : Team :=
  { s.curTeam with
    parties := s.curTeam.parties.map fun (e : Nat × Party) => (e.1, { e.2 with skid := 0, trapped := false })
    halt := .skid s.cur.party s.now }.setParty s.cur.party (s.stoppedParty ls lane c)

theorem State.takeTrap_running {s : State} (h : s.curTeam.halt = .running) (ls : List Nat) (lane : Nat) (c : Cause) :
    s.takeTrap ls lane c = ({ s with cur := { s.cur with trapped := true } }.setCurTeam (s.skiddingTeam ls lane c)).trace
      s.cur.team s.cur.party ls 2 1 (fun l => (s.curParty.lane l).pc) (fun _ => (s.stoppedParty ls lane c).fault) := by
  unfold State.takeTrap
  simp only [h]
  rfl

/-- The lanes of a running team trap as `State.Trapped` says. -/
theorem State.trapped_takeTrap {s : State} (h : s.curTeam.halt = .running) (ls : List Nat) (lane : Nat) (c : Cause) :
    s.Trapped (s.takeTrap ls lane c) ls lane c := by
  rw [State.takeTrap_running h]
  generalize hu : State.setCurTeam _ _ = u
  generalize hv : u.trace _ _ _ _ _ _ _ = v
  have rec_ : u.Recorded s.cur.team s.cur.party v := hv ▸ State.recorded_trace ..
  have team : u.team s.cur.team = s.skiddingTeam ls lane c := by
    rw [← hu]
    exact (State.team_setTeam ..).trans (if_pos rfl)
  have party : u.party s.cur.team s.cur.party = s.stoppedParty ls lane c := by
    show (u.team _).party _ = _
    rw [team]
    exact (Team.party_setParty ..).trans (if_pos rfl)
  have cur : v.cur.team = s.cur.team ∧ v.cur.party = s.cur.party := by
    rw [rec_.cur, ← hu]
    exact ⟨rfl, rfl⟩
  have curTeam : v.curTeam = v.team s.cur.team := congrArg v.team cur.1
  have curParty : v.curParty = v.party s.cur.team s.cur.party := congrArg₂ v.party cur.1 cur.2
  have sameTeam := rec_.team
  have sameParty := rec_.party
  rw [team, ← curTeam] at sameTeam
  rw [party, ← curParty] at sameParty
  have teamField {α : Type} (f : Team → α) (hf : ∀ T ps, f { T with parties := ps } = f T) : f v.curTeam = f (s.skiddingTeam ls lane c) :=
    (hf _ _).symm.trans (congrArg f sameTeam)
  have laneOf (l : Nat) : ((s.stoppedParty ls lane c).lane l).Noted (v.curParty.lane l) := by
    rw [curParty, ← party]
    exact rec_.lanes l
  have rest : s.TracedFrom u := by rw [← hu]; rfl
  have stop (l : Nat) : (s.stoppedParty ls lane c).lane l = if l ∈ ls then (s.curParty.lane l).hold .stopped else s.curParty.lane l :=
    s.curParty.lane_mapLanes ls (fun _ x => x.hold .stopped) l
  refine ⟨rest.trans rec_.rest, fun j hj => ?_, ⟨?_, ?_, ?_⟩, ?_, ?_, fun l hl => ?_, ?_, fun l => ?_⟩
  · rw [rec_.others j hj, ← hu]
    exact (State.team_setTeam ..).trans (if_neg hj)
  · exact teamField Team.mem fun _ _ => rfl
  · exact teamField Team.tiles fun _ _ => rfl
  · exact teamField Team.bars fun _ _ => rfl
  · exact teamField Team.halt fun _ _ => rfl
  · have e := congrArg Party.fault sameParty
    exact e
  · obtain ⟨n, due, e⟩ := laneOf l
    rw [e, stop, if_pos hl]
    exact ⟨rfl, rfl⟩
  · have e := congrArg Party.s sameParty
    exact e
  · obtain ⟨n, due, e⟩ := laneOf l
    rw [e, stop]
    split <;> exact ⟨rfl, rfl, rfl, rfl, rfl, rfl⟩

end Sys2Proof.Machine
end

section
/-! PROOFS. Words that may not issue where they stand (R27, R33, R211, R351, R461). -/

namespace Sys2Proof.Machine

open Sys2Proof

theorem State.run_looked (s : State) (i : Instr) (body : State → State) :
    s.run i body = State.close (State.takeCauses
      (if ((s.looked i).cur.lanes.filter fun l => ((s.looked i).breakAt l).isNone).isEmpty then (s.looked i).passHits (s.looked i).hits
        else (((s.looked i).passHits (s.looked i).hits).only
          ((s.looked i).cur.lanes.filter fun l => ((s.looked i).breakAt l).isNone)).guarded i ((s.looked i).uses i) body)
      (uniformWord i) (s.looked i).hits) (s.looked i) := rfl

/-- What `gate` answers where nothing stops the looking: the word behind its checks. -/
theorem gate_looks {s : State} (h : s.Looks) (i : Instr) (body : State → State) :
    gate i s body = .next ((s.looked i).guarded i ((s.looked i).uses i) body) := by
  have unbroken : ∀ l ∈ (s.looked i).cur.lanes, (s.looked i).breakAt l = none := by
    rw [State.looked_cur]
    exact fun l hl => (s.looked_breakAt i l).trans (h.unbroken l hl)
  have hits : (s.looked i).hits = [] := State.hits_nil unbroken
  have all : ((s.looked i).cur.lanes.filter fun l => ((s.looked i).breakAt l).isNone) = (s.looked i).cur.lanes :=
    List.filter_eq_self.mpr fun l hl => by rw [unbroken l hl]; rfl
  have some : (s.looked i).cur.lanes.isEmpty = false := by
    rw [State.looked_cur]
    have issuing := h.issuing
    unfold State.issuing at issuing
    cases hl : s.cur.lanes with
    | nil => simp [hl] at issuing
    | cons => rfl
  have calm : (s.looked i).curTeam.halt.calm = true := by rw [State.looked_halt, h.running]; rfl
  have untraced : (s.looked i).dbg.trcStall = false := by rw [State.looked_dbg, h.untraced]
  unfold gate
  rw [if_pos h.issuing]
  rw [State.run_looked, State.close_calm calm untraced, all, hits, some, State.takeCauses_nil, if_neg Bool.false_ne_true]
  rfl

theorem exec_looks {s : State} {i : Instr} (hi : isEvent i = false) (h : s.Looks) :
    ∃ body, exec i s = .next ((s.looked i).guarded i ((s.looked i).uses i) body) := by
  rcases exec_cases i s with ⟨event, -⟩ | ⟨-, body, hbody⟩
  · exact absurd event (by simp [hi])
  · exact ⟨body, hbody.trans (gate_looks h i body)⟩

/-- The lane field of a trap of the word that is looked at (R135). -/
def State.wordLane (b : State) (i : Instr) : Nat := if uniformWord i = true ∨ b.curParty.seq = true then 0xFF else b.firstLane

theorem State.illegal_eq (b : State) (i : Instr) (d : Nat) :
    b.illegal (uniformWord i) d = b.takeTrap b.cur.lanes (b.wordLane i) { kind := 1, detail := d } := by
  unfold State.illegal State.trapUniform State.trapAll State.laneField State.wordLane
  cases uniformWord i <;> cases b.curParty.seq <;> rfl

/-- A word that has a cause of R33 traps as a whole. -/
theorem exec_wordDetail {s : State} {i : Instr} {d : Nat} (hi : isEvent i = false) (h : s.Looks)
    (hd : (s.looked i).wordDetail i ((s.looked i).uses i) = some d) :
    ∃ t, exec i s = .next t ∧ (s.looked i).Trapped t s.cur.lanes ((s.looked i).wordLane i) { kind := 1, detail := d } := by
  obtain ⟨body, hexec⟩ := exec_looks hi h
  refine ⟨_, hexec, ?_⟩
  unfold State.guarded
  simp only [hd]
  rw [State.illegal_eq, State.looked_cur]
  exact State.trapped_takeTrap ((s.looked_halt i).trans h.running) ..

/-! ### The causes of a word as a whole -/

/-- The details of R33, each with its cause. -/
theorem State.illegal_iff (b : State) (i : Instr) (u : Uses) (d : Nat) : b.Illegal i u d ↔
    d = 3 ∧ b.reservedIn i = true
    ∨ d = 4 ∧ ((u.vs ++ u.vd).all (groupOk b.curTeam.hdr.vregs) && (u.ss ++ u.sd).all pairOk) = false
    ∨ d = 5 ∧ b.tempOutside u = true
    ∨ d = 7 ∧ streamOk i b.curParty.seq = false
    ∨ d = 8 ∧ (privileged i = true ∧ b.curParty.priv = false)
    ∨ d = 9 ∧ srForbidden i b.curParty.seq b.curParty.priv = true := by
  unfold State.Illegal
  split <;> grind

/-- The lowest of the details that apply is the only one. -/
theorem State.lowest_illegal {b : State} {i : Instr} {u : Uses} {k : Nat} (hk : b.Illegal i u k) (low : ∀ c, c < k → ¬ b.Illegal i u c)
    (d : Nat) : some k = some d ↔ b.Illegal i u d ∧ ∀ c, c < d → ¬ b.Illegal i u c := by
  constructor
  · rintro ⟨⟩
    exact ⟨hk, low⟩
  · rintro ⟨hd, lowd⟩
    rcases Nat.lt_trichotomy k d with h | h | h
    · exact absurd hk (lowd k h)
    · rw [h]
    · exact absurd hd (low d h)

theorem State.wordDetail_iff (b : State) (i : Instr) (u : Uses) (d : Nat) :
    b.wordDetail i u = some d ↔ b.Illegal i u d ∧ ∀ c, c < d → ¬ b.Illegal i u c := by
  have low := b.illegal_iff i u
  unfold State.wordDetail
  dsimp only
  split
  · exact State.lowest_illegal ((low 3).mpr (by simp [*])) (by grind) d
  split
  · exact State.lowest_illegal ((low 4).mpr (by grind)) (by grind) d
  split
  · exact State.lowest_illegal ((low 5).mpr (by simp [*])) (by grind) d
  split
  · exact State.lowest_illegal ((low 7).mpr (by grind)) (by grind) d
  split
  · exact State.lowest_illegal ((low 8).mpr (by grind)) (by grind) d
  split
  · exact State.lowest_illegal ((low 9).mpr (by simp [*])) (by grind) d
  · have never : ¬ b.Illegal i u d := by grind
    simp [never]

/-- Where a cause of R33 applies, the word has a detail at or below it. -/
theorem State.wordDetail_of_illegal {b : State} {i : Instr} {u : Uses} {n : Nat} (h : b.Illegal i u n) :
    ∃ d, d ≤ n ∧ b.wordDetail i u = some d := by
  classical
  have some : ∃ d, b.Illegal i u d := ⟨n, h⟩
  exact ⟨Nat.find some, Nat.find_min' some h, (b.wordDetail_iff i u _).mpr ⟨Nat.find_spec some, fun _ hc => Nat.find_min some hc⟩⟩

/-! ### The causes of a single lane -/

theorem State.laneCause_temp {b : State} {i : Instr} {u : Uses} {l : Nat} (hc : (b.curParty.lane l).clause = none)
    (ht : (u.vs ++ u.vd).any isTemp = true) : b.laneCause i u l = some { kind := 1, detail := 5 } := by
  unfold State.laneCause
  simp [hc, ht]

section
variable {b : State} {i : Instr} {u : Uses} {l : Nat}

/-- The lane names no temporary outside a clause. -/
theorem named_inside {x : Lane} (h : x.clause.isSome = true ∨ (u.vs ++ u.vd).any isTemp = false) :
    (x.clause.isNone && (u.vs ++ u.vd).any isTemp) = false := by
  rcases h with h | h
  · rw [← Option.not_isSome, h]
    rfl
  · rw [h, Bool.and_false]

variable (h : (b.curParty.lane l).clause.isSome = true ∨ (u.vs ++ u.vd).any isTemp = false)
include h

theorem State.laneCause_due {e : PeerFault} (due : (b.curParty.lane l).dueError i u = some e) :
    b.laneCause i u l = some { kind := 5, detail := e.detail, info := e.info.toNat, acc := e.acc } := by
  unfold State.laneCause
  simp only [named_inside h, due, Bool.false_eq_true, if_false]

theorem State.laneCause_bad (due : (b.curParty.lane l).dueError i u = none) (own : (b.curParty.lane l).ownBad i u = true) :
    b.laneCause i u l = some { kind := 5, detail := 4 } := by
  unfold State.laneCause
  simp only [named_inside h, due, own, Bool.false_eq_true, if_false, if_true]

theorem State.laneCause_early {e : Pend} (due : (b.curParty.lane l).dueError i u = none) (own : (b.curParty.lane l).ownBad i u = false)
    (checks : b.curCtx.control.getLsbD 3 = true)
    (early : (u.sources.findSome? fun r => ((b.curParty.lane l).pendOf r).bind fun e => if e.early then some e else none) = some e) :
    b.laneCause i u l = some { kind := 10, detail := 0, info := e.producer.toNat } := by
  unfold State.laneCause
  simp only [named_inside h, due, own, checks, early, Bool.false_eq_true, if_false, if_true]

end

/-- Every source before r is long enough, and r is not. -/
theorem findSome?_early {x : Lane} {pre post : List RegRef} {r : RegRef} {e : Pend}
    (hpre : ∀ q ∈ pre, ∀ p, x.pendOf q = some p → p.early = false) (hr : x.pendOf r = some e) (he : e.early = true) :
    (pre ++ r :: post).findSome? (fun q => (x.pendOf q).bind fun p => if p.early then some p else none) = some e := by
  have skipped : pre.findSome? (fun q => (x.pendOf q).bind fun p => if p.early then some p else none) = none := by
    rw [List.findSome?_eq_none_iff]
    intro q hq
    cases hp : x.pendOf q with
    | none => rfl
    | some p => simp [hpre q hq p hp]
  rw [List.findSome?_append, skipped, List.findSome?_cons, hr]
  simp [he]

/-! ### A trap of a single lane -/

theorem State.countUncorrected_eq (s : State) :
    ∃ n p o, s.countUncorrected = { s with host := { s.host with eccUncorrected := n, pendingV := p }, out := o } := by
  unfold State.countUncorrected
  split
  · exact ⟨_, _, _, rfl⟩
  · obtain ⟨p, o, e⟩ := State.raiseVector_eq { s with host := { s.host with eccUncorrected := s.host.eccUncorrected + 1 } } 5
    exact ⟨_, p, o, e⟩

theorem State.countBad_eq (s : State) (i : Instr) (u : Uses) :
    ∃ n p o, s.countBad i u = { s with host := { s.host with eccUncorrected := n, pendingV := p }, out := o } := by
  unfold State.countBad
  split
  · exact s.countUncorrected_eq
  · exact ⟨_, _, _, rfl⟩

/-- The state with the issuing lanes prepared for the word, as its traps find it. -/
def State.prepared (b : State) (i : Instr) (u : Uses) : State := (b.countBad i u).mapLanes fun _ x => x.prepare i u

theorem State.countBad_cur (b : State) (i : Instr) (u : Uses) : (b.countBad i u).cur = b.cur := by
  obtain ⟨n, p, o, h⟩ := b.countBad_eq i u
  rw [h]

theorem State.countBad_teams (b : State) (i : Instr) (u : Uses) : (b.countBad i u).teams = b.teams := by
  obtain ⟨n, p, o, h⟩ := b.countBad_eq i u
  rw [h]

theorem State.countBad_curTeam (b : State) (i : Instr) (u : Uses) : (b.countBad i u).curTeam = b.curTeam := by
  unfold State.curTeam State.team
  rw [State.countBad_cur, State.countBad_teams]

theorem State.countBad_curParty (b : State) (i : Instr) (u : Uses) : (b.countBad i u).curParty = b.curParty := by
  show (b.countBad i u).curTeam.party _ = _
  rw [State.countBad_curTeam, State.countBad_cur]
  rfl

theorem State.prepared_cur (b : State) (i : Instr) (u : Uses) : (b.prepared i u).cur = b.cur := b.countBad_cur i u

theorem State.prepared_halt (b : State) (i : Instr) (u : Uses) : (b.prepared i u).curTeam.halt = b.curTeam.halt := by
  have e : (b.prepared i u).curTeam = _ := State.curTeam_setCurParty ..
  rw [e, State.countBad_curTeam]
  rfl

theorem State.prepared_seq (b : State) (i : Instr) (u : Uses) : (b.prepared i u).curParty.seq = b.curParty.seq := by
  have e : (b.prepared i u).curParty = _ := State.curParty_mapLanes ..
  rw [e, State.countBad_curParty]
  rfl

/-- The traps of a word in one lane alone: a uniform word's is recorded for all lanes (R332). -/
theorem State.guarded_single {b : State} {i : Instr} {u : Uses} {l : Nat} {c : Cause} (body : State → State) (hl : b.cur.lanes = [l])
    (hw : b.wordDetail i u = none) (hx : b.owedExports u = []) (hc : b.laneCause i u l = some c) :
    b.guarded i u body = (b.prepared i u).takeTrap [l] (b.wordLane i) c := by
  have first : b.firstLane = l := by unfold State.firstLane; rw [hl]; rfl
  have causes : b.causes i u = [(l, c)] := by
    unfold State.causes
    rw [hl]
    simp [hc]
  have go : (if uniformWord i && !(List.isEmpty [(l, c)]) then [] else b.cur.lanes.filter fun l => (b.laneCause i u l).isNone) = [] := by
    rw [hl]
    simp [hc]
  have lanes : (b.prepared i u).cur.lanes = [l] := by rw [State.prepared_cur, hl]
  have same : (b.prepared i u).only b.cur.lanes = b.prepared i u := by rw [← State.prepared_cur b i u]; rfl
  unfold State.guarded
  simp only [hw, hx, go, causes, List.isEmpty_nil, Bool.not_true, Bool.false_eq_true, if_false, if_true]
  unfold State.wordLane
  cases uniformWord i with
  | true =>
    show ((b.prepared i u).only b.cur.lanes).takeTrap ((b.prepared i u).only b.cur.lanes).cur.lanes 0xFF c = _
    rw [same, lanes]
    rfl
  | false =>
    show (b.prepared i u).takeTrap [l] (if (b.prepared i u).curParty.seq then 0xFF else l) c = _
    rw [State.prepared_seq, first]
    cases b.curParty.seq <;> rfl

/-- Lanes that have been prepared hold the same registers and stand where they stood. -/
theorem State.Trapped.of_prepared {b t : State} {i : Instr} {u : Uses} {ls : List Nat} {lane : Nat} {c : Cause}
    (h : (b.prepared i u).Trapped t ls lane c) : (b.countBad i u).Trapped t ls lane c := by
  have team : (b.prepared i u).curTeam = _ := State.curTeam_setCurParty ..
  have lane (l : Nat) : ∃ es ps, (b.prepared i u).curParty.lane l = { (b.countBad i u).curParty.lane l with errors := es, pend := ps } := by
    have party : (b.prepared i u).curParty = _ := State.curParty_mapLanes ..
    rw [party, Party.lane_mapLanes]
    split <;> exact ⟨_, _, rfl⟩
  have memory := h.memory
  rw [team] at memory
  refine ⟨?_, fun j hj => (h.others j hj).trans ?_, memory, h.halt, h.fault, fun l hl => ?_, ?_, fun l => ?_⟩
  · have e := congrArg (fun x : State => { x with teams := (b.countBad i u).teams }) h.rest
    exact e
  · exact (State.team_setParty ..).trans (if_neg hj)
  · obtain ⟨es, ps, e⟩ := lane l
    have stopped := h.stopped l hl
    rw [e] at stopped
    exact stopped
  · rw [h.uniform]
    have party : (b.prepared i u).curParty = _ := State.curParty_mapLanes ..
    rw [party]
    rfl
  · obtain ⟨es, ps, e⟩ := lane l
    have lanes := h.lanes l
    rw [e] at lanes
    exact lanes

/-- Settles O43: each clause from the traps of a whole word or of a single lane, and from the causes that they have. -/
theorem illegalWordsTrap : Obligations.IllegalWordsTrap := by
  intro s i hi looks b u lane
  have whole {n : Nat} (hn : b.Illegal i u n) :
      ∃ t d, d ≤ n ∧ exec i s = .next t ∧ b.Trapped t s.cur.lanes lane { kind := 1, detail := d } := by
    obtain ⟨d, hd, detail⟩ := State.wordDetail_of_illegal hn
    obtain ⟨t, ht, trapped⟩ := exec_wordDetail hi looks detail
    exact ⟨t, d, hd, ht, trapped⟩
  refine ⟨fun d hd => exec_wordDetail hi looks hd, fun d => b.wordDetail_iff i u d, fun h1 h2 => whole (n := 8) ⟨h1, h2⟩,
    fun h => whole (n := 9) h, fun l c hl hw hx hc => ?_, fun l => ⟨fun h1 h2 => State.laneCause_temp h1 h2, fun h => ?_⟩⟩
  · obtain ⟨body, hexec⟩ := exec_looks hi looks
    refine ⟨_, hexec, State.Trapped.of_prepared ?_⟩
    have hl : b.cur.lanes = [l] := by rw [State.looked_cur]; exact hl
    rw [State.guarded_single body hl hw hx hc]
    exact State.trapped_takeTrap ((b.prepared_halt i u).trans ((s.looked_halt i).trans looks.running)) ..
  · refine ⟨fun e due => State.laneCause_due h due, fun due => ⟨?_, ?_⟩⟩
    · rintro ⟨r, hr, bad⟩
      have own : (b.curParty.lane l).ownBad i u = true := by
        unfold Lane.ownBad
        simp only [Bool.or_eq_true, List.any_eq_true, List.contains_iff_mem]
        exact .inl ⟨r, hr, bad⟩
      exact State.laneCause_bad h due own
    · intro pre post r e clean stack checks sources before pending early
      have own : (b.curParty.lane l).ownBad i u = false := by
        unfold Lane.ownBad
        rw [show (b.curParty.lane l).stackBad = false from stack]
        simpa using clean
      refine State.laneCause_early h due own checks ?_
      rw [sources]
      exact findSome?_early before pending early

end Sys2Proof.Machine
end

section
/-! PROOFS. The turn that issues stays the same while memory is read and written for it (R98, R287 to R292, R406). -/

namespace Sys2Proof.Machine

open Sys2Proof

/-- A fold of steps that keep the issuing turn keeps it. -/
theorem foldl_cur {α : Type} {f : State → α → State} (hf : ∀ s x, (f s x).cur = s.cur) (xs : List α) (s : State) :
    (xs.foldl f s).cur = s.cur := by
  induction xs generalizing s with
  | nil => rfl
  | cons x xs ih => exact (ih _).trans (hf s x)

theorem ok_of_ite {ε α : Type} {c : Prop} [Decidable c] {m : ε} {x : Except ε α} {a : α} (h : (if c then .error m else x) = .ok a) :
    x = .ok a := by
  split at h
  · cases h
  · exact h

/-! ### Reads -/

theorem State.keepLeaf_cur (s : State) (slot va : Nat) : (s.keepLeaf slot va).cur = s.cur := by
  unfold State.keepLeaf
  dsimp only
  generalize (_ || !s.translated slot va) = kept
  cases kept <;> rfl

theorem State.loadFor_cur (s : State) (t : Nat) (acc : Acc) (va n : Nat) : (s.loadFor t acc va n).1.cur = s.cur := by
  unfold State.loadFor
  dsimp only
  split
  · exact s.keepLeaf_cur _ _
  · rfl
  · split <;> rfl
  · split <;> exact s.keepLeaf_cur _ _

theorem State.loadUniform_cur (s : State) (va n : Nat) : (s.loadUniform va n).1.cur = s.cur := by
  have loaded := s.loadFor_cur s.cur.team .read va n
  unfold State.loadUniform
  split
  · next heq =>
    rw [heq] at loaded
    split <;> exact loaded
  · exact loaded

theorem State.readSpan_cur (s : State) (va n fuel : Nat) : (s.readSpan va n fuel).1.cur = s.cur := by
  induction fuel generalizing s va n with
  | zero => rfl
  | succ fuel ih =>
    unfold State.readSpan
    split
    · rfl
    · have loaded := s.loadUniform_cur (va % 2 ^ 64) (Nat.min n (8 - va % 2 ^ 64 % 8))
      dsimp only
      split
      · next c v heq =>
        rw [heq] at loaded
        have rest := ih c (va + Nat.min n (8 - va % 2 ^ 64 % 8)) (n - Nat.min n (8 - va % 2 ^ 64 % 8))
        split <;> next heq' => rw [heq'] at rest; exact rest.trans loaded
      · next heq => rw [heq] at loaded; exact loaded
      · next heq => rw [heq] at loaded; exact loaded

theorem State.readRow_cur (s : State) (r : Shape) (idx : W64) (row : Nat) : (s.readRow r idx row).1.cur = s.cur := by
  have read := s.readSpan_cur (r.rowAddr idx row) (cdiv (r.live idx row * r.bits) 8) (cdiv (r.live idx row * r.bits) 8)
  unfold State.readRow
  dsimp only
  split
  · next heq => rw [heq] at read; exact read
  · exact read

theorem State.fetchBox_cur {s c : State} {r : Shape} {idx : W64} {fuel : Nat} (h : s.fetchBox r idx fuel = .ok c) : c.cur = s.cur := by
  induction fuel generalizing s with
  | zero => cases h; rfl
  | succ fuel ih =>
    unfold State.fetchBox at h
    dsimp only at h
    split at h
    · cases h; rfl
    · have read := s.readRow_cur r idx (s.curParty.fetchBuf.length / (r.box0 * r.bits / 8))
      split at h
      · next heq =>
        rw [heq] at read
        exact (ih h).trans read
      · cases h

/-! ### Stores -/

theorem State.writePlace_cur (s : State) (p : Place) (n v : Nat) : (s.writePlace p n v).cur = s.cur := by
  cases p <;> rfl

theorem State.fillFrame_cur (s : State) (p : Place) (bs : List (Nat × W8)) : (s.fillFrame p bs).cur = s.cur := by
  unfold State.fillFrame
  refine (foldl_cur (fun t i => State.writePlace_cur ..) _ _).trans ?_
  cases p <;> rfl

theorem State.openFrame_cur {s : State} {asid : BitVec 16} {npa step : Nat} {q : State × Nat} (h : s.openFrame asid npa step = .ok q) :
    q.1.cur = s.cur := by
  unfold State.openFrame at h
  split at h
  · cases h
  split at h
  · cases h
  dsimp only at h
  split at h
  · cases h
  next dst _ _ bs _ =>
  have filled : (s.fillFrame dst bs).cur = s.cur := s.fillFrame_cur dst bs
  split at h <;> split at h <;> (rw [← Except.ok.inj h]; simpa only [State.putFrame, State.nearWrite_cur] using filled)

theorem State.writeFrame_cur {s : State} {asid : BitVec 16} {npa step : Nat} {q : State × Nat} (h : s.writeFrame asid npa step = .ok q) :
    q.1.cur = s.cur := by
  unfold State.writeFrame at h
  split at h
  · cases h
  have owned := ok_of_ite h
  split at owned
  · exact State.openFrame_cur owned
  · split at owned
    · rw [← Except.ok.inj owned]
    · cases owned

theorem State.writeTarget_cur {s : State} {asid : BitVec 16} {step : Nat} {l : Loc} {q : State × Place}
    (h : s.writeTarget asid step l = .ok q) : q.1.cur = s.cur := by
  cases l with
  | here => cases h
  | peer => cases h
  | phys p => cases h; rfl
  | ring npa off =>
    simp only [State.writeTarget] at h
    split at h
    · cases h
    · next frame =>
      split at h
      · cases h
      · cases h
        exact State.writeFrame_cur frame

theorem State.storePlace_cur (s : State) (p : Place) (n v : Nat) : (s.storePlace p n v).cur = s.cur := s.writePlace_cur ..

theorem State.storeFor_cur (s : State) (t va n v : Nat) : (s.storeFor t va n v).1.cur = s.cur := by
  unfold State.storeFor
  dsimp only
  split
  · exact s.keepLeaf_cur _ _
  · rfl
  · split <;> rfl
  · split
    · exact s.keepLeaf_cur _ _
    · next target =>
      exact (State.storePlace_cur ..).trans ((State.keepLeaf_cur ..).trans (State.writeTarget_cur target))

theorem State.storeBits_cur (s : State) (t va m v : Nat) : (s.storeBits t va m v).1.cur = s.cur := by
  unfold State.storeBits
  dsimp only
  split
  · exact s.keepLeaf_cur _ _
  · rfl
  · split <;> rfl
  · split
    · exact s.keepLeaf_cur _ _
    · next target =>
      exact (State.storePlace_cur ..).trans ((State.keepLeaf_cur ..).trans (State.writeTarget_cur target))

/-! ### Requests to peers -/

theorem State.transmit_cur (s : State) (m : Nat) (c : Traffic) (p : Packet) (number : Nat) : (s.transmit m c p number).1.cur = s.cur := by
  unfold State.transmit
  split
  · dsimp only
    split <;> rfl
  · rfl

theorem State.emit_cur (s : State) (r : PeerReq) : (s.emit r).1.cur = s.cur := by
  unfold State.emit
  split
  · rfl
  · split
    · rfl
    · exact s.transmit_cur ..

theorem State.leaveOne_cur (s : State) (c m : Nat) : (s.leaveOne c m).1.cur = s.cur := by
  unfold State.leaveOne
  dsimp only
  split
  · rfl
  · exact State.emit_cur ..

theorem State.pump_cur (s : State) (c n : Nat) : (s.pump c n).1.cur = s.cur := by
  induction n generalizing s with
  | zero => rfl
  | succ n ih =>
    unfold State.pump
    split
    · rfl
    · next e _ =>
      dsimp only
      split <;> exact (ih _).trans (s.leaveOne_cur c e.1)

theorem State.wordLeft_cur (s : State) (o : Outstanding) : (s.wordLeft o).cur = s.cur := by
  unfold State.wordLeft
  split
  · rfl
  · dsimp only
    split <;> rfl

theorem State.pumpAll_cur (s : State) (c : Nat) : (s.pumpAll c).cur = s.cur :=
  (foldl_cur State.wordLeft_cur _ _).trans (s.pump_cur c _)

theorem State.drain_cur (s : State) (c : Nat) (p : WcbLine → Bool) : (s.drain c p).cur = s.cur := by
  unfold State.drain
  dsimp only
  rw [foldl_cur]
  · rfl
  · exact fun _ _ => State.pumpAll_cur ..

theorem State.combine_cur (s : State) (c t k : Nat) (ls : List Nat) (m : Nat) (asid : BitVec 16) (addr n v : Nat) (va : W64) :
    (s.combine c t k ls m asid addr n v va).cur = s.cur := by
  unfold State.combine
  extract_lets s'
  have room : s'.cur = s.cur := by
    unfold s'
    split
    · rfl
    · split
      · rfl
      · exact State.drain_cur ..
  split
  · exact (State.drain_cur ..).trans room
  · exact room

theorem State.writeSpan_cur {s c : State} {va n v fuel : Nat} (h : s.writeSpan va n v fuel = .ok c) : c.cur = s.cur := by
  induction fuel generalizing s va n v with
  | zero => cases h; rfl
  | succ fuel ih =>
    unfold State.writeSpan at h
    split at h
    · cases h; rfl
    · have stored := s.storeFor_cur s.cur.team (va % 2 ^ 64) (Nat.min n (8 - va % 2 ^ 64 % 8))
        (v % 2 ^ (8 * Nat.min n (8 - va % 2 ^ 64 % 8)))
      dsimp only at h
      split at h
      · next heq =>
        rw [heq] at stored
        exact (ih h).trans stored
      · next heq =>
        rw [heq] at stored
        exact (ih h).trans ((State.combine_cur ..).trans stored)
      · cases h

theorem State.sendBits_cur (s : State) (va m p n v : Nat) : (s.sendBits va m p n v).cur = s.cur :=
  (State.pumpAll_cur ..).trans (State.drain_cur ..)

theorem State.writeBits_cur {s c : State} {va m v : Nat} (h : s.writeBits va m v = .ok c) : c.cur = s.cur := by
  unfold State.writeBits at h
  dsimp only at h
  split at h
  · cases h
  · next t written =>
    have whole := State.writeSpan_cur written
    have last := t.storeBits_cur t.cur.team ((va + m / 8) % 2 ^ 64) (m % 8) (v / 2 ^ (8 * (m / 8)))
    split at h
    · cases h; exact whole
    · split at h
      · next heq =>
        rw [heq] at last
        cases h
        exact last.trans whole
      · next heq =>
        rw [heq] at last
        cases h
        exact (State.sendBits_cur ..).trans (last.trans whole)
      · cases h

end Sys2Proof.Machine
end

section
/-! PROOFS. Words of special registers, tiles, box copies, tasks, launches and replays, which act at once (R27 to R42, R131 to R174). -/

namespace Sys2Proof.Machine

open Sys2Proof

/-- A word completes in the state that `engineResult` gives. -/
def EngineCompletes (i : Instr) : Prop :=
  ∀ s r : State, s.Ready i → (s.before i).Gathered i → engineResult (s.before i) i = some r → exec i s = .next (s.after i r)

/-- It does where its effect makes that state of the state before it. -/
theorem EngineCompletes.of_body {i : Instr} {body : State → State} (hexec : ∀ s, exec i s = gate i s body) (hr : returns i = false)
    (hbody : ∀ b r : State, b.Gathered i → engineResult b i = some r → body b = r) : EngineCompletes i := by
  intro s r ready gathered result
  rw [hexec, gate_ready ready, hr, if_neg Bool.false_ne_true, hbody _ r gathered result]

/-! ### Records, counter words and submissions -/

/-- A record that can be read is what the word goes on with (R159). -/
theorem State.withRecord_got {b : State} {va n : Nat} {q : State × Nat} (h : b.got va n = some q) (k : State → Nat → State) :
    b.withRecord va n k = k q.1 q.2 := by
  unfold State.got at h
  unfold State.withRecord
  split at h
  · next hread =>
    cases h
    rw [hread]
  · cases h

theorem State.launchRead_got {b : State} {va n : Nat} {q : State × Nat} (h : b.got va n = some q) (k : State → Nat → State) (d : BitVec 6) :
    b.launchRead va n k d = k q.1 q.2 := by
  unfold State.got at h
  unfold State.launchRead
  split at h
  · next hread =>
    cases h
    rw [hread]
  · cases h

theorem State.withCounter_word {b : State} {x : Nat} {done : Option Nat} (h : b.counterWord x = some done) (k : Option Nat → State) :
    b.withCounter x k = k done := by
  unfold State.counterWord at h
  unfold State.withCounter
  split at h
  · cases h
  · next hx =>
    rw [if_neg hx]
    split at h
    · next hbit =>
      rw [hbit]
      obtain ⟨c, hc, rfl⟩ := Option.map_eq_some_iff.mp h
      rw [hc]
      rfl
    · next hbit =>
      cases h
      rw [Bool.eq_false_iff.mpr hbit]
      rfl

theorem State.submitCopy_submitted {b r : State} {k : Task} {dst : Option (Nat × Nat)} (h : b.submitted k dst = some r) :
    b.submitCopy k dst = r := by
  unfold State.submitted at h
  unfold State.submitCopy
  split at h
  · cases h
  · next free =>
    rw [if_neg free]
    cases dst with
    | none => exact Option.some.inj h
    | some e =>
      dsimp only at h ⊢
      split at h
      · cases h
      · next room =>
        rw [if_neg room]
        exact Option.some.inj h

theorem eq_ok_of_toOption {ε α : Type} {x : Except ε α} {a : α} (h : x.toOption = some a) : x = .ok a := by
  cases x with
  | error => cases h
  | ok => exact congrArg Except.ok (Option.some.inj h)

/-- No cause of a list applies. -/
theorem lowest_eq_none {cs : List (Bool × Nat)} (h : ∀ c ∈ cs, c.1 = false) : lowest cs = none := by
  have none_ : (cs.filterMap fun c => if c.1 then some c.2 else none) = [] := by
    rw [List.filterMap_eq_nil_iff]
    intro c hc
    rw [h c hc]
    rfl
  unfold lowest
  rw [none_]
  rfl

/-! ### Special registers, banks and tiles -/

theorem mtsrUniform_completes (d : BitVec 6) (n : BitVec 10) (st : BitVec 2) : EngineCompletes (.mtsrUniform d n st) := by
  refine .of_body (fun _ => rfl) rfl fun b r _ e => ?_
  obtain ⟨c, written, rfl⟩ := Option.map_eq_some_iff.mp e
  dsimp only [State.getS]
  rw [written]

theorem mtsrLane_completes (d : BitVec 6) (p : BitVec 1) (n : BitVec 10) (st : BitVec 2) : EngineCompletes (.mtsrLane d p n st) := by
  refine .of_body (fun _ => rfl) rfl fun b r _ e => ?_
  obtain ⟨c, written, rfl⟩ := Option.map_eq_some_iff.mp e
  dsimp only
  rw [written]

theorem wswap_completes (st : BitVec 2) : EngineCompletes (.wswap st) :=
  .of_body (fun _ => rfl) rfl fun _ _ _ e => Option.some.inj e

theorem accAlloc_completes (t n : BitVec 6) (st : BitVec 2) : EngineCompletes (.accAlloc t n st) := by
  refine .of_body (fun _ => rfl) rfl fun b r _ e => ?_
  obtain ⟨⟨fits, free, held⟩, e⟩ := Option.ite_none_right_eq_some.mp e
  have fresh : ((List.range (n.toNat + 1)).any fun j => (b.tile (t.toNat + j)).allocated) = false := by
    simpa using free
  dsimp only
  rw [fresh, lowest_eq_none]
  · exact Option.some.inj e
  · simp only [List.mem_cons, List.not_mem_nil, or_false]
    rintro c (rfl | rfl)
    · simpa using fits
    · simpa using held

theorem State.takeTiles_free {b : State} {t n : Nat} (ok : b.tilesOk t n = true) (idle : b.tilesBusy b.cur.team b.cur.party t n = false)
    (x : Tile) : b.takeTiles t n x = (b.setTiles t n x).advance := by
  unfold State.takeTiles
  rw [ok, idle]
  rfl

theorem accFree_completes (t n : BitVec 6) (st : BitVec 2) : EngineCompletes (.accFree t n st) := by
  refine .of_body (fun _ => rfl) rfl fun b r _ e => ?_
  obtain ⟨⟨ok, idle⟩, e⟩ := Option.ite_none_right_eq_some.mp e
  exact (State.takeTiles_free ok idle _).trans (Option.some.inj e)

theorem accAnc_completes (t n a : BitVec 6) (st : BitVec 2) : EngineCompletes (.accAnc t n a st) := by
  refine .of_body (fun _ => rfl) rfl fun b r _ e => ?_
  obtain ⟨⟨ok, idle⟩, e⟩ := Option.ite_none_right_eq_some.mp e
  exact (State.takeTiles_free ok idle _).trans (Option.some.inj e)

theorem accFlg_completes (d t : BitVec 6) (c : BitVec 1) (st : BitVec 2) : EngineCompletes (.accFlg d t c st) :=
  .of_body (fun _ => rfl) rfl fun _ _ _ e => Option.some.inj e

theorem clend_completes (a : BitVec 7) (w x y z : BitVec 4) (st : BitVec 2) : EngineCompletes (.clend a w x y z st) := by
  refine .of_body (fun _ => rfl) rfl fun b r _ e => ?_
  obtain ⟨trailer, e⟩ := Option.ite_none_right_eq_some.mp e
  have inside : (b.cur.lanes.any fun l => (b.curParty.lane l).clause != some (b.curParty.lane l).pc) = false := by
    simpa using trailer
  dsimp only
  rw [inside, if_neg Bool.false_ne_true]
  exact Option.some.inj e

/-! ### Shapes, copies and jobs -/

theorem tshape_completes (k : BitVec 3) (a : BitVec 6) (st : BitVec 2) : EngineCompletes (.tshape k a st) := by
  refine .of_body (fun _ => rfl) rfl fun b r _ e => ?_
  obtain ⟨aligned, e⟩ := Option.ite_none_left_eq_some.mp e
  obtain ⟨q, got, e⟩ := Option.bind_eq_some_iff.mp e
  obtain ⟨sound, e⟩ := Option.ite_none_left_eq_some.mp e
  dsimp only [State.getS]
  rw [if_neg aligned, State.withRecord_got got]
  rw [Option.not_isSome_iff_eq_none] at sound
  rw [sound]
  exact Option.some.inj e

theorem copy_completes (a c : BitVec 6) (x y : BitVec 1) (st : BitVec 2) : EngineCompletes (.copy a c x y st) := by
  refine .of_body (fun _ => rfl) rfl fun b r _ e => ?_
  obtain ⟨length, e⟩ := Option.ite_none_left_eq_some.mp e
  obtain ⟨done, counter, e⟩ := Option.bind_eq_some_iff.mp e
  dsimp only [State.getS]
  rw [if_neg length, State.withCounter_word counter]
  exact State.submitCopy_submitted e

theorem copyt_completes (a c : BitVec 6) (t : BitVec 1) (st : BitVec 2) : EngineCompletes (.copyt a c t st) := by
  refine .of_body (fun _ => rfl) rfl fun b r _ e => ?_
  obtain ⟨aligned, e⟩ := Option.ite_none_left_eq_some.mp e
  obtain ⟨done, counter, e⟩ := Option.bind_eq_some_iff.mp e
  obtain ⟨q, got, e⟩ := Option.bind_eq_some_iff.mp e
  obtain ⟨sound, e⟩ := Option.ite_none_left_eq_some.mp e
  dsimp only [State.getS]
  rw [if_neg aligned, State.withCounter_word counter, State.withRecord_got got]
  simp only [not_or, Bool.not_eq_true, Option.isSome_eq_false_iff, Option.isNone_iff_eq_none] at sound
  obtain ⟨shape, small, placed, whole⟩ := sound
  rw [shape, lowest_eq_none]
  · exact State.submitCopy_submitted e
  · simp only [List.mem_cons, List.not_mem_nil, or_false]
    rintro c (rfl | rfl | rfl)
    · simpa using small
    · exact placed
    · simpa using whole

theorem taskSub_completes (d a : BitVec 6) (st : BitVec 2) : EngineCompletes (.taskSub d a st) := by
  refine .of_body (fun _ => rfl) rfl fun b r _ e => ?_
  obtain ⟨good, e⟩ := Option.ite_none_left_eq_some.mp e
  obtain ⟨g, gate, e⟩ := Option.bind_eq_some_iff.mp e
  obtain ⟨f, done, e⟩ := Option.bind_eq_some_iff.mp e
  simp only [not_or, Bool.not_eq_true, Option.isSome_eq_false_iff, Option.isNone_iff_eq_none] at good
  obtain ⟨aligned, header, idle, regions, room, idle', card, inside⟩ := good
  dsimp only [State.getS]
  rw [if_neg aligned, if_neg header, idle, if_neg Bool.false_ne_true, if_neg regions, if_neg room, idle', if_neg Bool.false_ne_true, card,
    if_neg Bool.false_ne_true, inside, gate, done]
  rw [Option.some.injEq] at e
  rw [← e]

theorem collPut_completes (a c : BitVec 6) (st : BitVec 2) : EngineCompletes (.collPut a c st) := by
  refine .of_body (fun _ => rfl) rfl fun b r _ e => ?_
  obtain ⟨allowed, e⟩ := Option.ite_none_left_eq_some.mp e
  dsimp only [State.getS]
  rw [if_neg allowed]
  exact Option.some.inj e

/-! ### Launches and replays -/

/-- The result that a `launch` word writes for an end of its acceptance (R173). -/
def LaunchEnd.code : LaunchEnd → W64
  | .result k => w64 k
  | _ => 0

theorem LaunchEnd.putS_code (d : BitVec 6) (x : State × LaunchEnd) :
    (match x with | (c, .result k) => c.putS d (w64 k) | (c, _) => c.putS d 0) = x.1.putS d x.2.code := by
  obtain ⟨c, k⟩ := x
  cases k <;> rfl

theorem launch_completes (d a c : BitVec 6) (st : BitVec 2) : EngineCompletes (.launch d a c st) := by
  refine .of_body (fun _ => rfl) rfl fun b r _ e => ?_
  obtain ⟨word, e⟩ := Option.ite_none_left_eq_some.mp e
  obtain ⟨queue, place, e⟩ := Option.bind_eq_some_iff.mp e
  obtain ⟨allowed, e⟩ := Option.ite_none_left_eq_some.mp e
  dsimp only [State.getS]
  rw [if_neg word, place]
  dsimp only
  rw [if_neg allowed]
  split at e
  · next misaligned => rw [if_pos misaligned]; exact Option.some.inj e
  next aligned =>
  rw [if_neg aligned]
  obtain ⟨q, got, e⟩ := Option.bind_eq_some_iff.mp e
  rw [State.launchRead_got got]
  cases header : parseHeader (b.rdS a.toNat).toNat q.2 with
  | none =>
    simp only [header] at e ⊢
    exact Option.some.inj e
  | some x =>
    simp only [header] at e ⊢
    split at e
    · next bare => rw [if_pos bare]; exact (LaunchEnd.putS_code d _).trans (Option.some.inj e)
    next params =>
    rw [if_neg params]
    obtain ⟨aligned, e⟩ := Option.ite_none_left_eq_some.mp e
    obtain ⟨p, got, rfl⟩ := Option.map_eq_some_iff.mp e
    rw [if_neg aligned, State.launchRead_got got]
    exact LaunchEnd.putS_code d _

theorem replay_completes (n : BitVec 2) (a c : BitVec 6) (st : BitVec 2) : EngineCompletes (.replay n a c st) := by
  refine .of_body (fun _ => rfl) rfl fun b r _ e => ?_
  obtain ⟨aligned, e⟩ := Option.ite_none_left_eq_some.mp e
  obtain ⟨q, header, e⟩ := Option.bind_eq_some_iff.mp e
  obtain ⟨good, e⟩ := Option.ite_none_left_eq_some.mp e
  obtain ⟨done, counter, e⟩ := Option.bind_eq_some_iff.mp e
  obtain ⟨reachable, e⟩ := Option.ite_none_left_eq_some.mp e
  obtain ⟨p, bindings, e⟩ := Option.bind_eq_some_iff.mp e
  dsimp only [State.getS]
  rw [if_neg aligned, State.withRecord_got header, if_neg good, State.withCounter_word counter]
  rw [Option.not_isSome_iff_eq_none] at reachable
  simp only [reachable]
  rw [State.withRecord_got bindings]
  cases checked : p.1.checkBindings (b.rdS a.toNat).toNat (graphOf q.2) (numbersOf p.2 8 (graphOf q.2).nbind) with
  | mk m stop =>
  simp only [checked] at e ⊢
  cases stop with
  | some stopped => cases e
  | none =>
  by_cases absent : m.locate m.curTeam.slot m.curTeam.alloc .write (b.rdS a.toNat).toNat 8 = .error .absent
  · simp only [absent] at e
    cases e
  simp only at e ⊢
  cases free : (List.range 4).find? fun j => !bit (graphOf q.2).busy j with
  | none =>
    simp only [free] at e ⊢
    exact Option.some.inj e
  | some j =>
    simp only [free] at e ⊢
    obtain ⟨patched, e⟩ := Option.ite_none_left_eq_some.mp e
    obtain ⟨w, patch, e⟩ := Option.bind_eq_some_iff.mp e
    obtain ⟨m1, slot, e⟩ := Option.bind_eq_some_iff.mp e
    obtain ⟨m2, mark, e⟩ := Option.map_eq_some_iff.mp e
    rw [if_neg patched, State.withRecord_got patch, eq_ok_of_toOption slot]
    simp only
    rw [eq_ok_of_toOption mark]
    exact e

end Sys2Proof.Machine
end

section
/-! PROOFS. A strand that has met at a word, and long words run to their end (R37, R75 to R77, R115 to R117, R137 to R157). -/

namespace Sys2Proof

/-- An entry of a table in canonical form is what its key holds. -/
theorem FMap.get_of_mem {α : Type} [DecidableEq α] {d : α} {m : List (Nat × α)} (h : FMap.wf d m = true) {k : Nat} {v : α}
    (hm : (k, v) ∈ m) : FMap.get d m k = v := by
  have above : ∀ (m : List (Nat × α)) (lo : Nat), FMap.wfFrom d (some lo) m = true → ∀ p ∈ m, lo < p.1 := by
    intro m
    induction m with
    | nil => exact fun _ _ p hp => absurd hp List.not_mem_nil
    | cons e t ih =>
      intro lo h p hp
      simp only [FMap.wfFrom, Bool.and_eq_true, decide_eq_true_eq] at h
      rcases List.mem_cons.mp hp with rfl | hp
      · exact h.1.1
      · exact Nat.lt_trans h.1.1 (ih _ h.2 p hp)
  unfold FMap.wf at h
  generalize (none : Option Nat) = lo at h
  induction m generalizing lo with
  | nil => exact absurd hm List.not_mem_nil
  | cons e t ih =>
    simp only [FMap.wfFrom, Bool.and_eq_true] at h
    obtain ⟨-, h⟩ := h
    rcases List.mem_cons.mp hm with rfl | hm
    · exact if_pos rfl
    · have apart : e.1 ≠ k := Nat.ne_of_lt (above t e.1 h _ hm)
      exact (if_neg apart).trans (ih hm _ h)

end Sys2Proof

namespace Sys2Proof.Machine

open Sys2Proof

/-! ### Meeting -/

/-- In a table in canonical form the active lanes are those that have not exited. -/
theorem Party.mem_active {p : Party} (h : FMap.wf {} p.lanes = true) {l : Nat} : l ∈ p.active ↔ (p.lane l).exited = false := by
  unfold Party.active
  simp only [List.mem_map, List.mem_filter, Bool.not_eq_true']
  constructor
  · rintro ⟨⟨k, x⟩, ⟨hx, active⟩, rfl⟩
    show (FMap.get {} p.lanes k).exited = false
    rw [FMap.get_of_mem h hx]
    exact active
  · intro active
    obtain ⟨⟨k, x⟩, hx, rfl⟩ := List.mem_map.mp (Party.mem_lanes active)
    refine ⟨⟨k, x⟩, ⟨hx, ?_⟩, rfl⟩
    have e : p.lane k = x := FMap.get_of_mem h hx
    rw [← e]
    exact active

theorem Party.wf_mapLanes {p : Party} (h : FMap.wf {} p.lanes = true) (ls : List Nat) (f : Nat → Lane → Lane) :
    FMap.wf {} (p.mapLanes ls f).lanes = true :=
  FMap.wf_foldl_set _ (fun l => l) (fun l => f l (p.lane l)) ls _ h

section
variable {b : State} (h : b.Met) {w : Wait} (gathers : w.gathers = true) (key : w.key = none)
include h gathers key

/-- Once the issuing lanes wait as well, every active lane waits at the one word. -/
theorem State.Met.held_lane {l : Nat} (hl : l ∈ (b.hold w).curParty.active) :
    ((b.hold w).curParty.lane l).wait.gathers = true ∧ ((b.hold w).curParty.lane l).wait.key = none
    ∧ ((b.hold w).curParty.lane l).pc = (b.curParty.lane l).pc ∧ l ∈ b.curParty.active := by
  have party : (b.hold w).curParty = b.curParty.mapLanes b.cur.lanes fun _ x => x.hold w := State.curParty_mapLanes ..
  rw [party] at hl ⊢
  rw [Party.mem_active (Party.wf_mapLanes h.table _ _)] at hl
  rw [Party.lane_mapLanes] at hl ⊢
  by_cases issuing : l ∈ b.cur.lanes
  · rw [if_pos issuing] at hl ⊢
    exact ⟨gathers, key, rfl, (Party.mem_active h.table).mpr hl⟩
  · rw [if_neg issuing] at hl ⊢
    have active := (Party.mem_active h.table).mpr hl
    obtain ⟨others, nokey⟩ := h.others l active issuing
    exact ⟨others, nokey, rfl, active⟩

/-- A word at which the strand has met acts once for all its lanes. -/
theorem State.Met.gather_eq (body : State → State) : b.gather w body = body (b.metAt w) := by
  have gathered : (b.hold w).curParty.gathered = true := List.all_eq_true.mpr fun l hl => (h.held_lane gathers key hl).1
  have together : (b.hold w).curParty.together = true := by
    refine List.all_eq_true.mpr fun l hl => ?_
    have first : (b.hold w).curParty.active.head?.getD 0 ∈ (b.hold w).curParty.active := by
      cases active : (b.hold w).curParty.active with
      | nil => rw [active] at hl; cases hl
      | cons k ks => exact List.mem_cons_self
    obtain ⟨-, nokey, pc, mem⟩ := h.held_lane gathers key hl
    obtain ⟨-, -, pc', mem'⟩ := h.held_lane gathers key first
    rw [nokey, pc, pc', h.same l mem, h.same _ mem']
    simp
  unfold State.gather
  simp only [gathered, together, Bool.not_true, Bool.false_eq_true, if_false, Bool.true_or, if_true]
  rfl

end

theorem clause_completes (n : BitVec 5) (st : BitVec 2) : EngineCompletes (.clause n st) := by
  refine .of_body (fun _ => rfl) rfl fun b r gathered e => ?_
  obtain ⟨length, e⟩ := Option.ite_none_left_eq_some.mp e
  cases words : b.clauseWords (b.curParty.lane b.firstLane).pc (n.toNat + 1) with
  | error m =>
    simp only [words] at e
    cases e
  | ok ws =>
  simp only [words] at e
  obtain ⟨body, good, e⟩ := Option.bind_eq_some_iff.mp e
  obtain ⟨ready, e⟩ := Option.ite_none_left_eq_some.mp e
  simp only [Bool.or_eq_true, not_or, Bool.not_eq_true, Bool.not_eq_false'] at ready
  obtain ⟨strand, exports⟩ := ready
  simp only [State.Gathered, words, good] at gathered
  simp only [gt_iff_lt]
  rw [if_neg length]
  simp only [words, good, strand, exports, Bool.not_true, Bool.false_eq_true, if_false]
  rw [← Option.some.inj e]
  cases cross : body.any fun j => familyOf j == .cross with
  | true =>
    simp only [if_true]
    exact (gathered cross).gather_eq rfl rfl _
  | false => rfl

/-! ### Long words -/

/-- The lanes for which a word acts: some, and none that has exited. -/
structure State.Issues (b : State) : Prop where
  some : b.cur.lanes ≠ []
  active : ∀ l ∈ b.cur.lanes, (b.curParty.lane l).exited = false

theorem State.Ready.issues {s : State} {i : Instr} (h : s.Ready i) (hs : systemRelease i = false) : (s.before i).Issues := by
  have issuing := h.issuing
  simp only [State.issuing, Bool.and_eq_true, Bool.not_eq_true', List.isEmpty_eq_false_iff, List.all_eq_true] at issuing
  obtain ⟨⟨-, lanes⟩, active⟩ := issuing
  have cur : (s.before i).cur.lanes = s.cur.lanes := by rw [State.before_cur hs]
  refine ⟨cur ▸ lanes, fun l hl => ?_⟩
  rw [cur] at hl
  obtain ⟨q, looked⟩ := s.looked_lane i l
  rw [State.before_lane hs hl, looked]
  exact active l hl

/-- The units of a plan act for the turn that issues the word, and leave it as it is. -/
def Plan.KeepsTurn (p : Plan) : Prop := ∀ n unit, p = .ok (n, unit) → ∀ s k c, unit s k = .ok c → c.cur = s.cur

theorem Plan.keepsTurn_error (s : State) : Plan.KeepsTurn (.error s) := by
  intro n unit h
  cases h

theorem Plan.keepsTurn_ok {n : Nat} {unit : State → Nat → Except State State} (h : ∀ s k c, unit s k = .ok c → c.cur = s.cur) :
    Plan.KeepsTurn (.ok (n, unit)) := by
  rintro _ _ ⟨⟩
  exact h

theorem Plan.keepsTurn_checkRows {p : Plan} (h : p.KeepsTurn) (s : State) (rs : List Rows) (acc : Acc) : (s.checkRows rs acc p).KeepsTurn := by
  unfold State.checkRows
  split
  · exact Plan.keepsTurn_error _
  · exact h

theorem State.awaitRows_ok {s c : State} {rs : List Rows} {k : Except State State} (h : s.awaitRows rs k = .ok c) : k = .ok c := by
  unfold State.awaitRows at h
  split at h
  · cases h
  · exact h

/-- Once the issuing lanes stand at a unit, that is the unit from which the word goes on. -/
theorem State.unit_standAt {c : State} (h : c.cur.lanes ≠ []) (p n : Nat) :
    let s := (c.standAt p n).mapLanes fun _ x => { x with wait := .none }
    (s.curParty.lane s.firstLane).unit = p := by
  intro s
  have first : c.firstLane ∈ c.cur.lanes := by
    unfold State.firstLane
    cases lanes : c.cur.lanes with
    | nil => exact absurd lanes h
    | cons l ls => exact List.mem_cons_self
  have party : s.curParty = (c.curParty.mapLanes c.cur.lanes fun _ x => { x with unit := p, units := n }).mapLanes c.cur.lanes
      fun _ x => { x with wait := .none } := by
    refine (State.curParty_mapLanes ..).trans ?_
    rw [show (c.standAt p n).curParty = _ from State.curParty_mapLanes ..]
    rfl
  show (s.curParty.lane c.firstLane).unit = p
  rw [party, Party.lane_mapLanes, if_pos first, Party.lane_mapLanes, if_pos first]

/-- Units that run to the end of the word in one turn are the units that `unitsFrom` runs. -/
theorem State.units_unitsFrom {unit : State → Nat → Except State State} (keeps : ∀ s k c, unit s k = .ok c → c.cur = s.cur) {n : Nat}
    {m fuel p : Nat} {s c : State} (lanes : s.cur.lanes ≠ []) (at_ : (s.curParty.lane s.firstLane).unit = p) (left : p + (m + 1) = n)
    (enough : m + 1 ≤ fuel) (run : unitsFrom unit n (m + 1) p s = some c) : s.units n unit fuel = c.advance := by
  induction m generalizing s p fuel with
  | zero =>
    obtain ⟨fuel, rfl⟩ : ∃ f, fuel = f + 1 := ⟨fuel - 1, by omega⟩
    have last := eq_ok_of_toOption run
    unfold State.units
    dsimp only
    rw [at_, if_neg (by omega), last]
    dsimp only
    rw [if_pos (by omega)]
  | succ m ih =>
    obtain ⟨fuel, rfl⟩ : ∃ f, fuel = f + 1 := ⟨fuel - 1, by omega⟩
    obtain ⟨d, done, rest⟩ := Option.bind_eq_some_iff.mp run
    have done := eq_ok_of_toOption done
    have dlanes : d.cur.lanes ≠ [] := by rw [keeps s p d done]; exact lanes
    unfold State.units
    dsimp only
    rw [at_, if_neg (by omega), done]
    dsimp only
    rw [if_neg (by omega)]
    exact ih dlanes (State.unit_standAt dlanes (p + 1) n) (by omega) (by omega) rest

/-- A plan run in a turn that may run it to its end. -/
theorem Plan.run_longResult {p : Plan} {b r : State} (keeps : p.KeepsTurn) (units : b.cur.units = none) (lanes : b.cur.lanes ≠ [])
    (h : longResult p b = some r) : p.run b = r := by
  cases p with
  | error s => cases h
  | ok q =>
    obtain ⟨n, unit⟩ := q
    obtain ⟨c, run, rfl⟩ := Option.map_eq_some_iff.mp h
    unfold Plan.run
    simp only [units, Option.getD_none]
    dsimp only at run
    generalize at_ : (b.curParty.lane b.firstLane).unit = p at run
    by_cases left : p < n
    · obtain ⟨m, hm⟩ : ∃ m, n - p = m + 1 := ⟨n - p - 1, by omega⟩
      rw [hm] at run
      exact State.units_unitsFrom (keeps n unit rfl) lanes at_ (by omega) (by omega) run
    · have past : n - p = 0 := by omega
      rw [past] at run
      unfold State.units
      dsimp only
      rw [at_, if_pos (by omega), Option.some.inj run]

/-- A strand that has met at a word has lanes. -/
theorem State.Met.metAt_lanes {b : State} (met : b.Met) (issues : b.Issues) (w : Wait) : (b.metAt w).cur.lanes ≠ [] := by
  obtain ⟨l, hl⟩ := List.exists_mem_of_ne_nil _ issues.some
  have party : (b.hold w).curParty = b.curParty.mapLanes b.cur.lanes fun _ x => x.hold w := State.curParty_mapLanes ..
  have active : l ∈ (b.metAt w).cur.lanes := by
    show l ∈ (b.hold w).curParty.active
    rw [party, Party.mem_active (Party.wf_mapLanes met.table _ _), Party.lane_mapLanes, if_pos hl]
    exact issues.active l hl
  exact List.ne_nil_of_mem active

/-- A long word completes where its effect runs its plan, whose units keep the turn. -/
theorem EngineCompletes.of_plan {i : Instr} {body : State → State} {plan : State → Plan} {at_ : State → State}
    (hexec : ∀ s, exec i s = gate i s body) (hr : returns i = false) (hs : systemRelease i = false)
    (result : ∀ b, engineResult b i = longResult (plan b) (at_ b)) (keeps : ∀ b, (plan b).KeepsTurn)
    (hbody : ∀ b : State, b.Gathered i → b.Issues →
      body b = (plan b).run (at_ b) ∧ (at_ b).cur.units = none ∧ (at_ b).cur.lanes ≠ []) : EngineCompletes i := by
  intro s r ready gathered e
  obtain ⟨run, units, lanes⟩ := hbody _ gathered (ready.issues hs)
  rw [hexec, gate_ready ready, hr, if_neg Bool.false_ne_true, run]
  rw [Plan.run_longResult (keeps _) units lanes ((result _).symm.trans e)]

/-! ### The plans -/

theorem State.keepsTurn_tldPlan (s : State) (k : BitVec 3) (a c : BitVec 6) : (s.tldPlan k a c).KeepsTurn := by
  unfold State.tldPlan
  split
  · exact Plan.keepsTurn_error _
  dsimp only
  split
  · exact Plan.keepsTurn_error _
  refine Plan.keepsTurn_checkRows (Plan.keepsTurn_ok fun s row c h => ?_) _ _ _
  have landed := State.awaitRows_ok h
  split at landed
  · next heq =>
    rw [← Except.ok.inj landed]
    exact (congrArg (fun q => q.1.cur) heq).symm.trans (State.readRow_cur ..)
  · cases landed

theorem State.keepsTurn_tstPlan (s : State) (k : BitVec 3) (a c : BitVec 6) : (s.tstPlan k a c).KeepsTurn := by
  unfold State.tstPlan
  split
  · exact Plan.keepsTurn_error _
  dsimp only
  split
  · exact Plan.keepsTurn_error _
  exact Plan.keepsTurn_checkRows (Plan.keepsTurn_ok fun s row c h => State.writeBits_cur (State.awaitRows_ok h)) _ _ _

theorem State.keepsTurn_mmaPlan (s : State) (t a c : BitVec 6) : (s.mmaPlan t a c).KeepsTurn := by
  unfold State.mmaPlan
  dsimp only
  split
  · exact Plan.keepsTurn_error _
  split
  · exact Plan.keepsTurn_error _
  refine Plan.keepsTurn_checkRows (Plan.keepsTurn_ok fun s m c h => ?_) _ _ _
  rw [← Except.ok.inj (State.awaitRows_ok h)]
  rfl

theorem State.keepsTurn_mmacPlan (s : State) (t g c : BitVec 6) : (s.mmacPlan t g c).KeepsTurn := by
  unfold State.mmacPlan
  dsimp only
  split
  · exact Plan.keepsTurn_error _
  split
  · exact Plan.keepsTurn_error _
  refine Plan.keepsTurn_ok fun s m c h => ?_
  rw [← Except.ok.inj h]
  rfl

theorem State.keepsTurn_accRdPlan (s : State) (t a c : BitVec 6) (z : BitVec 1) : (s.accRdPlan t a c z).KeepsTurn := by
  unfold State.accRdPlan
  dsimp only
  split
  · exact Plan.keepsTurn_error _
  split
  · exact Plan.keepsTurn_error _
  refine Plan.keepsTurn_checkRows (Plan.keepsTurn_ok fun s m c h => ?_) _ _ _
  rw [← Except.ok.inj (State.awaitRows_ok h)]
  split <;> rfl

theorem State.keepsTurn_wloadPlan (s : State) (d a c : BitVec 6) (src w : BitVec 1) : (s.wloadPlan d a c src w).KeepsTurn := by
  unfold State.wloadPlan
  dsimp only
  split
  · split
    · exact Plan.keepsTurn_error _
    refine Plan.keepsTurn_checkRows (Plan.keepsTurn_ok fun s p c h => ?_) _ _ _
    rw [← Except.ok.inj (State.awaitRows_ok h)]
    split <;> rfl
  · split
    · exact Plan.keepsTurn_error _
    split
    · exact Plan.keepsTurn_error _
    refine Plan.keepsTurn_checkRows (Plan.keepsTurn_ok fun s p c h => ?_) _ _ _
    split at h
    · cases h
    · next box =>
      rw [← Except.ok.inj (State.awaitRows_ok h), ← State.fetchBox_cur box]
      split <;> rfl

theorem keepsTurn_tconPlan (d a : BitVec 7) (u : BitVec 4) (t : BitVec 3) (m : BitVec 2) : (tconPlan d a u t m).KeepsTurn :=
  Plan.keepsTurn_ok fun s p c h => by
    rw [← Except.ok.inj h]
    rfl

/-! ### Long words complete -/

theorem mma_completes (t a c : BitVec 6) (st : BitVec 2) : EngineCompletes (.mma t a c st) :=
  .of_plan (plan := fun b => (b.useTiles _).mmaPlan t a c) (fun _ => rfl) rfl rfl (fun _ => rfl)
    (fun _ => State.keepsTurn_mmaPlan _ _ _ _) fun _ g h => ⟨rfl, g, h.some⟩

theorem mmac_completes (t g c : BitVec 6) (st : BitVec 2) : EngineCompletes (.mmac t g c st) :=
  .of_plan (plan := fun b => (b.useTiles _).mmacPlan t g c) (fun _ => rfl) rfl rfl (fun _ => rfl)
    (fun _ => State.keepsTurn_mmacPlan _ _ _ _) fun _ g h => ⟨rfl, g, h.some⟩

theorem accRd_completes (t a c : BitVec 6) (z : BitVec 1) (st : BitVec 2) : EngineCompletes (.accRd t a c z st) :=
  .of_plan (plan := fun b => (b.useTiles _).accRdPlan t a c z) (fun _ => rfl) rfl rfl (fun _ => rfl)
    (fun _ => State.keepsTurn_accRdPlan _ _ _ _ _) fun _ g h => ⟨rfl, g, h.some⟩

/-- A `wload` that begins finds the fetch buffer empty (R248). -/
def State.atFetch (b : State) : State :=
  if (b.curParty.lane b.firstLane).units = 0 then b.setCurParty { b.curParty with fetchBuf := [] } else b

theorem State.atFetch_cur (b : State) : b.atFetch.cur = b.cur := by
  unfold State.atFetch
  split <;> rfl

theorem wload_completes (d a c : BitVec 6) (x w : BitVec 1) (st : BitVec 2) : EngineCompletes (.wload d a c x w st) := by
  refine .of_plan (plan := fun b => b.atFetch.wloadPlan d a c x w) (at_ := State.atFetch) (fun _ => rfl) rfl rfl (fun _ => rfl)
    (fun _ => State.keepsTurn_wloadPlan _ _ _ _ _ _) fun b g h => ⟨rfl, ?_, ?_⟩
  · rw [State.atFetch_cur]
    exact g
  · rw [State.atFetch_cur]
    exact h.some

theorem tcon_completes (d a : BitVec 7) (u : BitVec 4) (t : BitVec 3) (m st : BitVec 2) : EngineCompletes (.tcon d a u t m st) := by
  refine .of_plan (plan := fun _ => tconPlan d a u t m) (at_ := fun b => b.metAt .crossLane) (fun _ => rfl) rfl rfl (fun _ => rfl)
    (fun _ => keepsTurn_tconPlan _ _ _ _ _) fun b ⟨met, units⟩ issues => ⟨met.gather_eq rfl rfl _, units, met.metAt_lanes issues _⟩

theorem tld_completes (k : BitVec 3) (a c : BitVec 6) (st : BitVec 2) : EngineCompletes (.tld k a c st) :=
  .of_plan (at_ := id) (fun _ => rfl) rfl rfl (fun _ => rfl) (fun b => b.keepsTurn_tldPlan k a c) fun _ g h => ⟨rfl, g, h.some⟩

theorem tst_completes (k : BitVec 3) (a c : BitVec 6) (st : BitVec 2) : EngineCompletes (.tst k a c st) :=
  .of_plan (at_ := id) (fun _ => rfl) rfl rfl (fun _ => rfl) (fun b => b.keepsTurn_tstPlan k a c) fun _ g h => ⟨rfl, g, h.some⟩

/-! ### Every engine word -/

/-- A word that is no engine word has no result. -/
theorem EngineCompletes.of_none {i : Instr} (h : ∀ b, engineResult b i = none) : EngineCompletes i := by
  intro s r _ _ result
  rw [h] at result
  cases result

/-- `engineResult` gives a state for the engine words alone, and each of them completes in it. -/
theorem engineCompletes (i : Instr) : EngineCompletes i := by
  cases i with
  | mtsrUniform d n st => exact mtsrUniform_completes d n st
  | mtsrLane d p n st => exact mtsrLane_completes d p n st
  | clause n st => exact clause_completes n st
  | clend a w x y z st => exact clend_completes a w x y z st
  | tcon d a u t m st => exact tcon_completes d a u t m st
  | wload d a c x w st => exact wload_completes d a c x w st
  | mma t a c st => exact mma_completes t a c st
  | mmac t g c st => exact mmac_completes t g c st
  | accRd t a c z st => exact accRd_completes t a c z st
  | tld k a c st => exact tld_completes k a c st
  | tst k a c st => exact tst_completes k a c st
  | wswap st => exact wswap_completes st
  | accAlloc t n st => exact accAlloc_completes t n st
  | accFree t n st => exact accFree_completes t n st
  | accAnc t n a st => exact accAnc_completes t n a st
  | accFlg d t c st => exact accFlg_completes d t c st
  | tshape k a st => exact tshape_completes k a st
  | copy a c x y st => exact copy_completes a c x y st
  | copyt a c t st => exact copyt_completes a c t st
  | taskSub d a st => exact taskSub_completes d a st
  | collPut a c st => exact collPut_completes a c st
  | launch d a c st => exact launch_completes d a c st
  | replay n a c st => exact replay_completes n a c st
  | _ => exact .of_none fun _ => rfl

/-- Settles O34: every word completes in the state that `engineResult` gives. -/
theorem engineResults : Obligations.EngineResults := fun s i => engineCompletes i s

end Sys2Proof.Machine
end

section
/-! PROOFS. Integer lane words (R54 to R59): each word's result in the form that its statement gives.

Here and below `lia -abstractProof` leaves a step of arithmetic inside the theorem that takes it: set apart as lemmas, these steps would be
most of what the text holds, and more than the check's memory. -/

namespace Sys2Proof

/-! ### Sums, products and orders of 32-bit words -/

/-- A number clamped to a range is its lower end, its upper end, or itself. -/
theorem clamp_eq {lo hi z : Int} (h : lo ≤ hi) : max lo (min hi z) = if z < lo then lo else if hi < z then hi else z := by
  split_ifs <;> lia -abstractProof

end Sys2Proof

namespace Sys2Proof.Machine

open Sys2Proof

theorem satS32_eq (z : Int) :
    satS32 z = if z < -(2 ^ 31) then 0x80000000#32 else if 2 ^ 31 ≤ z then 0x7FFFFFFF#32 else BitVec.ofInt 32 z := by
  unfold satS32
  rw [clamp_eq (by norm_num)]
  by_cases low : z < -(2 ^ 31)
  · rw [if_pos low, if_pos low]
    rfl
  by_cases high : 2 ^ 31 ≤ z
  · rw [if_neg low, if_neg low, if_pos (by lia -abstractProof), if_pos high]
    rfl
  · rw [if_neg low, if_neg low, if_neg (by lia -abstractProof), if_neg high]

theorem satN32_eq (z : Int) :
    satN32 z = if z < 0 then 0#32 else if 2 ^ 32 ≤ z then 0xFFFFFFFF#32 else BitVec.ofInt 32 z := by
  unfold satN32
  rw [clamp_eq (by norm_num)]
  by_cases low : z < 0
  · rw [if_pos low, if_pos low]
    rfl
  by_cases high : 2 ^ 32 ≤ z
  · rw [if_neg low, if_neg low, if_pos (by lia -abstractProof), if_pos high]
    rfl
  · rw [if_neg low, if_neg low, if_neg (by lia -abstractProof), if_neg high]

/-- A wrapped sum keeps the low bits of the exact one (R54). -/
theorem ofInt_toNat_add (x y : W32) : BitVec.ofInt 32 (x.toNat + y.toNat) = x + y := by
  rw [BitVec.ofInt_add, BitVec.ofInt_natCast, BitVec.ofInt_natCast, BitVec.ofNat_toNat, BitVec.ofNat_toNat, BitVec.setWidth_eq, BitVec.setWidth_eq]

/-- And a wrapped difference those of the exact difference. -/
theorem ofInt_toNat_sub (x y : W32) : BitVec.ofInt 32 (x.toNat - y.toNat) = x - y := by
  rw [Int.sub_eq_add_neg, BitVec.ofInt_add, BitVec.ofInt_neg, BitVec.ofInt_natCast, BitVec.ofInt_natCast, BitVec.ofNat_toNat, BitVec.ofNat_toNat,
    BitVec.setWidth_eq, BitVec.setWidth_eq, BitVec.sub_eq_add_neg]

theorem addForm_add (m : BitVec 2) (x y : W32) : addForm m (· + ·) x y = sumForm m false x y := by
  unfold addForm sumForm
  simp only [satS32_eq, satN32_eq, ofInt_toNat_add, Bool.false_eq_true, if_false]

theorem addForm_sub (m : BitVec 2) (x y : W32) : addForm m (· - ·) x y = sumForm m true x y := by
  unfold addForm sumForm
  simp only [satS32_eq, satN32_eq, ofInt_toNat_sub, if_true]

/-- The high half of a signed product (R54). -/
theorem mulHigh_signed (x y : W32) :
    BitVec.ofInt 32 (x.toInt * y.toInt / 2 ^ 32) = (x.signExtend 64 * y.signExtend 64).extractLsb' 32 32 := by
  have hx : (x.signExtend 64).toInt = x.toInt := BitVec.toInt_signExtend_of_le (by lia -abstractProof)
  have hy : (y.signExtend 64).toInt = y.toInt := BitVec.toInt_signExtend_of_le (by lia -abstractProof)
  have product : x.signExtend 64 * y.signExtend 64 = BitVec.ofInt 64 (x.toInt * y.toInt) := by
    rw [BitVec.ofInt_mul, ← hx, ← hy, BitVec.ofInt_toInt, BitVec.ofInt_toInt]
  rw [product]
  apply BitVec.eq_of_toNat_eq
  rw [BitVec.toNat_ofInt, BitVec.extractLsb'_toNat, BitVec.toNat_ofInt, Nat.shiftRight_eq_div_pow]
  generalize x.toInt * y.toInt = z
  lia -abstractProof

/-- The high half of an unsigned product (R54). -/
theorem mulHigh_unsigned (x y : W32) :
    BitVec.ofNat 32 (x.toNat * y.toNat / 2 ^ 32) = (x.setWidth 64 * y.setWidth 64).extractLsb' 32 32 := by
  have bound : x.toNat * y.toNat < 2 ^ 64 := by
    have := Nat.mul_lt_mul'' x.isLt y.isLt
    simpa using this
  apply BitVec.eq_of_toNat_eq
  rw [BitVec.toNat_ofNat, BitVec.extractLsb'_toNat, BitVec.toNat_mul, Nat.shiftRight_eq_div_pow,
    BitVec.toNat_setWidth_of_le (by lia -abstractProof), BitVec.toNat_setWidth_of_le (by lia -abstractProof), Nat.mod_eq_of_lt bound]

theorem min_toInt (x y : W32) : (if x.toInt ≤ y.toInt then x else y) = if y.slt x then y else x := by
  rw [if_congr BitVec.slt_iff_toInt_lt rfl rfl, ← ite_not, if_congr Int.not_le rfl rfl]

theorem max_toInt (x y : W32) : (if x.toInt ≤ y.toInt then y else x) = if x.slt y then y else x := by
  simp only [BitVec.slt_iff_toInt_lt]
  split_ifs with h g g
  · rfl
  · exact BitVec.eq_of_toInt_eq (by lia -abstractProof)
  · lia -abstractProof
  · rfl

/-- A rotation as two shifts (R55). -/
theorem rotateLeft_eq_or (x : W32) (k : Nat) (h : k < 32) : x.rotateLeft k = x <<< k ||| x >>> (32 - k) := by
  rw [BitVec.rotateLeft_def, Nat.mod_eq_of_lt h]

/-! ### Relations and flags -/

theorem relation_eq_related (rel : Nat) (x y : Int) : relation rel x y = related rel x y := by
  unfold relation related
  rcases rel with _ | _ | _ | _ | _ | n
  · rfl
  · simp [bne, BEq.beq]
  · rfl
  · rfl
  · rfl
  · simp

theorem combineFlag_eq (c : Nat) (old r : Bool) : combineFlag c old r = combined3 c old r := by
  unfold combineFlag combined3
  rcases c with _ | _ | n
  · rfl
  · rfl
  · simp

/-! ### Counting, reversing and extracting bits (R55) -/

theorem popCount_eq_countP (v n : Nat) : popCount v n = (List.range n).countP fun k => v.testBit k := by
  induction n with
  | zero => rfl
  | succ n ih =>
    rw [List.range_succ, List.countP_append, ← ih, List.countP_singleton, Nat.testBit_eq_decide_div_mod_eq]
    show v / 2 ^ n % 2 + popCount v n = _
    rcases Nat.mod_two_eq_zero_or_one (v / 2 ^ n) with h | h <;> simp [h, Nat.add_comm]

theorem testBit_reverseBits (v n i : Nat) : (reverseBits v n).testBit i = (decide (i < n) && v.testBit (n - 1 - i)) := by
  induction n generalizing v i with
  | zero => simp [reverseBits]
  | succ n ih =>
    have below : reverseBits (v / 2) n < 2 ^ n := by
      apply Nat.lt_pow_two_of_testBit
      intro j hj
      rw [ih, decide_eq_false (by lia -abstractProof), Bool.false_and]
    show (v % 2 * 2 ^ n + reverseBits (v / 2) n).testBit i = _
    rw [Nat.mul_comm, Nat.testBit_two_pow_mul_add _ below]
    by_cases low : i < n
    · rw [if_pos low, ih, decide_eq_true low, decide_eq_true (by lia -abstractProof : i < n + 1), Nat.testBit_div_two]
      congr 2
      lia -abstractProof
    · rw [if_neg low]
      by_cases top : i = n
      · subst top
        simp [Nat.testBit_zero]
      · rw [decide_eq_false (by lia -abstractProof), Bool.false_and]
        exact Nat.testBit_lt_two_pow (Nat.lt_of_lt_of_le (Nat.mod_lt _ (by lia -abstractProof)) (by
          calc 2 = 2 ^ 1 := rfl
            _ ≤ 2 ^ (i - n) := Nat.pow_le_pow_right (by lia -abstractProof) (by lia -abstractProof)))

theorem reverseBits_eq_reverse (x : W32) : w32 (reverseBits x.toNat 32) = x.reverse := by
  apply BitVec.eq_of_getLsbD_eq
  intro i hi
  rw [w32, BitVec.getLsbD_ofNat, testBit_reverseBits, BitVec.getLsbD_reverse, BitVec.getMsbD_eq_getLsbD, BitVec.testBit_toNat, decide_eq_true hi,
    Bool.true_and]

theorem popCount_eq (x : W32) : w32 (popCount x.toNat 32) = BitVec.ofNat 32 ((List.range 32).countP fun k => x.getLsbD k) := by
  rw [popCount_eq_countP]
  rfl

/-- The leading zeros of a word: the first bit from the top that is set (R55). -/
theorem leadingZeros_eq (x : W32) :
    (if x = 0 then 32 else w32 (31 - Nat.log2 x.toNat))
      = BitVec.ofNat 32 (((List.range 33).find? fun k => k == 32 || x.getMsbD k).getD 32) := by
  by_cases zero : x = 0
  · subst zero
    decide
  rw [if_neg zero, w32]
  have nonzero : x.toNat ≠ 0 := fun h => zero (BitVec.eq_of_toNat_eq (by simpa using h))
  have low : Nat.log2 x.toNat < 32 := (Nat.log2_lt nonzero).mpr x.isLt
  have found : ((List.range 33).find? fun k => k == 32 || x.getMsbD k) = some (31 - Nat.log2 x.toNat) := by
    rw [List.find?_range_eq_some]
    refine ⟨?_, by simp; lia -abstractProof, fun j hj => ?_⟩
    · rw [BitVec.getMsbD_eq_getLsbD, ← BitVec.testBit_toNat]
      rw [show 32 - 1 - (31 - Nat.log2 x.toNat) = Nat.log2 x.toNat by lia -abstractProof, Nat.testBit_log2 nonzero]
      simp; lia -abstractProof
    · rw [BitVec.getMsbD_eq_getLsbD, ← BitVec.testBit_toNat, Nat.testBit_lt_two_pow]
      · simp; lia -abstractProof
      · exact (Nat.log2_lt nonzero).mp (by lia -abstractProof)
  rw [found]
  rfl

/-- A field of n bits as a mask of a shifted word (R55). -/
theorem bitField_eq (x : W32) (k n : Nat) (h : n ≤ 32) : w32 (x.toNat / 2 ^ k % 2 ^ n) = x >>> k &&& BitVec.ofNat 32 (2 ^ n - 1) := by
  apply BitVec.eq_of_toNat_eq
  have mask : 2 ^ n - 1 < 2 ^ 32 := by
    have := Nat.pow_le_pow_right (n := 2) (by lia -abstractProof) h
    lia -abstractProof
  rw [BitVec.toNat_and, BitVec.toNat_ushiftRight, BitVec.toNat_ofNat, Nat.mod_eq_of_lt mask, Nat.and_two_pow_sub_one_eq_mod, Nat.shiftRight_eq_div_pow,
    w32, BitVec.toNat_ofNat, Nat.mod_eq_of_lt]
  exact Nat.lt_of_le_of_lt (Nat.mod_le _ _) (Nat.lt_of_le_of_lt (Nat.div_le_self _ _) x.isLt)

/-- The four flags as a number (R57). -/
theorem flagWord_eq (p q r s : Bool) :
    w32 (b2n p + 2 * b2n q + 4 * b2n r + 8 * b2n s) = 0#28 ++ BitVec.ofBool s ++ BitVec.ofBool r ++ BitVec.ofBool q ++ BitVec.ofBool p := by
  revert p q r s
  decide

theorem halfWord_append (k : BitVec 16) (x : W32) : k ++ x.setWidth 16 = k ++ x.extractLsb' 0 16 := by
  congr 1

/-! ### The words -/

/-- A word that writes in each issuing lane what `w` says of it, and goes on. -/
def LaneCompletes (w : State → Nat → Instr → Write) (i : Instr) : Prop :=
  ∀ s : State, s.Ready i → ∃ t, exec i s = .next t ∧ (s.before i).Wrote t i fun l => w (s.before i) l i

section
variable {w : State → Nat → Instr → Write} {i : Instr} (hs : systemRelease i = false) (hr : returns i = false)
include hs hr

theorem LaneCompletes.of_lane32 {d : BitVec 7} {f : State → Nat → Lane → W32} (hexec : ∀ s, exec i s = gate i s fun s => s.lane32 d (f s))
    (hw : ∀ b l, w b l i = .one d (f b l (b.curParty.lane l))) : LaneCompletes w i := by
  intro s ready
  rw [hexec]
  exact gate_lane32 ready hs hr d f _ fun l _ => hw _ l

theorem LaneCompletes.of_lane64 {d : BitVec 7} {f : State → Nat → Lane → W64} (hexec : ∀ s, exec i s = gate i s fun s => s.lane64 d (f s))
    (hw : ∀ b l, w b l i = .pair d (f b l (b.curParty.lane l))) : LaneCompletes w i := by
  intro s ready
  rw [hexec]
  exact gate_lane64 ready hs hr d f _ fun l _ => hw _ l

theorem LaneCompletes.of_laneFlag {n : Nat} {f : State → Nat → Lane → Bool} (hexec : ∀ s, exec i s = gate i s fun s => s.laneFlag n (f s))
    (hw : ∀ b l, w b l i = .toFlag n (f b l (b.curParty.lane l))) : LaneCompletes w i := by
  intro s ready
  rw [hexec]
  exact gate_laneFlag ready hs hr n f _ fun l _ => hw _ l

end

/-- A body that depends on the word alone is one of its branches. -/
theorem gate_ite {c : Prop} [Decidable c] (i : Instr) (s : State) (f g : State → State) :
    gate i s (fun s => if c then f s else g s) = if c then gate i s f else gate i s g := by
  split_ifs <;> rfl

theorem add_completes (d a e : BitVec 7) (m st : BitVec 2) : LaneCompletes intWrite (.add d a e m st) := by
  by_cases pair : m = 1
  · exact .of_lane64 rfl rfl (fun s => (gate_ite ..).trans (if_pos pair)) fun b l => if_pos pair
  · refine .of_lane32 rfl rfl (fun s => (gate_ite ..).trans (if_neg pair)) fun b l => (if_neg pair).trans ?_
    rw [addForm_add]
    rfl

theorem sub_completes (d a e : BitVec 7) (m st : BitVec 2) : LaneCompletes intWrite (.sub d a e m st) := by
  by_cases pair : m = 1
  · exact .of_lane64 rfl rfl (fun s => (gate_ite ..).trans (if_pos pair)) fun b l => if_pos pair
  · refine .of_lane32 rfl rfl (fun s => (gate_ite ..).trans (if_neg pair)) fun b l => (if_neg pair).trans ?_
    rw [addForm_sub]
    rfl

theorem mul_completes (d a e : BitVec 7) (m st : BitVec 2) : LaneCompletes intWrite (.mul d a e m st) := by
  by_cases pair : m = 3
  · subst pair
    exact .of_lane64 rfl rfl (fun s => rfl) fun b l => rfl
  · refine .of_lane32 rfl rfl (fun s => (gate_ite ..).trans (if_neg pair)) fun b l => ?_
    have forms : m = 0 ∨ m = 1 ∨ m = 2 := by
      revert pair
      revert m
      decide
    rcases forms with rfl | rfl | rfl
    · rfl
    · exact congrArg (Write.one d) (mulHigh_signed _ _).symm
    · exact congrArg (Write.one d) (mulHigh_unsigned _ _).symm

theorem mad_completes (d a e : BitVec 7) (m st : BitVec 2) : LaneCompletes intWrite (.mad d a e m st) := by
  by_cases single : m = 0
  · subst single
    exact .of_lane32 rfl rfl (fun s => rfl) fun b l => congrArg (Write.one d) (BitVec.add_comm _ _)
  · refine .of_lane64 rfl rfl (fun s => (gate_ite ..).trans (if_neg single)) fun b l => (if_neg single).trans ?_
    dsimp only
    split_ifs <;> exact congrArg (Write.pair d) (BitVec.add_comm _ _)

theorem cmp_completes (d a e : BitVec 7) (t st : BitVec 2) : LaneCompletes intWrite (.cmp d a e t st) := by
  refine .of_laneFlag rfl rfl (fun s => rfl) fun b l => ?_
  rw [relation_eq_related, combineFlag_eq]
  rfl

/-- Settles O13: each integer lane word writes the result of its rule. -/
theorem laneIntegerResults : Obligations.LaneIntegerResults := by
  intro s i integer
  suffices LaneCompletes intWrite i from this s
  cases i with
  | add d a e m st => exact add_completes d a e m st
  | sub d a e m st => exact sub_completes d a e m st
  | mul d a e m st => exact mul_completes d a e m st
  | mad d a e m st => exact mad_completes d a e m st
  | cmp d a e t st => exact cmp_completes d a e t st
  | and | or | xor | andn | shl | shr | sar | sel | mov | addi | andi | shli | shri | sari | li =>
    exact .of_lane32 rfl rfl (fun _ => rfl) fun _ _ => rfl
  | rot => exact .of_lane32 rfl rfl (fun _ => rfl) fun _ _ => congrArg (Write.one _) (rotateLeft_eq_or _ _ (Nat.mod_lt _ (by lia -abstractProof))).symm
  | min => exact .of_lane32 rfl rfl (fun _ => rfl) fun _ _ => congrArg (Write.one _) (min_toInt _ _).symm
  | max => exact .of_lane32 rfl rfl (fun _ => rfl) fun _ _ => congrArg (Write.one _) (max_toInt _ _).symm
  | popc => exact .of_lane32 rfl rfl (fun _ => rfl) fun _ _ => congrArg (Write.one _) (popCount_eq _).symm
  | clz => exact .of_lane32 rfl rfl (fun _ => rfl) fun _ _ => congrArg (Write.one _) (leadingZeros_eq _).symm
  | brev => exact .of_lane32 rfl rfl (fun _ => rfl) fun _ _ => congrArg (Write.one _) (reverseBits_eq_reverse _).symm
  | bfe => exact .of_lane32 rfl rfl (fun _ => rfl) fun _ _ => congrArg (Write.one _) (bitField_eq _ _ _ (Nat.min_le_right _ _)).symm
  | movc => exact .of_lane32 rfl rfl (fun _ => rfl) fun _ _ => congrArg (Write.one _) (flagWord_eq _ _ _ _).symm
  | lih => exact .of_lane32 rfl rfl (fun _ => rfl) fun _ _ => congrArg (Write.one _) (halfWord_append _ _).symm
  | _ => exact absurd integer Bool.false_ne_true

end Sys2Proof.Machine
end

section
/-! PROOFS. A cross-lane word to which the whole strand has come changes its lanes and nothing else (R75, R76). -/

namespace Sys2Proof

/-- The keys of a table in canonical form rise. -/
theorem FMap.keys_pairwise {α : Type} [DecidableEq α] {d : α} {m : List (Nat × α)} (h : FMap.wf d m = true) :
    (m.map (·.1)).Pairwise (· < ·) := by
  have above : ∀ (m : List (Nat × α)) (lo : Option Nat), FMap.wfFrom d lo m = true →
      (m.map (·.1)).Pairwise (· < ·) ∧ ∀ l, lo = some l → ∀ k ∈ m.map (·.1), l < k := by
    intro m
    induction m with
    | nil => exact fun _ _ => ⟨List.Pairwise.nil, fun _ _ _ hk => absurd hk List.not_mem_nil⟩
    | cons e t ih =>
      intro lo h
      simp only [FMap.wfFrom, Bool.and_eq_true] at h
      obtain ⟨⟨low, -⟩, rest⟩ := h
      obtain ⟨sorted, next⟩ := ih _ rest
      refine ⟨List.Pairwise.cons (next e.1 rfl) sorted, ?_⟩
      rintro l rfl k hk
      have first : l < e.1 := of_decide_eq_true low
      rcases List.mem_cons.mp hk with rfl | hk
      · exact first
      · exact Nat.lt_trans first (next e.1 rfl k hk)
  exact (above m none h).1

end Sys2Proof

namespace Sys2Proof.Machine

open Sys2Proof

/-- The active lanes of a strand rise. -/
theorem Party.active_pairwise {p : Party} (h : FMap.wf {} p.lanes = true) : p.active.Pairwise (· < ·) :=
  (FMap.keys_pairwise h).sublist (List.Sublist.map _ List.filter_sublist)

/-- The first active lane is the lowest. -/
theorem Party.active_head {p : Party} (h : FMap.wf {} p.lanes = true) {low : Nat} (mem : low ∈ p.active) (le : ∀ l ∈ p.active, low ≤ l) :
    p.active.head?.getD 0 = low := by
  have sorted := Party.active_pairwise h
  cases active : p.active with
  | nil => rw [active] at mem; cases mem
  | cons k ks =>
    rw [active] at mem le sorted
    rcases List.mem_cons.mp mem with rfl | tail
    · rfl
    · exact absurd (List.rel_of_pairwise_cons sorted tail) (Nat.not_lt.mpr (le k List.mem_cons_self))

/-- Changes of lanes that let none exit leave the active lanes as they are. -/
theorem Party.active_mapLanes {p : Party} (h : FMap.wf {} p.lanes = true) (ls : List Nat) {f : Nat → Lane → Lane}
    (hf : ∀ l x, (f l x).exited = x.exited) : (p.mapLanes ls f).active = p.active := by
  have table := Party.wf_mapLanes h ls f
  refine List.Pairwise.eq_of_mem_iff (Party.active_pairwise table) (Party.active_pairwise h) fun l => ?_
  rw [Party.mem_active table, Party.mem_active h, Party.lane_mapLanes]
  split
  · rw [hf]
  · rfl

/-! ### The state in which the strand has met -/

theorem State.metAt_curParty (b : State) (w : Wait) : (b.metAt w).curParty = b.curParty.mapLanes b.cur.lanes fun _ x => x.hold w :=
  State.curParty_mapLanes ..

theorem State.metAt_lane (b : State) (w : Wait) (l : Nat) :
    (b.metAt w).curParty.lane l = if l ∈ b.cur.lanes then (b.curParty.lane l).hold w else b.curParty.lane l := by
  rw [State.metAt_curParty, Party.lane_mapLanes]

/-- Every lane of the strand issues where it has met. -/
theorem State.Met.metAt_cur {b : State} (met : b.Met) (w : Wait) : (b.metAt w).cur = b.whole.cur := by
  have active : (b.hold w).curParty.active = b.curParty.active := by
    rw [show (b.hold w).curParty = _ from b.metAt_curParty w]
    exact Party.active_mapLanes met.table _ fun _ _ => rfl
  unfold State.metAt State.whole
  rw [active]

theorem State.metAt_curTeam (b : State) (w : Wait) :
    (b.metAt w).curTeam = b.curTeam.setParty b.cur.party (b.curParty.mapLanes b.cur.lanes fun _ x => x.hold w) :=
  State.curTeam_setCurParty ..

/-! A lane that waits reads and holds what it does. -/

@[simp] theorem State.rd_metAt (b : State) (w : Wait) (l free k n : Nat) :
    ((b.metAt w).curParty.lane l).rd free k n = (b.curParty.lane l).rd free k n := by
  rw [State.metAt_lane]
  split <;> rfl

@[simp] theorem State.rd64_metAt (b : State) (w : Wait) (l free k n : Nat) :
    ((b.metAt w).curParty.lane l).rd64 free k n = (b.curParty.lane l).rd64 free k n := by
  rw [State.metAt_lane]
  split <;> rfl

@[simp] theorem State.rdFlag_metAt (b : State) (w : Wait) (l free k n : Nat) :
    ((b.metAt w).curParty.lane l).rdFlag free k n = (b.curParty.lane l).rdFlag free k n := by
  rw [State.metAt_lane]
  split <;> rfl

theorem State.width_metAt (b : State) (w : Wait) : (b.metAt w).curTeam.hdr.width = b.curTeam.hdr.width := by
  rw [State.metAt_curTeam]
  rfl

theorem State.round_metAt (b : State) (w : Wait) : (b.metAt w).curParty.round = b.curParty.round := by
  rw [State.metAt_curParty]
  rfl

theorem State.holds_metAt {b : State} {w : Wait} {l : Nat} {y : Lane} {v : Write} (h : Lane.Holds ((b.metAt w).curParty.lane l) y v) :
    Lane.Holds (b.curParty.lane l) y v := by
  rw [State.metAt_lane] at h
  split at h
  · exact ⟨h.regs, h.flags, h.raised⟩
  · exact h

/-! ### Settling where every lane goes on -/

theorem State.curParty_setTeam (s : State) (T : Team) : (s.setTeam s.cur.team T).curParty = T.party s.cur.party := by
  show ((s.setTeam s.cur.team T).team s.cur.team).party s.cur.party = _
  rw [State.team_setTeam, if_pos rfl]

/-- Some lanes of a party have been passed over by a word that issued in cycle n (R201). -/
def Party.passOver (p : Party) (ls : List Nat) (n : Nat) : Party :=
  { p.mapLanes ls (fun _ x => { x with skipped := x.skipped + 1 }) with lastIssue := n }

theorem Party.passOver_nil (p : Party) : p.passOver [] p.lastIssue = p := rfl

theorem Party.lane_passOver (p : Party) (ls : List Nat) (n l : Nat) : ∃ k, (p.passOver ls n).lane l = { p.lane l with skipped := k } := by
  change ∃ k, (p.mapLanes ls fun _ x => { x with skipped := x.skipped + 1 }).lane l = _
  rw [Party.lane_mapLanes]
  split
  · exact ⟨_, rfl⟩
  · exact ⟨(p.lane l).skipped, rfl⟩

/-- The issuing party written, and the word counted for it, in a team without a skid. -/
theorem State.curParty_countIssue {r : State} (calm : r.curTeam.halt.calm = true) (Q : Party) (went : List Nat) :
    ∃ ls n, ((r.setCurParty Q).countIssue r.cur.team r.cur.party went).curParty = Q.passOver ls n := by
  have team : (r.setCurParty Q).team r.cur.team = r.curTeam.setParty r.cur.party Q := State.curTeam_setCurParty r Q
  have party : (r.curTeam.setParty r.cur.party Q).party r.cur.party = Q := (Team.party_setParty ..).trans (if_pos rfl)
  rw [State.countIssue_calm _ _ _ _ (by rw [team]; exact calm), team, party]
  refine ⟨Q.active.filter fun l => !went.contains l, (r.setCurParty Q).now, (State.curParty_setTeam (r.setCurParty Q) _).trans ?_⟩
  exact (Team.party_setParty ..).trans (if_pos rfl)

/-- The issuing party once the word is settled, in a team without a skid. -/
theorem State.curParty_settled {r : State} (calm : r.curTeam.halt.calm = true) (i : Instr) (u : Uses) (b : State) :
    ∃ ls n, (r.settle i u b).curParty = (r.settledCurParty i u b).passOver ls n := by
  rw [State.settle_eq]
  split
  · next idle =>
    obtain ⟨begun, went⟩ := Bool.and_eq_true_iff.mp idle
    have same : r.settledCurParty i u b = r.curParty := by
      unfold State.settledCurParty State.countedParty
      rw [if_pos went, List.isEmpty_iff.mp begun, List.isEmpty_iff.mp went]
      rfl
    rw [same]
    exact ⟨[], _, r.curParty.passOver_nil.symm⟩
  generalize r.settledCurParty i u b = Q
  split
  · exact ⟨[], _, (State.curParty_setCurParty ..).trans Q.passOver_nil.symm⟩
  · exact State.curParty_countIssue calm _ _

/-- Where every issuing lane goes past the word, all of them settle. -/
theorem State.went_eq {r : State} (h : ∀ l ∈ r.cur.lanes, (r.curParty.lane l).wait = .none ∧ (r.curParty.lane l).units = 0) :
    r.went = r.cur.lanes := by
  unfold State.went
  rw [List.filter_eq_self]
  intro l hl
  simp [h l hl]

/-- An issuing lane that settles: what issuing the word counts in it, and how often it was passed over. -/
theorem State.lane_settled {r : State} (calm : r.curTeam.halt.calm = true) (i : Instr) (u : Uses) (b : State)
    (h : ∀ l ∈ r.cur.lanes, (r.curParty.lane l).wait = .none ∧ (r.curParty.lane l).units = 0) {l : Nat} (hl : l ∈ r.cur.lanes) :
    ∃ n, (r.settle i u b).curParty.lane l
      = { Lane.settle r.now u ((b.curParty.lane l).stall i) b.curParty (b.curParty.lane l) (r.curParty.lane l) with skipped := n } := by
  obtain ⟨ls, n, party⟩ := State.curParty_settled calm i u b
  have lane : ∃ x, (r.settledCurParty i u b).lane l
      = Lane.settle r.now u ((b.curParty.lane l).stall i) b.curParty (b.curParty.lane l) { r.curParty.lane l with skipped := x } := by
    have counted : (r.settledCurParty i u b).lane l = (r.countedParty i u b).lane l := by
      unfold State.settledCurParty
      split <;> rfl
    rw [counted, State.countedParty, State.went_eq h, Party.lane_mapLanes, if_pos hl, Party.lane_mapLanes]
    split
    · exact ⟨_, rfl⟩
    · exact ⟨(r.curParty.lane l).skipped, rfl⟩
  obtain ⟨x, lane⟩ := lane
  obtain ⟨k, passed⟩ := (r.settledCurParty i u b).lane_passOver ls n l
  rw [party, passed, lane]
  exact ⟨k, rfl⟩

/-- Party q is party p but for its lanes and what issuing a word counts. -/
def Party.Framed (p q : Party) : Prop :=
  { q with lanes := p.lanes, lastIssue := p.lastIssue, peerBuf := p.peerBuf, refused := p.refused } = p

theorem State.framed_settledCurParty {p : Party} {r : State} (h : p.Framed r.curParty) (i : Instr) (u : Uses) (b : State) :
    p.Framed (r.settledCurParty i u b) := by
  unfold State.settledCurParty State.countedParty
  split <;> exact h

theorem State.framed_settle {p : Party} {r : State} (h : p.Framed r.curParty) (calm : r.curTeam.halt.calm = true) (i : Instr) (u : Uses)
    (b : State) : p.Framed (r.settle i u b).curParty := by
  obtain ⟨ls, n, settled⟩ := State.curParty_settled calm i u b
  rw [settled]
  exact State.framed_settledCurParty h i u b

/-- A lane that waited at a word where its strand met, changed in registers and flags, gone on and settled. -/
theorem Lane.past_met {b : State} {i : Instr} {x y : Lane} {w : Wait} {c : Prop} [Decidable c] (same : (if c then x.hold w else x).Same y)
    (u : Uses) (p : Party) (k : Nat) :
    Lane.Past b i (x.pc + 4) x { Lane.settle b.now u (x.stall i) p x y.next with skipped := k } := by
  have rest := congrArg (fun q : Lane => { q with
    pc := x.pc, wait := x.wait, marked := x.marked, ready := x.ready, pend := x.pend, skipped := x.skipped, pass := x.pass
    lastPc := x.lastPc, bad := x.bad, unit := x.unit, units := x.units, tiles := x.tiles, staleCount := x.staleCount
    staleSince := x.staleSince, v := x.v, t := x.t, c := x.c, fflags := x.fflags }) same
  have pc : y.pc = x.pc := by
    have e := congrArg Lane.pc same
    refine Eq.trans e ?_
    split <;> rfl
  refine ⟨Eq.trans rest ?_, congrArg (· + 4) pc, ⟨rfl, rfl, rfl⟩, rfl, rfl, rfl⟩
  split <;> rfl

/-! ### What a met word writes -/

/-- Only the strand that met has changed, and in its lanes alone. -/
theorem State.kept_whole {b : State} (calm : b.curTeam.halt.calm = true) (i : Instr) (u : Uses) {Q : Party}
    (framed : b.curParty.Framed Q) (idle : ∀ l, l ∉ b.curParty.active → Q.lane l = b.curParty.lane l) :
    b.whole.Kept ((b.whole.setCurParty Q).settle i u b) := by
  have counted := (b.whole.setCurParty Q).settle_counted i u b
  have team : (b.whole.setCurParty Q).curTeam = b.curTeam.setParty b.cur.party Q := State.curTeam_setCurParty ..
  have party : (b.whole.setCurParty Q).curParty = Q := State.curParty_setCurParty ..
  have settled := State.framed_settle (r := b.whole.setCurParty Q) (by rw [party]; exact framed) (by rw [team]; exact calm) i u b
  generalize (b.whole.setCurParty Q).settle i u b = t at counted settled
  have cur : t.cur = b.whole.cur := by
    have e := congrArg State.cur counted.rest
    exact e
  have tteam : t.curTeam = t.team b.cur.team := by
    unfold State.curTeam
    rw [cur]
    rfl
  have tparty : t.curParty = t.party b.cur.team b.cur.party := by
    unfold State.curParty
    rw [cur]
    rfl
  refine ⟨congrArg (fun s : State => { s with teams := b.teams }) counted.rest, fun j hj => ?_, ?_, fun k hk => ?_, ?_, fun l hl => ?_⟩
  · exact (counted.others j hj).trans ((State.team_setTeam ..).trans (if_neg hj))
  · have frame := congrArg
      (fun T : Team => { T with parties := b.curTeam.parties, lastIssue := b.curTeam.lastIssue, swapIn := b.curTeam.swapIn }) counted.team
    rw [team] at frame
    rw [tteam]
    exact frame
  · refine (counted.parties k hk).trans ?_
    show (State.curTeam (b.whole.setCurParty Q)).party k = _
    rw [team]
    exact (Team.party_setParty ..).trans (if_neg hk)
  · exact congrArg (fun p : Party => { p with s := b.curParty.s }) settled
  · have passed := counted.party.idle l hl
    rw [party, idle l hl] at passed
    rw [tparty]
    exact passed

section
variable {b : State} (met : b.Met)
include met

/-- Where the strand has met, writing its party is the same as in the state before the word. -/
theorem State.Met.setCurParty_metAt (w : Wait) (Q : Party) : (b.metAt w).setCurParty Q = b.whole.setCurParty Q := by
  have twice : { (b.hold w).setCurParty Q with cur := b.whole.cur } = b.whole.setCurParty Q := by
    unfold State.hold State.mapLanes
    rw [State.setCurParty_setCurParty]
    rfl
  rw [← twice, ← met.metAt_cur w]
  rfl

/-- The strand that met, once its lanes have gone on. -/
theorem State.Met.eachLane_metAt (w : Wait) (f : Nat → Lane → Lane) :
    (b.metAt w).eachLane f
      = b.whole.setCurParty ((b.metAt w).curParty.mapLanes b.curParty.active fun l x => (f l x).next) := by
  unfold State.eachLane State.mapLanes
  rw [met.setCurParty_metAt, met.metAt_cur]
  rfl

/-- A cross-lane word for which the whole strand has come writes what is said of each lane, and nothing else. -/
theorem State.Met.wrote_eachLane (issues : b.Issues) (calm : b.curTeam.halt.calm = true) (w : Wait) (i : Instr) (u : Uses)
    {f : Nat → Lane → Lane} {v : Nat → Write} (same : ∀ (l : Nat) (x : Lane), x.Same (f l x))
    (holds : ∀ l ∈ b.curParty.active, Lane.Holds (b.curParty.lane l) (f l ((b.metAt w).curParty.lane l)) (v l)) :
    b.whole.Wrote (((b.metAt w).eachLane f).settle i u b) i v := by
  rw [met.eachLane_metAt]
  generalize hQ : (b.metAt w).curParty.mapLanes b.curParty.active (fun l x => (f l x).next) = Q
  have team : (b.whole.setCurParty Q).curTeam = b.curTeam.setParty b.cur.party Q := State.curTeam_setCurParty ..
  have party : (b.whole.setCurParty Q).curParty = Q := State.curParty_setCurParty ..
  have lane : ∀ l ∈ b.curParty.active, Q.lane l = (f l ((b.metAt w).curParty.lane l)).next := by
    intro l hl
    rw [← hQ, Party.lane_mapLanes, if_pos hl]
  have idle : ∀ l, l ∉ b.curParty.active → Q.lane l = b.curParty.lane l := by
    intro l hl
    have off : l ∉ b.cur.lanes := fun h => hl ((Party.mem_active met.table).mpr (issues.active l h))
    rw [← hQ, Party.lane_mapLanes, if_neg hl, State.metAt_lane, if_neg off]
  have framed : b.curParty.Framed Q := by
    rw [← hQ, State.metAt_curParty]
    rfl
  have settled := fun l hl => State.lane_settled (r := b.whole.setCurParty Q) (by rw [team]; exact calm) i u b
    (by rw [party]; exact fun l hl => by rw [lane l hl]; exact ⟨rfl, rfl⟩) (l := l) hl
  have frame := State.framed_settle (r := b.whole.setCurParty Q) (by rw [party]; exact framed) (by rw [team]; exact calm) i u b
  have kept := State.kept_whole calm i u framed idle
  generalize (b.whole.setCurParty Q).settle i u b = t at settled frame kept
  rw [party] at settled
  refine ⟨kept, fun n => ?_, fun l hl => ?_, fun l hl => ?_⟩
  · have s := congrArg Party.s frame
    exact congrArg (fun m => FMap.get 0 m n) s
  · obtain ⟨k, settled⟩ := settled l hl
    rw [settled, lane l hl]
    have lane_same := same l ((b.metAt w).curParty.lane l)
    generalize f l ((b.metAt w).curParty.lane l) = y at lane_same
    rw [State.metAt_lane] at lane_same
    exact Lane.past_met lane_same u b.curParty k
  · obtain ⟨k, settled⟩ := settled l hl
    rw [settled, lane l hl]
    have h := holds l hl
    exact ⟨h.regs, h.flags, h.raised⟩

end

/-- A word that a gathered strand executes, each lane writing what `crossWrite` says of it. -/
def CrossCompletes (i : Instr) : Prop :=
  ∀ s : State, s.Ready i → (s.before i).Met →
    ∃ t, exec i s = .next t ∧ (s.before i).whole.Wrote t i fun l => crossWrite (s.before i).whole l i

/-- A cross-lane word is what its lanes become once the strand has met. -/
theorem CrossCompletes.of_eachLane {i : Instr} (hs : systemRelease i = false) (hr : returns i = false) {f : State → Nat → Lane → Lane}
    (hexec : ∀ s, exec i s = gate i s fun s => s.crossLane fun c => c.eachLane (f c)) (same : ∀ (c : State) (l : Nat) (x : Lane), x.Same (f c l x))
    (holds : ∀ b : State, b.Met → ∀ l ∈ b.curParty.active,
      let c := b.metAt .crossLane
      Lane.Holds (c.curParty.lane l) (f c l (c.curParty.lane l)) (crossWrite b.whole l i)) : CrossCompletes i := by
  intro s ready met
  refine ⟨_, by rw [hexec, gate_ready ready, hr, if_neg Bool.false_ne_true], ?_⟩
  show State.Wrote _ (s.after i ((s.before i).gather .crossLane _)) _ _
  rw [met.gather_eq rfl rfl]
  exact met.wrote_eachLane (ready.issues hs) (State.before_from ready hs).calm .crossLane i _ (same _)
    fun l hl => State.holds_metAt (holds _ met l hl)

end Sys2Proof.Machine
end

section
/-! PROOFS. The cross-lane words (R78 to R86). -/

namespace Sys2Proof.Machine

open Sys2Proof

section
variable {i : Instr} (hs : systemRelease i = false) (hr : returns i = false)
include hs hr

/-- A cross-lane word of one register. -/
theorem CrossCompletes.of_lane32 {d : BitVec 7} {f : State → Nat → Lane → W32}
    (hexec : ∀ s, exec i s = gate i s fun s => s.crossLane fun c => c.lane32 d (f c))
    (hw : ∀ b : State, b.Met → ∀ l ∈ b.curParty.active,
      crossWrite b.whole l i = .one d (f (b.metAt .crossLane) l ((b.metAt .crossLane).curParty.lane l))) : CrossCompletes i := by
  refine .of_eachLane hs hr hexec (fun c l x => x.same_setReg ..) fun b met l hl => ?_
  rw [hw b met l hl]
  exact Lane.holds_one ..

/-- A cross-lane word of one flag. -/
theorem CrossCompletes.of_laneFlag {n : Nat} {f : State → Nat → Lane → Bool}
    (hexec : ∀ s, exec i s = gate i s fun s => s.crossLane fun c => c.laneFlag n (f c))
    (hw : ∀ b : State, b.Met → ∀ l ∈ b.curParty.active,
      crossWrite b.whole l i = .toFlag n (f (b.metAt .crossLane) l ((b.metAt .crossLane).curParty.lane l))) : CrossCompletes i := by
  refine .of_eachLane hs hr hexec (fun c l x => x.same_setFlag ..) fun b met l hl => ?_
  rw [hw b met l hl]
  exact Lane.holds_flag ..

end

/-! ### What the participants hold -/

/-- What each participant holds, once the strand has met, is what it held before. -/
theorem State.Met.each_metAt {b : State} (met : b.Met) {α : Type} (w : Wait) (g : Nat → Lane → α) {h : Nat → α}
    (eq : ∀ l, g l ((b.metAt w).curParty.lane l) = h l) : (b.metAt w).each g = b.curParty.active.map fun l => (l, h l) := by
  unfold State.each
  rw [met.metAt_cur]
  exact List.map_congr_left fun l _ => by rw [eq]

theorem State.Met.flagList_metAt {b : State} (met : b.Met) (w : Wait) (n : Nat) :
    (b.metAt w).flagList n = b.curParty.active.map fun l => (b.curParty.lane l).rdFlag b.free l n := by
  unfold State.flagList
  rw [met.metAt_cur]
  exact List.map_congr_left fun l _ => State.rdFlag_metAt ..

theorem entryOf_map {α : Type} (ls : List Nat) (g : Nat → α) (l : Nat) :
    entryOf (ls.map fun k => (k, g k)) l = if l ∈ ls then some (g l) else none := by
  induction ls with
  | nil => rfl
  | cons k ks ih =>
    unfold entryOf at ih ⊢
    rw [List.map_cons, List.find?_cons]
    by_cases h : k = l
    · subst h
      simp
    · have other : ¬ l = k := fun e => h e.symm
      simp only [beq_eq_false_iff_ne.mpr h, List.mem_cons, other, false_or]
      exact ih

/-- Where the strand has met, a lane reads its registers as it did before. -/
theorem State.look_metAt (b : State) (w : Wait) (l : Nat) (n : BitVec 7) :
    (b.metAt w).look l ((b.metAt w).curParty.lane l) n = (b.curParty.lane l).rd b.free l n.toNat := State.rd_metAt ..

theorem State.look64_metAt (b : State) (w : Wait) (l : Nat) (n : BitVec 7) :
    (b.metAt w).look64 l ((b.metAt w).curParty.lane l) n = (b.curParty.lane l).rd64 b.free l n.toNat := State.rd64_metAt ..

theorem State.intSource_metAt (b : State) (w : Wait) (l code : Nat) (n : BitVec 7) :
    (b.metAt w).intSource l ((b.metAt w).curParty.lane l) n code = b.intSource l (b.curParty.lane l) n code := by
  simp only [State.intSource, State.look_metAt, State.look64_metAt]
  rfl

theorem mode_cases (m : BitVec 2) : m = 0 ∨ m = 1 ∨ m = 2 ∨ m = 3 := by
  revert m
  decide

/-! ### Masks and floating results -/

/-- The registers of a mask of lanes hold it (R79). -/
theorem Lane.holds_mask (x : Lane) (W m : Nat) (d : BitVec 7) : x.Holds (x.setGroup d.toNat (maskRegs W) m) (.mask W d m) := by
  unfold maskRegs Write.mask
  split
  · have pair : x.setGroup d.toNat 2 m = x.setReg64 d.toNat (w64 m) := by
      have low : BitVec.ofNat 32 m = (w64 m).setWidth 32 := by
        apply BitVec.eq_of_toNat_eq
        simp [w64]
      have high : BitVec.ofNat 32 (m / 2 ^ 32) = (w64 m).extractLsb' 32 32 := by
        apply BitVec.eq_of_toNat_eq
        simp [w64, Nat.shiftRight_eq_div_pow]
        omega
      show (x.setReg _ _).setReg _ _ = (x.setReg _ _).setReg _ _
      rw [low, high]
    rw [pair]
    exact Lane.holds_pair ..
  · exact Lane.holds_one ..

theorem Lane.same_putFloat (x : Lane) (t : BitVec 2) (d : BitVec 7) (r : FRes) : x.Same (x.putFloat t d r) := by
  unfold Lane.putFloat
  split
  · exact (x.same_setReg64 ..).trans (Lane.same_raise ..)
  · exact (x.same_setReg ..).trans (Lane.same_raise ..)

/-- A floating result and its flags (R62). -/
theorem Lane.holds_putFloat (x : Lane) (t : BitVec 2) (d : BitVec 7) (r : FRes) : x.Holds (x.putFloat t d r) (.float (t == 1) d r) := by
  unfold Lane.putFloat Write.float
  by_cases h : t = 1
  · subst h
    exact (Lane.holds_pair ..).raise rfl _
  · rw [if_neg h, if_neg (by simpa using h)]
    exact (Lane.holds_one ..).raise rfl _

/-! ### The words -/

theorem voteAny_completes (d k st : BitVec 2) : CrossCompletes (.voteAny d k st) :=
  .of_laneFlag rfl rfl (fun _ => rfl) fun b met l _ => by
    rw [met.flagList_metAt, List.any_map]
    rfl

theorem voteAll_completes (d k st : BitVec 2) : CrossCompletes (.voteAll d k st) :=
  .of_laneFlag rfl rfl (fun _ => rfl) fun b met l _ => by
    rw [met.flagList_metAt, List.all_map]
    rfl

theorem elect_completes (d st : BitVec 2) : CrossCompletes (.elect d st) :=
  .of_laneFlag rfl rfl (fun _ => rfl) fun b met l _ => by
    unfold State.firstLane
    rw [met.metAt_cur]
    rfl

theorem shflSource_toNat (m : BitVec 2) (l j : Nat) :
    shflSource m.toNat l j = if m = 0 then (j : Int) else if m = 1 then (l : Int) - j else if m = 2 then (l : Int) + j else (l ^^^ j : Nat) := by
  rcases mode_cases m with rfl | rfl | rfl | rfl <;> rfl

/-- The value of a source lane that takes part, or else a lane's own (R78). -/
theorem fromSource_eq {α : Type} (ls : List Nat) (g : Nat → α) (own : α) (j : Int) (W : Nat) :
    (if 0 ≤ j ∧ j < W ∧ ls.contains j.toNat = true then g j.toNat else own)
      = if 0 ≤ j ∧ j < W then (if j.toNat ∈ ls then some (g j.toNat) else none).getD own else own := by
  by_cases inside : 0 ≤ j ∧ j < W
  · by_cases mem : j.toNat ∈ ls
    · rw [if_pos inside, if_pos mem, if_pos ⟨inside.1, inside.2, List.contains_iff_mem.mpr mem⟩]
      rfl
    · rw [if_pos inside, if_neg mem, if_neg fun h => mem (List.contains_iff_mem.mp h.2.2)]
      rfl
  · rw [if_neg inside, if_neg fun h => inside ⟨h.1, h.2.1⟩]

theorem shfl_completes (d a e : BitVec 7) (m st : BitVec 2) : CrossCompletes (.shfl d a e m st) := by
  refine .of_lane32 rfl rfl (fun _ => rfl) fun b met l _ => congrArg (Write.one d) ?_
  dsimp only
  rw [met.each_metAt .crossLane _ (h := fun k => (b.curParty.lane k).rd b.free k a.toNat) fun k => State.rd_metAt .., entryOf_map,
    shflSource_toNat, State.look_metAt, State.look_metAt, State.width_metAt]
  exact fromSource_eq b.curParty.active (fun k => (b.curParty.lane k).rd b.free k a.toNat) _ _ _

theorem voteBallot_completes (d : BitVec 7) (k st : BitVec 2) : CrossCompletes (.voteBallot d k st) := by
  refine .of_eachLane rfl rfl (fun _ => rfl) (fun c l x => x.same_setGroup ..) fun b met l hl => ?_
  simp only [State.putMask]
  rw [met.each_metAt .crossLane _ (h := fun j => (b.curParty.lane j).rdFlag b.free j k.toNat) fun j => State.rdFlag_metAt .., List.map_map,
    State.width_metAt]
  exact Lane.holds_mask ..

theorem setWidth_inj (x y : W32) : x.setWidth 64 = y.setWidth 64 ↔ x = y := by
  refine ⟨fun e => BitVec.eq_of_toNat_eq ?_, fun e => congrArg _ e⟩
  have e := congrArg BitVec.toNat e
  rwa [BitVec.toNat_setWidth_of_le (by lia -abstractProof), BitVec.toNat_setWidth_of_le (by lia -abstractProof)] at e

/-- A lane's match mask: the participants whose key is its own (R81). -/
theorem matchLanes_of_key {i : Instr} (hs : systemRelease i = false) (hr : returns i = false) (d : BitVec 7) (key : State → Nat → Lane → W64)
    (hexec : ∀ s, exec i s = gate i s fun s => s.crossLane fun c => c.eachLane fun l x =>
      c.putMask d x (((c.each (key c)).map fun e => if e.2 = key c l x then 2 ^ e.1 else 0).sum))
    (met_key : ∀ (b : State) l, key (b.metAt .crossLane) l ((b.metAt .crossLane).curParty.lane l) = key b l (b.curParty.lane l))
    (hw : ∀ (b : State) l, crossWrite b.whole l i = Write.mask b.curTeam.hdr.width d
      ((b.curParty.active.map fun j => if key b j (b.curParty.lane j) = key b l (b.curParty.lane l) then 2 ^ j else 0).sum)) :
    CrossCompletes i := by
  refine .of_eachLane hs hr hexec (fun c l x => x.same_setGroup ..) fun b met l hl => ?_
  have keys := met.each_metAt .crossLane (key (b.metAt .crossLane)) (h := fun j => key b j (b.curParty.lane j)) (met_key b)
  simp only [State.putMask]
  rw [keys, met_key, hw, List.map_map, State.width_metAt]
  exact Lane.holds_mask ..

theorem matchLanes_completes (d a : BitVec 7) (m : BitVec 1) (st : BitVec 2) : CrossCompletes (.matchLanes d a m st) := by
  obtain rfl | rfl : m = 1 ∨ m = 0 := by
    revert m
    decide
  · exact matchLanes_of_key rfl rfl d (fun c l x => c.look64 l x a) (fun _ => rfl) (fun b l => State.look64_metAt ..) fun _ _ => rfl
  · refine matchLanes_of_key rfl rfl d (fun c l x => (c.look l x a).setWidth 64) (fun _ => rfl) (fun b l => by rw [State.look_metAt]; rfl)
      fun b l => ?_
    refine congrArg (fun ms => Write.mask _ d (List.sum ms)) (List.map_congr_left fun j _ => ?_)
    exact if_congr (setWidth_inj _ _).symm rfl rfl

theorem foldl_scan (m : BitVec 2) (xs : List W32) :
    (if m.toNat < 2 then xs.foldl (· + ·) 0
      else if m.toNat = 2 then xs.foldl (fun a x => if a.toInt < x.toInt then x else a) 0x80000000#32
      else xs.foldl (fun a x => if x.toInt < a.toInt then x else a) 0x7FFFFFFF#32)
    = if m = 0 ∨ m = 1 then xs.foldl (· + ·) 0
      else if m = 2 then xs.foldl (fun x y => if x.slt y then y else x) 0x80000000#32
      else xs.foldl (fun x y => if y.slt x then y else x) 0x7FFFFFFF#32 := by
  simp only [BitVec.slt_iff_toInt_lt]
  rcases mode_cases m with rfl | rfl | rfl | rfl <;> rfl

theorem scan_completes (d a : BitVec 7) (m st : BitVec 2) : CrossCompletes (.scan d a m st) := by
  refine .of_lane32 rfl rfl (fun _ => rfl) fun b met l _ => congrArg (Write.one d) ?_
  dsimp only
  rw [met.each_metAt .crossLane _ (h := fun k => (b.curParty.lane k).rd b.free k a.toNat) fun k => State.rd_metAt ..]
  unfold scanResult
  dsimp only
  rw [foldl_scan, List.filter_map, List.map_map]
  have one : m.toNat = 1 ↔ m = 1 := ⟨fun e => BitVec.eq_of_toNat_eq e, fun e => e ▸ rfl⟩
  simp only [one]
  rfl

/-- A tree over what the participants hold, with an identity for the other lanes (R83). -/
theorem reds_of_leaf {i : Instr} (hs : systemRelease i = false) (hr : returns i = false) (d : BitVec 7) (t : BitVec 2)
    (op : State → Nat → Nat → FRes) (identity : Nat) (leaf : State → Nat → Lane → Nat)
    (hexec : ∀ s, exec i s = gate i s fun s => s.crossLane fun c => c.eachLane fun _ x => x.putFloat t d
      (foldTree (op c) (Nat.log2 c.curTeam.hdr.width)
        ((List.range c.curTeam.hdr.width).map fun j => ((entryOf (c.each (leaf c)) j).getD identity, 0))))
    (met_op : ∀ b : State, op (b.metAt .crossLane) = op b)
    (met_leaf : ∀ (b : State) l, leaf (b.metAt .crossLane) l ((b.metAt .crossLane).curParty.lane l) = leaf b l (b.curParty.lane l))
    (hw : ∀ (b : State) l, crossWrite b.whole l i = Write.float (t == 1) d (foldTree (op b) (Nat.log2 b.curTeam.hdr.width)
      ((List.range b.curTeam.hdr.width).map fun j =>
        (if b.curParty.active.contains j then leaf b j (b.curParty.lane j) else identity, 0)))) : CrossCompletes i := by
  refine .of_eachLane hs hr hexec (fun c l x => x.same_putFloat ..) fun b met l hl => ?_
  have leaves := met.each_metAt .crossLane (leaf (b.metAt .crossLane)) (h := fun j => leaf b j (b.curParty.lane j)) (met_leaf b)
  have entry : ∀ j, (entryOf ((b.metAt .crossLane).each (leaf (b.metAt .crossLane))) j).getD identity
      = if b.curParty.active.contains j then leaf b j (b.curParty.lane j) else identity := by
    intro j
    rw [leaves, entryOf_map]
    by_cases mem : j ∈ b.curParty.active
    · rw [if_pos mem, if_pos (List.contains_iff_mem.mpr mem)]
      rfl
    · rw [if_neg mem, if_neg fun h => mem (List.contains_iff_mem.mp h)]
      rfl
  simp only [entry, met_op, State.width_metAt]
  rw [hw]
  exact Lane.holds_putFloat ..

theorem reds_completes (d a : BitVec 7) (m st : BitVec 2) : CrossCompletes (.reds d a m st) := by
  have mode (b : State) : (b.metAt .crossLane).mode = b.mode := congrArg BitVec.toNat (b.round_metAt .crossLane)
  have add (f : Fmt) (b : State) : (fun x y => f.addVals (b.metAt .crossLane).mode (f.read x) (f.read y))
      = fun x y => f.addVals b.mode (f.read x) (f.read y) := by rw [mode]
  have single (b : State) (l : Nat) : ((b.metAt .crossLane).look l ((b.metAt .crossLane).curParty.lane l) a).toNat
      = (b.look l (b.curParty.lane l) a).toNat := congrArg BitVec.toNat (State.look_metAt ..)
  have double (b : State) (l : Nat) : ((b.metAt .crossLane).look64 l ((b.metAt .crossLane).curParty.lane l) a).toNat
      = (b.look64 l (b.curParty.lane l) a).toNat := congrArg BitVec.toNat (State.look64_metAt ..)
  rcases mode_cases m with rfl | rfl | rfl | rfl
  · exact reds_of_leaf rfl rfl d 0 (fun s x y => F32.addVals s.mode (F32.read x) (F32.read y)) (F32.sign true 0)
      (fun s l x => (s.look l x a).toNat) (fun _ => rfl) (add F32) single fun _ _ => rfl
  · exact reds_of_leaf rfl rfl d 1 (fun s x y => F64.addVals s.mode (F64.read x) (F64.read y)) (F64.sign true 0)
      (fun s l x => (s.look64 l x a).toNat) (fun _ => rfl) (add F64) double fun _ _ => rfl
  · exact reds_of_leaf rfl rfl d 0 (fun _ => F32.minMax true) F32.nanBits (fun s l x => (s.look l x a).toNat) (fun _ => rfl)
      (fun _ => rfl) single fun _ _ => rfl
  · exact reds_of_leaf rfl rfl d 0 (fun _ => F32.minMax false) F32.nanBits (fun s l x => (s.look l x a).toNat) (fun _ => rfl)
      (fun _ => rfl) single fun _ _ => rfl

theorem signed_eight (x : W32) : signed 8 x.toNat = (x.extractLsb' 0 8).toInt := by
  unfold signed
  rw [BitVec.toInt_eq_toNat_cond, BitVec.extractLsb'_toNat, Nat.shiftRight_zero]
  split_ifs <;> lia -abstractProof

theorem redsAf_completes (d a e : BitVec 7) (m st : BitVec 2) : CrossCompletes (.redsAf d a e m st) := by
  refine .of_eachLane rfl rfl (fun _ => rfl) (fun c l x => (x.same_setReg64 ..).trans (Lane.same_raise ..)) fun b met l hl => ?_
  have first : (b.metAt .crossLane).firstLane = b.curParty.active.head?.getD 0 := by
    unfold State.firstLane
    rw [met.metAt_cur]
    rfl
  have input := met.each_metAt .crossLane
    (fun l x => afInput m.toNat
      (((b.curParty.lane (b.curParty.active.head?.getD 0)).rd b.free (b.curParty.active.head?.getD 0) e.toNat).extractLsb' 0 8).toInt
      (if m = 0 then ((b.metAt .crossLane).look l x a).toNat else ((b.metAt .crossLane).look64 l x a).toNat))
    fun l => by rw [State.look_metAt, State.look64_metAt]
  dsimp only
  rw [first, State.look_metAt, signed_eight, input, List.map_map, List.map_map, List.any_map, List.any_map, List.any_map]
  exact (Lane.holds_pair ..).raise rfl _

theorem redsInt_completes (d a : BitVec 7) (o t st : BitVec 2) : CrossCompletes (.redsInt d a o t st) := by
  refine .of_eachLane rfl rfl (fun _ => rfl) (fun c l x => ?_) fun b met l hl => ?_
  · split
    · exact x.same_setReg ..
    · exact x.same_setReg64 ..
  have values := met.each_metAt .crossLane (fun l x => (b.metAt .crossLane).intSource l x a t.toNat) fun l => State.intSource_metAt ..
  dsimp only
  rw [values, List.map_map]
  have source : ∀ j, b.intSource j (b.curParty.lane j) a t.toNat
      = if t = 0 then (b.look j (b.curParty.lane j) a).toInt else if t = 1 then (b.look j (b.curParty.lane j) a).toNat
        else if t = 2 then (b.look64 j (b.curParty.lane j) a).toInt else (b.look64 j (b.curParty.lane j) a).toNat := by
    intro j
    rcases mode_cases t with rfl | rfl | rfl | rfl <;> rfl
  simp only [Function.comp_def, source]
  unfold crossWrite
  dsimp only
  split
  · exact Lane.holds_one ..
  · exact Lane.holds_pair ..

/-- Settles O17: each cross-lane word that a strand has met at writes its result in every lane. -/
theorem crossLaneResults : Obligations.CrossLaneResults := by
  intro s i cross
  suffices CrossCompletes i from this s
  cases i with
  | shfl d a e m st => exact shfl_completes d a e m st
  | voteAny d k st => exact voteAny_completes d k st
  | voteAll d k st => exact voteAll_completes d k st
  | voteBallot d k st => exact voteBallot_completes d k st
  | scan d a m st => exact scan_completes d a m st
  | matchLanes d a m st => exact matchLanes_completes d a m st
  | elect d st => exact elect_completes d st
  | reds d a m st => exact reds_completes d a m st
  | redsAf d a e m st => exact redsAf_completes d a e m st
  | redsInt d a o t st => exact redsInt_completes d a o t st
  | _ => exact absurd cross Bool.false_ne_true

/-! ### Election (R82) -/

/-- A word of major 0x24 is an `elect` where its unused fields are zero. -/
theorem decode_elect (w : W32) (major : w.extractLsb' 25 7 = 0x24#7) :
    decode w = if w.extractLsb' 20 5 = 0 ∧ w.extractLsb' 2 16 = 0 then .ok (.elect (w.extractLsb' 18 2) (w.extractLsb' 0 2))
      else .error .reserved := by
  have field : ∀ lo n, w.extractLsb' lo n = fd w lo n := by
    intro lo n
    apply BitVec.eq_of_toNat_eq
    rw [fd_toNat, BitVec.extractLsb'_toNat, Nat.shiftRight_eq_div_pow]
  have row : decodeRow w = if fx w 24 20 0 && fx w 17 2 0 then .ok (.elect (fd w 18 2) (fd w 0 2)) else .error .reserved := by
    rw [decodeRow_eq, ← field, major]
    rfl
  have zero : ∀ lo n, (fd w lo n).toNat = 0 ↔ fd w lo n = 0 := fun lo n => ⟨fun e => BitVec.eq_of_toNat_eq e, fun e => by rw [e]; rfl⟩
  have unused : (fx w 24 20 0 && fx w 17 2 0) = true ↔ fd w 20 5 = 0 ∧ fd w 2 16 = 0 := by
    simp only [fx_eq, Bool.and_eq_true, beq_iff_eq, zero]
  have some_ : ¬ (w == 0 || w == 0xFFFFFFFF) = true := by
    simp only [Bool.or_eq_true, beq_iff_eq]
    rintro (rfl | rfl) <;> exact absurd major (by decide)
  unfold decode
  rw [if_neg some_, row, if_congr unused rfl rfl, field, field, field, field]
  by_cases h : fd w 20 5 = 0 ∧ fd w 2 16 = 0
  · rw [if_pos h]
    rfl
  · rw [if_neg h]

/-- Settles O19: the lowest lane is the head of the strand's active lanes, whose flag alone `crossWrite` sets. -/
theorem electPicksTheLowest : Obligations.ElectPicksTheLowest := by
  refine ⟨decode_elect, fun s d st low ready met mem least => ?_⟩
  obtain ⟨t, ht, wrote⟩ := elect_completes d st s ready met
  refine ⟨t, ht, fun l hl => ?_⟩
  have flag := (wrote.holds l hl).flags d.toNat d.isLt
  have head : (s.before (.elect d st)).whole.cur.lanes.head?.getD 0 = low := Party.active_head met.table mem least
  have write : crossWrite (s.before (.elect d st)).whole l (.elect d st) = .toFlag d.toNat (l == low) :=
    congrArg (fun h => Write.toFlag d.toNat (l == h)) head
  rw [flag, write]
  exact if_pos rfl

end Sys2Proof.Machine
end

section
/-! PROOFS. The values of a format's codes, and rounding a number to a multiple and to a code (R60 to R62, R227, R228). -/

namespace Sys2Proof.Machine

open Sys2Proof

/-! ### Formats and the values of their codes -/

/-- What the formats have in common: a fraction bit at least, the largest finite code below infinity, the NaNs and the sign bit, and
neither subnormal nor a power of two. -/
structure Fmt.Sound (f : Fmt) : Prop where
  frac : 1 ≤ f.F ∧ f.F ≤ 52
  below : f.maxCode < f.nanFrom ∧ f.maxCode < 2 ^ (f.w - 1) ∧ ∀ k ∈ f.inf, f.maxCode < k
  normal : 2 ^ f.F ≤ f.maxCode ∧ 1 ≤ f.maxCode % 2 ^ f.F

/-- The formats of lane words and of matrix elements. -/
def formats : List Fmt := [F32, F64, F16, BF16, TF19, E5M2, E4M3, E3M4, E3M2, E2M3, E2M1]

theorem Fmt.sound {f : Fmt} (h : f ∈ formats) : f.Sound := by
  have check : ∀ f ∈ formats, (1 ≤ f.F ∧ f.F ≤ 52)
      ∧ (f.maxCode < f.nanFrom ∧ f.maxCode < 2 ^ (f.w - 1) ∧ f.maxCode < f.inf.getD (f.maxCode + 1))
      ∧ 2 ^ f.F ≤ f.maxCode ∧ 1 ≤ f.maxCode % 2 ^ f.F := by decide +kernel
  obtain ⟨frac, ⟨nan, sign, inf⟩, normal⟩ := check f h
  refine ⟨frac, ⟨nan, sign, fun k hk => ?_⟩, normal⟩
  rw [Option.mem_def.mp hk] at inf
  exact inf

/-- Significand of a magnitude code. -/
def Fmt.sig (f : Fmt) (c : Nat) : Nat := if c / 2 ^ f.F = 0 then c else 2 ^ f.F + c % 2 ^ f.F
/-- Binades above the lowest of a magnitude code. -/
def Fmt.binade (f : Fmt) (c : Nat) : Nat := c / 2 ^ f.F - 1
/-- The value of a magnitude code as a count of the smallest subnormal. -/
def Fmt.val (f : Fmt) (c : Nat) : Nat := f.sig c * 2 ^ f.binade c

/-- A code is its binade and its significand. -/
theorem Fmt.code_eq (f : Fmt) (c : Nat) : c = f.binade c * 2 ^ f.F + f.sig c := by
  unfold Fmt.binade Fmt.sig
  have split_ := Nat.div_add_mod c (2 ^ f.F)
  by_cases low : c / 2 ^ f.F = 0
  · rw [if_pos low, low]
    simp
  · rw [if_neg low]
    obtain ⟨j, hj⟩ := Nat.exists_eq_succ_of_ne_zero low
    rw [hj] at split_ ⊢
    rw [Nat.succ_sub_one]
    linarith

theorem Fmt.sig_lt (f : Fmt) (c : Nat) : f.sig c < 2 ^ (f.F + 1) := by
  unfold Fmt.sig
  rw [Nat.pow_succ]
  have mod := Nat.mod_lt c (Nat.two_pow_pos f.F)
  split_ifs with low
  · have := (Nat.div_eq_zero_iff_lt (Nat.two_pow_pos f.F)).mp low
    lia -abstractProof
  · lia -abstractProof

theorem Fmt.le_sig (f : Fmt) (c : Nat) (h : f.binade c ≠ 0) : 2 ^ f.F ≤ f.sig c := by
  unfold Fmt.binade at h
  unfold Fmt.sig
  rw [if_neg (by lia -abstractProof)]
  lia -abstractProof

/-- The value of a code put together from a significand, which may be the next power of two, and a binade. -/
theorem Fmt.val_mul_add (f : Fmt) {j k : Nat} (high : k ≤ 2 ^ (f.F + 1)) (low : j ≠ 0 → 2 ^ f.F ≤ k) : f.val (j * 2 ^ f.F + k) = k * 2 ^ j := by
  have pos := Nat.two_pow_pos f.F
  rw [Nat.pow_succ] at high
  unfold Fmt.val Fmt.sig Fmt.binade
  by_cases subnormal : k < 2 ^ f.F
  · have zero : j = 0 := by
      by_contra h
      exact absurd (low h) (by lia -abstractProof)
    subst zero
    rw [Nat.zero_mul, Nat.zero_add, Nat.div_eq_of_lt subnormal]
    simp
  by_cases next : k = 2 ^ f.F * 2
  · have code : j * 2 ^ f.F + k = 2 ^ f.F * (j + 2) := by rw [next]; ring
    rw [code, Nat.mul_div_cancel_left _ pos, Nat.mul_mod_right, if_neg (by lia -abstractProof), next, show j + 2 - 1 = j + 1 by lia -abstractProof]
    ring
  · obtain ⟨r, rfl⟩ := Nat.exists_eq_add_of_le (Nat.le_of_not_lt subnormal)
    have code : j * 2 ^ f.F + (2 ^ f.F + r) = r + 2 ^ f.F * (j + 1) := by ring
    have small : r < 2 ^ f.F := by lia -abstractProof
    rw [code, Nat.add_mul_div_left _ _ pos, Nat.div_eq_of_lt small, Nat.add_mul_mod_self_left, Nat.mod_eq_of_lt small, if_neg (by lia -abstractProof)]
    congr 2
    lia -abstractProof

/-- The next code is one step of its binade above. -/
theorem Fmt.val_succ (f : Fmt) (c : Nat) : f.val (c + 1) = f.val c + 2 ^ f.binade c := by
  conv_lhs => rw [f.code_eq c, Nat.add_assoc]
  rw [f.val_mul_add (f.sig_lt c) fun h => Nat.le_succ_of_le (f.le_sig c h)]
  exact Nat.succ_mul ..

/-- Values of codes rise. -/
theorem Fmt.val_strictMono (f : Fmt) : StrictMono f.val :=
  strictMono_nat_of_lt_succ fun c => by
    rw [f.val_succ]
    exact Nat.lt_add_of_pos_right (Nat.two_pow_pos _)

theorem Fmt.val_zero (f : Fmt) : f.val 0 = 0 := by
  unfold Fmt.val Fmt.sig
  simp

theorem Fmt.val_one (f : Fmt) : f.val 1 = 1 := by
  have one := f.val_succ 0
  have low : f.binade 0 = 0 := by simp [Fmt.binade]
  rw [f.val_zero, low] at one
  exact one

theorem Fmt.val_normal (f : Fmt) : f.val (2 ^ f.F) = 2 ^ f.F := by
  have h := f.val_mul_add (j := 0) (k := 2 ^ f.F) (Nat.pow_le_pow_right (by lia -abstractProof) (by lia -abstractProof)) fun h => absurd rfl h
  simpa using h

/-! ### Reading codes -/

/-- A finite magnitude code reads as its significand in its binade, whatever its sign (R227). -/
theorem Fmt.read_sign {f : Fmt} (h : f.Sound) (neg : Bool) {c : Nat} (hc : c ≤ f.maxCode) :
    f.read (f.sign neg c) = .num neg (f.sig c) (f.qmin + (f.binade c : Nat)) := by
  obtain ⟨nan, sign, inf⟩ := h.below
  have small : c < 2 ^ (f.w - 1) := by lia -abstractProof
  have mag : f.sign neg c % 2 ^ (f.w - 1) = c := by
    unfold Fmt.sign
    cases neg
    · exact Nat.mod_eq_of_lt small
    · rw [if_pos rfl, Nat.add_mod_right, Nat.mod_eq_of_lt small]
  have top : (f.sign neg c / 2 ^ (f.w - 1) % 2 == 1) = neg := by
    unfold Fmt.sign
    cases neg
    · rw [if_neg Bool.false_ne_true, Nat.add_zero, Nat.div_eq_of_lt small]
      rfl
    · rw [if_pos rfl, Nat.add_div_right _ (Nat.two_pow_pos _), Nat.div_eq_of_lt small]
      rfl
  have finite : f.inf ≠ some c := fun e => absurd (inf c e) (by lia -abstractProof)
  unfold Fmt.read
  simp only [mag, top]
  rw [if_neg (by lia -abstractProof), if_neg finite]
  unfold Fmt.sig Fmt.binade
  split_ifs with low
  · rw [low]
    simp
  · rfl

/-- A finite magnitude code as a count of 2^u. -/
theorem Fmt.count_eq {f : Fmt} (h : f.Sound) {u : Int} (hu : u ≤ f.qmin) {c : Nat} (hc : c ≤ f.maxCode) :
    f.count u c = f.val c * 2 ^ (f.qmin - u).toNat := by
  have read := Fmt.read_sign h false hc
  have plain : f.sign false c = c := rfl
  rw [plain] at read
  unfold Fmt.count
  rw [read]
  dsimp only
  have shift : (f.qmin + (f.binade c : Nat) - u).toNat = f.binade c + (f.qmin - u).toNat := by lia -abstractProof
  rw [shift, Nat.pow_add, ← Nat.mul_assoc]
  rfl

/-! ### Rounding to a multiple -/

/-- c × m is p rounded to a multiple of m under a rounding code and a sign (R61). -/
def Rounded (mode : Nat) (neg : Bool) (p m c : Nat) : Prop :=
  if mode = 0 then 2 * ((c : Int) * m - p).natAbs ≤ m ∧ (2 * ((c : Int) * m - p).natAbs = m → c % 2 = 0)
  else if mode = 4 then 2 * ((c : Int) * m - p).natAbs ≤ m ∧ (2 * ((c : Int) * m - p).natAbs = m → p < c * m)
  else if mode = 2 ∧ neg = false ∨ mode = 3 ∧ neg = true then p ≤ c * m ∧ c * m < p + m
  else c * m ≤ p ∧ p < (c + 1) * m

/-- Whether a remainder r of a division by m, with quotient k, rounds up. -/
def roundsUp (mode : Nat) (neg : Bool) (k r m : Nat) : Bool :=
  if mode = 0 then decide (2 * r > m) || (2 * r == m && k % 2 == 1)
  else if mode = 2 then !neg && r != 0
  else if mode = 3 then neg && r != 0
  else if mode = 4 then decide (2 * r ≥ m)
  else false

/-- The rounding code goes away from zero for the sign. -/
def awayFromZero (mode : Nat) (neg : Bool) : Prop := mode = 2 ∧ neg = false ∨ mode = 3 ∧ neg = true
/-- It goes toward zero. -/
def towardZero (mode : Nat) (neg : Bool) : Prop := mode ≠ 0 ∧ mode ≠ 4 ∧ ¬ awayFromZero mode neg

theorem rounding_cases (mode : Nat) (neg : Bool) : mode = 0 ∨ mode = 4 ∨ awayFromZero mode neg ∨ towardZero mode neg := by
  unfold towardZero
  tauto

theorem roundsUp_even {neg : Bool} {k r m : Nat} : roundsUp 0 neg k r m = true ↔ m < 2 * r ∨ 2 * r = m ∧ k % 2 = 1 := by
  simp [roundsUp]

theorem roundsUp_tiesAway {neg : Bool} {k r m : Nat} : roundsUp 4 neg k r m = true ↔ m ≤ 2 * r := by
  simp [roundsUp]

theorem roundsUp_away {mode : Nat} {neg : Bool} (h : awayFromZero mode neg) {k r m : Nat} : roundsUp mode neg k r m = true ↔ r ≠ 0 := by
  rcases h with ⟨rfl, rfl⟩ | ⟨rfl, rfl⟩ <;> simp [roundsUp]

theorem roundsUp_toward {mode : Nat} {neg : Bool} (h : towardZero mode neg) {k r m : Nat} : roundsUp mode neg k r m = false := by
  obtain ⟨even, ties, away⟩ := h
  unfold awayFromZero at away
  unfold roundsUp
  rw [if_neg even, if_neg ties]
  cases neg <;> simp_all

/-- p rounded to a multiple of m, as a count, and whether it is inexact. -/
def roundTo (mode : Nat) (neg : Bool) (p m : Nat) : Nat × Bool :=
  (if roundsUp mode neg (p / m) (p % m) m then p / m + 1 else p / m, p % m != 0)

theorem Mag.cut_exact (p : Nat) {u q : Int} (h : u ≤ q) (mode : Nat) (neg : Bool) :
    Mag.cut { n := p, e := u } mode neg q = roundTo mode neg p (2 ^ (q - u).toNat) := by
  unfold Mag.cut roundTo roundsUp
  by_cases same : q - u ≤ 0
  · have zero : q - u = 0 := by lia -abstractProof
    simp [zero, Nat.mod_one]
  · simp only [if_neg same, Bool.or_false, Bool.false_or]

/-- Two numbers lie within half of m of each other, and exactly so. -/
theorem two_mul_natAbs_le_iff (c m p : Nat) : 2 * ((c : Int) * m - p).natAbs ≤ m ↔ 2 * (c * m) ≤ 2 * p + m ∧ 2 * p ≤ 2 * (c * m) + m := by
  rw [← Nat.cast_mul]
  generalize c * m = x
  lia -abstractProof

theorem two_mul_natAbs_eq_iff (c m p : Nat) : 2 * ((c : Int) * m - p).natAbs = m ↔ 2 * (c * m) = 2 * p + m ∨ 2 * p = 2 * (c * m) + m := by
  rw [← Nat.cast_mul]
  generalize c * m = x
  lia -abstractProof

theorem rounded_even {neg : Bool} {p m c : Nat} : Rounded 0 neg p m c ↔ (2 * (c * m) ≤ 2 * p + m ∧ 2 * p ≤ 2 * (c * m) + m)
    ∧ (2 * (c * m) = 2 * p + m ∨ 2 * p = 2 * (c * m) + m → c % 2 = 0) := by
  rw [← two_mul_natAbs_le_iff, ← two_mul_natAbs_eq_iff]
  rfl

theorem rounded_tiesAway {neg : Bool} {p m c : Nat} : Rounded 4 neg p m c ↔ (2 * (c * m) ≤ 2 * p + m ∧ 2 * p ≤ 2 * (c * m) + m)
    ∧ (2 * (c * m) = 2 * p + m ∨ 2 * p = 2 * (c * m) + m → p < c * m) := by
  rw [← two_mul_natAbs_le_iff, ← two_mul_natAbs_eq_iff]
  rfl

theorem rounded_away {mode : Nat} {neg : Bool} (h : awayFromZero mode neg) {p m c : Nat} : Rounded mode neg p m c ↔ p ≤ c * m ∧ c * m < p + m := by
  rcases h with ⟨rfl, rfl⟩ | ⟨rfl, rfl⟩ <;> simp [Rounded]

theorem rounded_toward {mode : Nat} {neg : Bool} (h : towardZero mode neg) {p m c : Nat} :
    Rounded mode neg p m c ↔ c * m ≤ p ∧ p < (c + 1) * m := by
  obtain ⟨even, ties, away⟩ := h
  unfold Rounded
  rw [if_neg even, if_neg ties]
  exact Iff.of_eq (if_neg away)

/-- The count to which a number is rounded lies as near to it as its rounding code asks, and is inexact where it is not the number. -/
theorem rounded_roundTo (mode : Nat) (neg : Bool) (p : Nat) {m : Nat} (pos : 0 < m) :
    Rounded mode neg p m (roundTo mode neg p m).1 ∧ ((roundTo mode neg p m).2 = true ↔ (roundTo mode neg p m).1 * m ≠ p) := by
  unfold roundTo
  have divided : p / m * m + p % m = p := Nat.div_add_mod' p m
  have small := Nat.mod_lt p pos
  have next : (p / m + 1) * m = p / m * m + m := Nat.succ_mul ..
  generalize p % m = r at *
  generalize p / m = k at *
  dsimp only
  rw [bne_iff_ne]
  rcases rounding_cases mode neg with rfl | rfl | away | toward
  · rw [rounded_even]
    by_cases up : roundsUp 0 neg k r m = true
    · rw [if_pos up, next]
      rw [roundsUp_even] at up
      lia -abstractProof
    · rw [if_neg up]
      rw [roundsUp_even] at up
      lia -abstractProof
  · rw [rounded_tiesAway]
    by_cases up : roundsUp 4 neg k r m = true
    · rw [if_pos up, next]
      rw [roundsUp_tiesAway] at up
      lia -abstractProof
    · rw [if_neg up]
      rw [roundsUp_tiesAway] at up
      lia -abstractProof
  · rw [rounded_away away]
    by_cases up : roundsUp mode neg k r m = true
    · rw [if_pos up, next]
      rw [roundsUp_away away] at up
      lia -abstractProof
    · rw [if_neg up]
      rw [roundsUp_away away] at up
      lia -abstractProof
  · rw [rounded_toward toward, roundsUp_toward toward, if_neg Bool.false_ne_true, next]
    lia -abstractProof

/-- Without a remainder nothing rounds up. -/
theorem roundsUp_zero (mode : Nat) (neg : Bool) (k : Nat) {m : Nat} (pos : 0 < m) : roundsUp mode neg k 0 m = false := by
  rw [Bool.eq_false_iff]
  rcases rounding_cases mode neg with rfl | rfl | away | toward
  · rw [ne_eq, roundsUp_even]
    lia -abstractProof
  · rw [ne_eq, roundsUp_tiesAway]
    lia -abstractProof
  · rw [ne_eq, roundsUp_away away]
    lia -abstractProof
  · rw [roundsUp_toward toward]
    exact Bool.false_ne_true

/-- A multiple stays as it is. -/
theorem roundTo_multiple (mode : Nat) (neg : Bool) (k : Nat) {m : Nat} (pos : 0 < m) : roundTo mode neg (k * m) m = (k, false) := by
  unfold roundTo
  rw [Nat.mul_div_cancel _ pos, Nat.mul_mod_left, roundsUp_zero mode neg k pos]
  rfl

/-! ### Magnitudes that are known to lie between two multiples -/

section
variable {x : Mag} {p : Nat} {u : Int} (h : x.Has p u)
include h

theorem Mag.Has.exact_of_eq (exact_ : x.more = false) : p = x.n * 2 ^ (x.e - u).toNat := by
  have h := h.2
  rwa [exact_, if_neg Bool.false_ne_true] at h

/-- The number lies from the magnitude's count on, and below the next. -/
theorem Mag.Has.bounds : x.n * 2 ^ (x.e - u).toNat ≤ p ∧ p < (x.n + 1) * 2 ^ (x.e - u).toNat := by
  have pos := Nat.two_pow_pos (x.e - u).toNat
  have h := h.2
  split at h
  · exact ⟨Nat.le_of_lt h.1, h.2⟩
  · rw [h, Nat.succ_mul]
    lia -abstractProof

theorem Mag.Has.pos (nonzero : x.n ≠ 0) : p ≠ 0 := by
  have low := h.bounds.1
  have := Nat.mul_pos (Nat.pos_of_ne_zero nonzero) (Nat.two_pow_pos (x.e - u).toNat)
  lia -abstractProof

/-- A magnitude and the number that it stands for have one leading bit. -/
theorem Mag.Has.log2 (nonzero : x.n ≠ 0) : (Nat.log2 p : Int) + u = Nat.log2 x.n + x.e := by
  obtain ⟨low, high⟩ := h.bounds
  have le := h.1
  have log : Nat.log2 p = Nat.log2 x.n + (x.e - u).toNat := by
    rw [Nat.log2_eq_iff (h.pos nonzero)]
    constructor
    · rw [Nat.pow_add]
      exact Nat.le_trans (Nat.mul_le_mul_right _ (Nat.log2_self_le nonzero)) low
    · rw [Nat.add_right_comm, Nat.pow_add]
      exact Nat.lt_of_lt_of_le high (Nat.mul_le_mul_right _ Nat.lt_log2_self)
  lia -abstractProof

/-- The number that a magnitude stands for, divided by a power of two that is coarser than the magnitude's own. -/
theorem Mag.Has.divided {q : Int} (coarse : x.e < q) :
    p / 2 ^ (q - u).toNat = x.n / 2 ^ (q - x.e).toNat
    ∧ ∃ t, t < 2 ^ (x.e - u).toNat ∧ (t = 0 ↔ x.more = false)
      ∧ p % 2 ^ (q - u).toNat = x.n % 2 ^ (q - x.e).toNat * 2 ^ (x.e - u).toNat + t := by
  obtain ⟨low, high⟩ := h.bounds
  have le := h.1
  have exact_ : p - x.n * 2 ^ (x.e - u).toNat = 0 ↔ x.more = false := by
    have h := h.2
    split at h
    · next more => simp [more]; lia -abstractProof
    · next more => simp [Bool.eq_false_iff.mpr more]; lia -abstractProof
  have unit : 2 ^ (q - u).toNat = 2 ^ (x.e - u).toNat * 2 ^ (q - x.e).toNat := by
    rw [← Nat.pow_add]
    congr 1
    lia -abstractProof
  have pos := Nat.two_pow_pos (x.e - u).toNat
  have split_ := Nat.div_add_mod x.n (2 ^ (q - x.e).toNat)
  rw [unit]
  generalize 2 ^ (x.e - u).toNat = s at *
  generalize 2 ^ (q - x.e).toNat = m at *
  obtain ⟨t, rfl⟩ := Nat.exists_eq_add_of_le low
  have small : t < s := by
    rw [Nat.succ_mul] at high
    lia -abstractProof
  have whole : (x.n * s + t) / s = x.n := by
    rw [Nat.mul_comm, Nat.mul_add_div pos, Nat.div_eq_of_lt small, Nat.add_zero]
  refine ⟨by rw [← Nat.div_div_eq_div_mul, whole], t, small, by rw [← exact_]; lia -abstractProof, ?_⟩
  rw [Nat.mod_mul, whole, Nat.mul_comm x.n s, Nat.mul_add_mod, Nat.mod_eq_of_lt small, Nat.mul_comm s, Nat.add_comm]

omit h in
/-- A remainder r × s + t, with t below s and zero unless there is more, rounds up where r with what is more does. -/
theorem roundsUp_scaled {s t : Nat} {more : Bool} (small : t < s) (exact_ : t = 0 ↔ more = false) (mode : Nat) (neg : Bool) (k r half : Nat) :
    roundsUp mode neg k (r * s + t) (2 * half * s)
      = (if mode = 0 then decide (2 * r > 2 * half) || (2 * r == 2 * half && (more || k % 2 == 1))
        else if mode = 2 then !neg && (r != 0 || more) else if mode = 3 then neg && (r != 0 || more)
        else if mode = 4 then decide (2 * r ≥ 2 * half) else false)
    ∧ (r * s + t != 0) = (r != 0 || more) := by
  have above : half < r → half * s + s ≤ r * s := fun lt => by
    rw [← Nat.succ_mul]
    exact Nat.mul_le_mul_right s lt
  have below : r < half → r * s + s ≤ half * s := fun lt => by
    rw [← Nat.succ_mul]
    exact Nat.mul_le_mul_right s lt
  have same : r = half → r * s = half * s := fun e => by rw [e]
  have zero : r * s = 0 ↔ r = 0 := by
    rw [Nat.mul_eq_zero]
    lia -abstractProof
  have inexact : (r * s + t != 0) = (r != 0 || more) := by
    cases more
    · obtain rfl := exact_.mpr rfl
      rw [Nat.add_zero, Bool.or_false, Bool.eq_iff_iff, bne_iff_ne, bne_iff_ne, ne_eq, zero]
    · have pos : t ≠ 0 := fun h => Bool.noConfusion (exact_.mp h)
      simp [pos]
  refine ⟨?_, inexact⟩
  unfold roundsUp
  rw [inexact, Nat.mul_assoc]
  generalize r * s = rs at *
  generalize half * s = hs at *
  congr 1
  · rcases Nat.lt_trichotomy r half with lt | rfl | gt
    · have := below lt
      rw [beq_eq_false_iff_ne.mpr (show 2 * r ≠ 2 * half by lia -abstractProof),
        beq_eq_false_iff_ne.mpr (show 2 * (rs + t) ≠ 2 * hs by lia -abstractProof),
        decide_eq_false (show ¬ 2 * r > 2 * half by lia -abstractProof), decide_eq_false (show ¬ 2 * (rs + t) > 2 * hs by lia -abstractProof)]
      rfl
    · obtain rfl := same rfl
      cases more
      · obtain rfl := exact_.mpr rfl
        simp
      · have pos : t ≠ 0 := fun h => Bool.noConfusion (exact_.mp h)
        simp [show 2 * rs < 2 * (rs + t) by lia -abstractProof]
    · have := above gt
      rw [decide_eq_true (show 2 * r > 2 * half by lia -abstractProof), decide_eq_true (show 2 * (rs + t) > 2 * hs by lia -abstractProof)]
      rfl
  · congr 3
    rw [decide_eq_decide]
    rcases Nat.lt_trichotomy r half with lt | rfl | gt
    · have := below lt
      lia -abstractProof
    · obtain rfl := same rfl
      lia -abstractProof
    · have := above gt
      lia -abstractProof

/-- A magnitude rounds as the number that it stands for. -/
theorem Mag.Has.cut_eq {q : Int} (fine_ : x.more = true → x.e < q) (mode : Nat) (neg : Bool) :
    x.cut mode neg q = Mag.cut { n := p, e := u } mode neg q := by
  have le := h.1
  by_cases coarse : x.e < q
  · rw [Mag.cut_exact p (by lia -abstractProof)]
    obtain ⟨quotient, t, small, exact_, remainder⟩ := h.divided coarse
    obtain ⟨half, even⟩ : ∃ half, 2 ^ (q - x.e).toNat = 2 * half := by
      obtain ⟨j, hj⟩ : ∃ j, (q - x.e).toNat = j + 1 := ⟨(q - x.e).toNat - 1, by lia -abstractProof⟩
      exact ⟨2 ^ j, by rw [hj, Nat.pow_succ, Nat.mul_comm]⟩
    have unit : 2 ^ (q - u).toNat = 2 * half * 2 ^ (x.e - u).toNat := by
      rw [← even, ← Nat.pow_add]
      congr 1
      lia -abstractProof
    obtain ⟨up, inexact⟩ := roundsUp_scaled small exact_ mode neg (x.n / (2 * half)) (x.n % (2 * half)) half
    unfold Mag.cut roundTo
    simp only
    rw [if_neg (by lia -abstractProof), quotient, remainder, unit, even, up, inexact]
  · have exact_ : x.more = false := by
      by_contra more
      exact coarse (fine_ (by simpa using more))
    have number := h.exact_of_eq exact_
    have whole : x.cut mode neg q = (x.n * 2 ^ (x.e - q).toNat, false) := by
      unfold Mag.cut
      simp only
      rw [if_pos (by lia -abstractProof), exact_, show -(q - x.e) = x.e - q by lia -abstractProof]
    rw [whole]
    by_cases fine : q ≤ u
    · unfold Mag.cut
      simp only
      rw [if_pos (by lia -abstractProof), number, Nat.mul_assoc, ← Nat.pow_add]
      congr 3
      lia -abstractProof
    · have multiple : p = x.n * 2 ^ (x.e - q).toNat * 2 ^ (q - u).toNat := by
        rw [number, Nat.mul_assoc, ← Nat.pow_add]
        congr 2
        lia -abstractProof
      rw [Mag.cut_exact p (by lia -abstractProof), multiple, roundTo_multiple _ _ _ (Nat.two_pow_pos _)]

end

end Sys2Proof.Machine
end

section
/-! PROOFS. Rounding a number into a format: the code, overflow, and the flags (R60 to R62). -/

namespace Sys2Proof.Machine

open Sys2Proof

/-- The value of a magnitude code, beyond the largest as well, as a count of 2^u. -/
def Fmt.place (f : Fmt) (u : Int) (c : Nat) : Nat := f.val c * 2 ^ (f.qmin - u).toNat
/-- The exponent of the multiple to which a format rounds p × 2^u. -/
def Fmt.quantum (f : Fmt) (p : Nat) (u : Int) : Int := max ((Nat.log2 p : Int) + u - f.F) f.qmin
/-- The spacing of the format's values at p × 2^u, as a count of 2^u. -/
def Fmt.gap (f : Fmt) (p : Nat) (u : Int) : Nat := 2 ^ (f.quantum p u - u).toNat
/-- The largest code, overflow left aside, whose value p × 2^u reaches. -/
def Fmt.floorCode (f : Fmt) (p : Nat) (u : Int) : Nat := (f.quantum p u - f.qmin).toNat * 2 ^ f.F + p / f.gap p u
/-- p × 2^u is tiny after rounding (R62). -/
def Fmt.tiny (f : Fmt) (mode : Nat) (neg : Bool) (p : Nat) (u : Int) : Bool :=
  decide ((Nat.log2 p : Int) + u < f.qmin + f.F)
    && !((Mag.cut { n := p, e := u } mode neg ((Nat.log2 p : Int) + u - f.F)).1 == 2 ^ (f.F + 1) && (Nat.log2 p : Int) + u + 1 == f.qmin + f.F)

theorem Fmt.count_eq_place {f : Fmt} (h : f.Sound) {u : Int} (hu : u ≤ f.qmin) {c : Nat} (hc : c ≤ f.maxCode) : f.count u c = f.place u c :=
  f.count_eq h hu hc

theorem Fmt.place_strictMono (f : Fmt) (u : Int) : StrictMono (f.place u) :=
  fun _ _ h => Nat.mul_lt_mul_of_pos_right (f.val_strictMono h) (Nat.two_pow_pos _)

theorem Fmt.place_succ (f : Fmt) (u : Int) (c : Nat) : f.place u (c + 1) = f.place u c + 2 ^ f.binade c * 2 ^ (f.qmin - u).toNat := by
  unfold Fmt.place
  rw [f.val_succ, Nat.add_mul]

theorem Fmt.place_zero (f : Fmt) (u : Int) : f.place u 0 = 0 := by
  unfold Fmt.place
  rw [f.val_zero, Nat.zero_mul]

theorem Fmt.place_one (f : Fmt) (u : Int) : f.place u 1 = 2 ^ (f.qmin - u).toNat := by
  unfold Fmt.place
  rw [f.val_one, Nat.one_mul]

theorem Fmt.place_normal (f : Fmt) (u : Int) : f.place u (2 ^ f.F) = 2 ^ f.F * 2 ^ (f.qmin - u).toNat := by
  unfold Fmt.place
  rw [f.val_normal]

section
variable {f : Fmt} {p : Nat} {u : Int} (hu : u ≤ f.qmin)
include hu

theorem Fmt.gap_eq : f.gap p u = 2 ^ (f.quantum p u - f.qmin).toNat * 2 ^ (f.qmin - u).toNat := by
  unfold Fmt.gap Fmt.quantum
  rw [← Nat.pow_add]
  congr 1
  lia -abstractProof

omit hu in
theorem Fmt.gap_pos : 0 < f.gap p u := Nat.two_pow_pos _

omit hu in
/-- A number holds fewer multiples of its quantum than significands go. -/
theorem Fmt.div_gap_lt (h : u ≤ f.quantum p u) : p / f.gap p u < 2 ^ (f.F + 1) := by
  rw [Nat.div_lt_iff_lt_mul Fmt.gap_pos, Fmt.gap, ← Nat.pow_add]
  refine Nat.lt_of_lt_of_le Nat.lt_log2_self (Nat.pow_le_pow_right (by lia -abstractProof) ?_)
  unfold Fmt.quantum at h ⊢
  lia -abstractProof

/-- Above the lowest binade it holds as many as normal significands. -/
theorem Fmt.le_div_gap (h : (f.quantum p u - f.qmin).toNat ≠ 0) : 2 ^ f.F ≤ p / f.gap p u := by
  have nonzero : p ≠ 0 := by
    rintro rfl
    unfold Fmt.quantum at h
    rw [Nat.log2_zero] at h
    lia -abstractProof
  rw [Nat.le_div_iff_mul_le Fmt.gap_pos, Fmt.gap, ← Nat.pow_add]
  refine Nat.le_trans (Nat.pow_le_pow_right (by lia -abstractProof) ?_) (Nat.log2_self_le nonzero)
  unfold Fmt.quantum at h ⊢
  lia -abstractProof

theorem Fmt.le_quantum : u ≤ f.quantum p u := by
  unfold Fmt.quantum
  lia -abstractProof

/-- The floor code's value is the multiple of the quantum that the number reaches. -/
theorem Fmt.place_floorCode : f.place u (f.floorCode p u) = f.gap p u * (p / f.gap p u) := by
  unfold Fmt.place Fmt.floorCode
  rw [f.val_mul_add (Nat.le_of_lt (Fmt.div_gap_lt (Fmt.le_quantum hu))) (Fmt.le_div_gap hu), Nat.mul_assoc, ← Fmt.gap_eq hu, Nat.mul_comm]

/-- The next code's value is the next multiple. -/
theorem Fmt.place_floorCode_succ : f.place u (f.floorCode p u + 1) = f.place u (f.floorCode p u) + f.gap p u := by
  rw [Fmt.place_floorCode hu]
  unfold Fmt.place Fmt.floorCode
  rw [Nat.add_assoc, f.val_mul_add (Fmt.div_gap_lt (Fmt.le_quantum hu)) fun h => Nat.le_succ_of_le (Fmt.le_div_gap hu h), Nat.mul_assoc,
    ← Fmt.gap_eq hu, Nat.succ_mul, Nat.mul_comm]

theorem Fmt.mod_gap : f.place u (f.floorCode p u) + p % f.gap p u = p := by
  rw [Fmt.place_floorCode hu]
  exact Nat.div_add_mod ..

omit hu in
theorem Fmt.floorCode_mod_two (h : f.Sound) : f.floorCode p u % 2 = p / f.gap p u % 2 := by
  obtain ⟨j, hj⟩ : ∃ j, f.F = j + 1 := ⟨f.F - 1, by have := h.frac; lia -abstractProof⟩
  unfold Fmt.floorCode
  rw [hj, Nat.pow_succ, ← Nat.mul_assoc, Nat.mul_add_mod']

end

/-- Rounding up depends on the quotient's last bit alone. -/
theorem roundsUp_congr {k k' : Nat} (h : k % 2 = k' % 2) (mode : Nat) (neg : Bool) (r m : Nat) : roundsUp mode neg k r m = roundsUp mode neg k' r m := by
  unfold roundsUp
  rw [h]

/-- The code of a number, overflow left aside: the floor code or the next. -/
def Fmt.roundCode (f : Fmt) (mode : Nat) (neg : Bool) (p : Nat) (u : Int) : Nat :=
  if roundsUp mode neg (f.floorCode p u) (p % f.gap p u) (f.gap p u) then f.floorCode p u + 1 else f.floorCode p u

/-- A number rounds to its code, unless that lies beyond the largest. -/
theorem Fmt.round_exact {f : Fmt} (h : f.Sound) {p : Nat} {u : Int} (hu : u ≤ f.qmin) (nonzero : p ≠ 0) (mode : Nat) (neg : Bool) :
    f.round mode neg { n := p, e := u }
      = if f.maxCode < f.roundCode mode neg p u then (if toInf mode neg then f.inf.getD f.maxCode else f.maxCode, fOF ||| fNX)
        else (f.roundCode mode neg p u, if p % f.gap p u ≠ 0 then (if f.tiny mode neg p u then fUF ||| fNX else fNX) else 0) := by
  have code : (f.quantum p u - f.qmin).toNat * 2 ^ f.F + (roundTo mode neg p (f.gap p u)).1 = f.roundCode mode neg p u := by
    unfold roundTo Fmt.roundCode
    rw [roundsUp_congr (Fmt.floorCode_mod_two h)]
    unfold Fmt.floorCode
    split <;> rfl
  have inexact : (roundTo mode neg p (f.gap p u)).2 = true ↔ p % f.gap p u ≠ 0 := bne_iff_ne
  unfold Fmt.round
  rw [if_neg nonzero]
  dsimp only
  rw [show max ((Nat.log2 p : Int) + u - f.F) f.qmin = f.quantum p u from rfl, Mag.cut_exact p (Fmt.le_quantum hu)]
  rw [show 2 ^ (f.quantum p u - u).toNat = f.gap p u from rfl, code]
  congr 1
  rw [if_congr inexact rfl rfl]
  rfl

/-- A magnitude rounds into a format as the number that it stands for. -/
theorem Mag.Has.round_eq {f : Fmt} {x : Mag} {p : Nat} {u : Int} (h : x.Has p u) (nonzero : x.n ≠ 0)
    (sharp : x.more = false ∨ 2 ^ (f.F + 1) ≤ x.n) (mode : Nat) (neg : Bool) : f.round mode neg x = f.round mode neg { n := p, e := u } := by
  have log := h.log2 nonzero
  have fine_ : x.more = true → x.e < (Nat.log2 x.n : Int) + x.e - f.F := by
    intro more
    rcases sharp with exact_ | bits
    · rw [more] at exact_
      cases exact_
    · have := (Nat.le_log2 nonzero).mpr bits
      lia -abstractProof
  unfold Fmt.round
  rw [if_neg nonzero, if_neg (h.pos nonzero)]
  dsimp only
  rw [log, h.cut_eq (fun more => by have := fine_ more; lia -abstractProof), h.cut_eq fine_]

/-! ### What lies where -/

/-- The value of the largest code. -/
def Fmt.top (f : Fmt) (u : Int) : Nat := f.place u f.maxCode
/-- The step below it. -/
def Fmt.topGap (f : Fmt) (u : Int) : Nat := f.top u - f.place u (f.maxCode - 1)

section
variable {f : Fmt} (h : f.Sound) (u : Int)
include h

/-- The values at the top of the format: the largest, and the step below it, which is the step above it too. -/
theorem Fmt.place_top : f.place u (f.maxCode + 1) = f.top u + f.topGap u := by
  unfold Fmt.topGap Fmt.top
  obtain ⟨normal, odd⟩ := h.normal
  obtain ⟨c, hc⟩ : ∃ c, f.maxCode = c + 1 := ⟨f.maxCode - 1, by have := Nat.two_pow_pos f.F; lia -abstractProof⟩
  have binade : f.binade (c + 1) = f.binade c := by
    rw [hc] at odd
    unfold Fmt.binade
    rw [Nat.succ_div_of_not_dvd fun dvd => by rw [Nat.mod_eq_zero_of_dvd dvd] at odd; lia -abstractProof]
  have step := f.place_succ u c
  rw [hc, Nat.add_sub_cancel, f.place_succ u (c + 1), binade]
  lia -abstractProof

theorem Fmt.topGap_pos : 0 < f.topGap u := by
  unfold Fmt.topGap Fmt.top
  obtain ⟨normal, _⟩ := h.normal
  have := Nat.two_pow_pos f.F
  have := f.place_strictMono u (show f.maxCode - 1 < f.maxCode by lia -abstractProof)
  lia -abstractProof

end

section
variable {f : Fmt} {p : Nat} {u : Int} (hu : u ≤ f.qmin)
include hu

/-- A number reaches the values of the codes up to its floor code, and of no other. -/
theorem Fmt.place_le_iff (c : Nat) : f.place u c ≤ p ↔ c ≤ f.floorCode p u := by
  have mono := f.place_strictMono u
  have floor := Fmt.mod_gap (p := p) hu
  have next := Fmt.place_floorCode_succ (p := p) hu
  have small := Nat.mod_lt p (Fmt.gap_pos (f := f) (p := p) (u := u))
  constructor
  · intro le
    by_contra above
    have := mono.monotone (show f.floorCode p u + 1 ≤ c by lia -abstractProof)
    lia -abstractProof
  · intro le
    have := mono.monotone le
    lia -abstractProof

theorem Fmt.lt_place_iff (c : Nat) : p < f.place u c ↔ f.floorCode p u < c := by
  rw [← Nat.not_le, Fmt.place_le_iff hu, Nat.not_le]

end

/-! ### Tininess (R62) -/

section
variable {f : Fmt} (h : f.Sound) {p : Nat} {u : Int} (hu : u ≤ f.qmin) (nonzero : p ≠ 0) (mode : Nat) (neg : Bool)
include h hu nonzero

omit h in
/-- A number is tiny when it is below the normal numbers and, one bit finer than they are spaced, does not round up to them. -/
theorem Fmt.tiny_iff : f.tiny mode neg p u = true ↔ p < f.place u (2 ^ f.F)
    ∧ ¬ (f.place u (2 ^ f.F) ≤ 2 * p ∧ (roundTo mode neg (2 * p) (f.place u 1)).1 = 2 ^ (f.F + 1)) := by
  have normal : f.place u (2 ^ f.F) = 2 ^ (f.F + (f.qmin - u).toNat) := by rw [f.place_normal, Nat.pow_add]
  have below : (Nat.log2 p : Int) + u < f.qmin + f.F ↔ p < f.place u (2 ^ f.F) := by
    rw [normal, ← Nat.log2_lt nonzero]
    lia -abstractProof
  have half : (Nat.log2 p : Int) + u < f.qmin + f.F → ((Nat.log2 p : Int) + u + 1 = f.qmin + f.F ↔ f.place u (2 ^ f.F) ≤ 2 * p) := by
    intro hE
    rw [normal, ← Nat.le_log2 (by lia -abstractProof), Nat.log2_two_mul nonzero]
    lia -abstractProof
  have cut : (Nat.log2 p : Int) + u + 1 = f.qmin + f.F →
      Mag.cut { n := p, e := u } mode neg ((Nat.log2 p : Int) + u - f.F) = roundTo mode neg (2 * p) (f.place u 1) := by
    intro hE
    have finer : Mag.Has { n := p, e := u } (2 * p) (u - 1) := by
      refine ⟨by dsimp only; lia -abstractProof, ?_⟩
      rw [if_neg Bool.false_ne_true, show (u - (u - 1)).toNat = 1 by lia -abstractProof]
      dsimp only
      lia -abstractProof
    rw [finer.cut_eq (fun e => Bool.noConfusion e), Mag.cut_exact _ (by lia -abstractProof), f.place_one]
    congr 3
    lia -abstractProof
  unfold Fmt.tiny
  rw [Bool.and_eq_true, decide_eq_true_eq, below, Bool.not_eq_true', Bool.and_eq_false_iff, beq_eq_false_iff_ne, beq_eq_false_iff_ne]
  refine and_congr_right fun hp => ?_
  have hE := below.mpr hp
  rw [not_and, ← half hE]
  constructor
  · rintro (other | far) near
    · rwa [cut near] at other
    · exact absurd near far
  · intro round
    by_cases near : (Nat.log2 p : Int) + u + 1 = f.qmin + f.F
    · rw [cut near]
      exact .inl (round near)
    · exact .inr near

omit hu nonzero in
/-- The multiple to which twice a number is rounded, beside twice the least normal number. -/
theorem Fmt.rounded_normal {c : Nat} : 0 < f.place u 1 ∧ 2 * f.place u 1 ≤ f.place u (2 ^ f.F)
    ∧ (c < 2 ^ (f.F + 1) → c * f.place u 1 + f.place u 1 ≤ 2 * f.place u (2 ^ f.F))
    ∧ (c = 2 ^ (f.F + 1) → c * f.place u 1 = 2 * f.place u (2 ^ f.F))
    ∧ (2 ^ (f.F + 1) < c → 2 * f.place u (2 ^ f.F) + f.place u 1 ≤ c * f.place u 1)
    ∧ (c * f.place u 1 + f.place u 1 = 2 * f.place u (2 ^ f.F) → c % 2 = 1) := by
  have pos : 0 < f.place u 1 := by rw [f.place_one]; exact Nat.two_pow_pos _
  have normal : 2 * f.place u (2 ^ f.F) = 2 ^ (f.F + 1) * f.place u 1 := by rw [f.place_normal, f.place_one, Nat.pow_succ]; ring
  have two : 2 ^ 1 ≤ 2 ^ f.F := Nat.pow_le_pow_right (by lia -abstractProof) h.frac.1
  rw [normal, ← Nat.succ_mul, ← Nat.succ_mul]
  refine ⟨pos, ?_, fun lt => Nat.mul_le_mul_right _ lt, fun eq => by rw [eq], fun lt => Nat.mul_le_mul_right _ lt, fun eq => ?_⟩
  · rw [f.place_normal, ← f.place_one]
    exact Nat.mul_le_mul_right _ two
  · have eq := Nat.eq_of_mul_eq_mul_right pos eq
    rw [Nat.pow_succ] at eq
    lia -abstractProof

theorem Fmt.tiny_nearest (nearest : mode = 0 ∨ mode = 4) :
    f.tiny mode neg p u = true ↔ 4 * p + f.place u 1 < 4 * f.place u (2 ^ f.F) := by
  obtain ⟨pos, two, below, at_, above, odd⟩ := Fmt.rounded_normal h (u := u) (c := (roundTo mode neg (2 * p) (f.place u 1)).1)
  have rounded := (rounded_roundTo mode neg (2 * p) pos).1
  rw [Fmt.tiny_iff hu nonzero]
  generalize (roundTo mode neg (2 * p) (f.place u 1)).1 = c at *
  rcases nearest with rfl | rfl
  · rw [rounded_even] at rounded
    generalize c * f.place u 1 = x at *
    lia -abstractProof
  · rw [rounded_tiesAway] at rounded
    generalize c * f.place u 1 = x at *
    lia -abstractProof

theorem Fmt.tiny_away (away : awayFromZero mode neg) :
    f.tiny mode neg p u = true ↔ 2 * p + f.place u 1 ≤ 2 * f.place u (2 ^ f.F) := by
  obtain ⟨pos, two, below, at_, above, odd⟩ := Fmt.rounded_normal h (u := u) (c := (roundTo mode neg (2 * p) (f.place u 1)).1)
  have rounded := (rounded_roundTo mode neg (2 * p) pos).1
  rw [Fmt.tiny_iff hu nonzero]
  rw [rounded_away away] at rounded
  generalize (roundTo mode neg (2 * p) (f.place u 1)).1 = c at *
  generalize c * f.place u 1 = x at *
  lia -abstractProof

theorem Fmt.tiny_toward (toward : towardZero mode neg) : f.tiny mode neg p u = true ↔ p < f.place u (2 ^ f.F) := by
  obtain ⟨pos, two, below, at_, above, odd⟩ := Fmt.rounded_normal h (u := u) (c := (roundTo mode neg (2 * p) (f.place u 1)).1)
  have rounded := (rounded_roundTo mode neg (2 * p) pos).1
  rw [Fmt.tiny_iff hu nonzero]
  rw [rounded_toward toward] at rounded
  generalize (roundTo mode neg (2 * p) (f.place u 1)).1 = c at *
  rw [Nat.add_mul c, Nat.one_mul] at rounded
  generalize c * f.place u 1 = x at *
  lia -abstractProof

end

/-! ### The code of a number -/

section
variable {f : Fmt} (h : f.Sound) {p : Nat} {u : Int} (hu : u ≤ f.qmin) (nonzero : p ≠ 0)
include h hu nonzero

/-- The flags of a result whose code is c (R62). -/
def Fmt.flags (f : Fmt) (u : Int) (p c : Nat) (tiny : Prop) [Decidable tiny] : BitVec 5 :=
  if f.count u c = p then 0 else if tiny then fUF ||| fNX else fNX

/-- A number whose code is in range rounds to it. -/
theorem Fmt.round_fits {mode : Nat} {neg : Bool} (fits : f.roundCode mode neg p u ≤ f.maxCode) {tiny : Prop} [Decidable tiny]
    (tiny_iff : f.tiny mode neg p u = true ↔ tiny) :
    f.round mode neg { n := p, e := u } = (f.roundCode mode neg p u, f.flags u p (f.roundCode mode neg p u) tiny) := by
  have floor := Fmt.mod_gap (p := p) hu
  have next := Fmt.place_floorCode_succ (p := p) hu
  have small := Nat.mod_lt p (Fmt.gap_pos (f := f) (p := p) (u := u))
  have exact_ : f.count u (f.roundCode mode neg p u) = p ↔ p % f.gap p u = 0 := by
    rw [Fmt.count_eq_place h hu fits]
    have up := roundsUp_zero mode neg (f.floorCode p u) (Fmt.gap_pos (f := f) (p := p) (u := u))
    constructor
    · intro eq
      unfold Fmt.roundCode at eq
      split at eq <;> lia -abstractProof
    · intro zero
      unfold Fmt.roundCode
      rw [zero, up, if_neg Bool.false_ne_true]
      lia -abstractProof
  rw [Fmt.round_exact h hu nonzero, if_neg (Nat.not_lt.mpr fits)]
  unfold Fmt.flags
  rw [if_congr exact_ rfl rfl, ite_not, if_congr tiny_iff rfl rfl]

/-- A number whose code is out of range overflows. -/
theorem Fmt.round_overflow {mode : Nat} {neg : Bool} (beyond : f.maxCode < f.roundCode mode neg p u) :
    f.round mode neg { n := p, e := u } = (if toInf mode neg then f.inf.getD f.maxCode else f.maxCode, fOF ||| fNX) := by
  rw [Fmt.round_exact h hu nonzero, if_pos beyond]

omit h nonzero in
/-- The code of a number is its floor code, of which it holds the value and less than a gap more, or the next. -/
theorem Fmt.roundCode_cases (mode : Nat) (neg : Bool) : ∃ r, r < f.gap p u ∧ f.place u (f.floorCode p u) + r = p
    ∧ f.place u (f.floorCode p u + 1) = f.place u (f.floorCode p u) + f.gap p u
    ∧ (roundsUp mode neg (f.floorCode p u) r (f.gap p u) = true ∧ f.roundCode mode neg p u = f.floorCode p u + 1
      ∨ roundsUp mode neg (f.floorCode p u) r (f.gap p u) = false ∧ f.roundCode mode neg p u = f.floorCode p u) := by
  refine ⟨p % f.gap p u, Nat.mod_lt p Fmt.gap_pos, Fmt.mod_gap hu, Fmt.place_floorCode_succ hu, ?_⟩
  unfold Fmt.roundCode
  cases roundsUp mode neg (f.floorCode p u) (p % f.gap p u) (f.gap p u) <;> simp

omit h hu nonzero in
/-- Of the codes the floor code and the next are those nearest to a number. -/
theorem Fmt.place_cases (d : Nat) : d = f.floorCode p u ∨ d = f.floorCode p u + 1 ∨ f.place u d < f.place u (f.floorCode p u)
    ∨ f.place u (f.floorCode p u + 1) < f.place u d := by
  have mono := f.place_strictMono u
  rcases Nat.lt_or_ge d (f.floorCode p u) with below | _
  · exact .inr (.inr (.inl (mono below)))
  rcases Nat.lt_or_ge (f.floorCode p u + 1) d with above | _
  · exact .inr (.inr (.inr (mono above)))
  lia -abstractProof

omit h nonzero in
/-- How far a code's value lies from a number, whose remainder in its gap is r. -/
theorem Fmt.natAbs_place_sub (d : Nat) :
    let r := p % f.gap p u
    let distance := ((f.place u d : Int) - p).natAbs
    d = f.floorCode p u ∧ distance = r ∨ d = f.floorCode p u + 1 ∧ distance = f.gap p u - r ∨ r < distance ∧ d < f.floorCode p u
    ∨ f.gap p u - r < distance ∧ f.floorCode p u + 1 < d := by
  have floor := Fmt.mod_gap (p := p) hu
  have next := Fmt.place_floorCode_succ (p := p) hu
  have small := Nat.mod_lt p (Fmt.gap_pos (f := f) (p := p) (u := u))
  have mono := f.place_strictMono u
  rcases Nat.lt_trichotomy d (f.floorCode p u) with below | rfl | above
  · have := mono below
    exact .inr (.inr (.inl ⟨by lia -abstractProof, below⟩))
  · exact .inl ⟨rfl, by lia -abstractProof⟩
  · rcases Nat.lt_or_eq_of_le (Nat.succ_le_of_lt above) with above | rfl
    · have := mono above
      rw [← Nat.add_one] at this
      exact .inr (.inr (.inr ⟨by lia -abstractProof, above⟩))
    · exact .inr (.inl ⟨rfl, by rw [← Nat.add_one]; lia -abstractProof⟩)

omit h nonzero in
/-- Rounding to nearest gives the nearest code, and of two as near the even one or the larger one (R61). -/
theorem Fmt.nearest_roundCode {mode : Nat} (neg : Bool) (nearest : mode = 0 ∨ mode = 4) (d : Nat) :
    ((f.place u (f.roundCode mode neg p u) : Int) - p).natAbs ≤ ((f.place u d : Int) - p).natAbs
    ∧ (((f.place u (f.roundCode mode neg p u) : Int) - p).natAbs = ((f.place u d : Int) - p).natAbs → d ≠ f.roundCode mode neg p u →
      if mode == 4 then d < f.roundCode mode neg p u else f.roundCode mode neg p u % 2 = 0) := by
  have small := Nat.mod_lt p (Fmt.gap_pos (f := f) (p := p) (u := u))
  have here := Fmt.natAbs_place_sub (p := p) hu (f.roundCode mode neg p u)
  have there := Fmt.natAbs_place_sub (p := p) hu d
  dsimp only at here there
  generalize ((f.place u (f.roundCode mode neg p u) : Int) - p).natAbs = x at *
  generalize ((f.place u d : Int) - p).natAbs = y at *
  unfold Fmt.roundCode at *
  generalize p % f.gap p u = r at *
  generalize f.gap p u = g at *
  generalize f.floorCode p u = k at *
  rcases nearest with rfl | rfl
  · rw [if_neg (show ¬ (0 == 4) = true by decide)]
    cases up : roundsUp 0 neg k r g
    · rw [up, if_neg Bool.false_ne_true] at here
      rw [Bool.eq_false_iff, ne_eq, roundsUp_even] at up
      rw [if_neg Bool.false_ne_true]
      have near : x = r := by lia -abstractProof
      subst near
      lia -abstractProof
    · rw [up, if_pos rfl] at here
      rw [roundsUp_even] at up
      rw [if_pos rfl]
      have near : x = g - r := by lia -abstractProof
      subst near
      lia -abstractProof
  · rw [if_pos (show (4 == 4) = true from rfl)]
    cases up : roundsUp 4 neg k r g
    · rw [up, if_neg Bool.false_ne_true] at here
      rw [Bool.eq_false_iff, ne_eq, roundsUp_tiesAway] at up
      rw [if_neg Bool.false_ne_true]
      have near : x = r := by lia -abstractProof
      subst near
      lia -abstractProof
    · rw [up, if_pos rfl] at here
      rw [roundsUp_tiesAway] at up
      rw [if_pos rfl]
      have near : x = g - r := by lia -abstractProof
      subst near
      lia -abstractProof

omit nonzero in
/-- A number, its floor code and the largest code: beyond it, at it, or below it. -/
theorem Fmt.top_cases :
    f.maxCode < f.floorCode p u ∧ f.top u + f.topGap u ≤ p
    ∨ f.floorCode p u = f.maxCode ∧ f.gap p u = f.topGap u ∧ f.top u + p % f.gap p u = p ∧ p % f.gap p u < f.gap p u
    ∨ f.floorCode p u + 1 ≤ f.maxCode ∧ p < f.top u := by
  have step := Fmt.place_top h u
  have beyond := Fmt.place_le_iff (p := p) hu (f.maxCode + 1)
  have below := Fmt.lt_place_iff (p := p) hu f.maxCode
  have floor := Fmt.mod_gap (p := p) hu
  have next := Fmt.place_floorCode_succ (p := p) hu
  rcases Nat.lt_trichotomy f.maxCode (f.floorCode p u) with gt | eq | lt
  · exact .inl ⟨gt, by lia -abstractProof⟩
  · refine .inr (.inl ⟨eq.symm, ?_, ?_, Nat.mod_lt p Fmt.gap_pos⟩)
    · rw [← eq] at next
      unfold Fmt.top at step
      lia -abstractProof
    · rwa [← eq] at floor
  · exact .inr (.inr ⟨lt, below.mpr lt⟩)

omit nonzero in
/-- Rounding to nearest overflows from half a step beyond the largest code, which itself counts where the largest code is odd. -/
theorem Fmt.nearest_beyond {mode : Nat} (neg : Bool) (nearest : mode = 0 ∨ mode = 4) :
    f.maxCode < f.roundCode mode neg p u
      ↔ if mode = 0 ∧ f.maxCode % 2 = 0 then 2 * f.top u + f.topGap u < 2 * p else 2 * f.top u + f.topGap u ≤ 2 * p := by
  have cases_ := Fmt.top_cases h (p := p) hu
  have step := Fmt.topGap_pos h u
  unfold Fmt.roundCode
  rcases nearest with rfl | rfl
  · cases up : roundsUp 0 neg (f.floorCode p u) (p % f.gap p u) (f.gap p u)
    · rw [Bool.eq_false_iff, ne_eq, roundsUp_even] at up
      rw [if_neg Bool.false_ne_true]
      split_ifs <;> lia -abstractProof
    · rw [roundsUp_even] at up
      rw [if_pos rfl]
      split_ifs <;> lia -abstractProof
  · rw [if_neg (show ¬(4 = 0 ∧ f.maxCode % 2 = 0) by lia -abstractProof)]
    cases up : roundsUp 4 neg (f.floorCode p u) (p % f.gap p u) (f.gap p u)
    · rw [Bool.eq_false_iff, ne_eq, roundsUp_tiesAway] at up
      rw [if_neg Bool.false_ne_true]
      lia -abstractProof
    · rw [roundsUp_tiesAway] at up
      rw [if_pos rfl]
      lia -abstractProof

omit h nonzero in
/-- Rounding away from zero gives the least code whose value is not below the number. -/
theorem Fmt.le_place_iff_of_away {mode : Nat} {neg : Bool} (away : awayFromZero mode neg) (d : Nat) :
    p ≤ f.place u d ↔ f.roundCode mode neg p u ≤ d := by
  obtain ⟨r, small, floor, next, up⟩ := Fmt.roundCode_cases (p := p) hu mode neg
  have mono := f.place_strictMono u
  rw [Bool.eq_false_iff, ne_eq, roundsUp_away away] at up
  rcases up with ⟨up, code⟩ | ⟨up, code⟩
  · rw [code, Nat.succ_le_iff, ← Fmt.lt_place_iff hu]
    constructor
    · intro le
      rcases Fmt.place_cases (f := f) (p := p) (u := u) d with rfl | rfl | near | near <;> lia -abstractProof
    · exact Nat.le_of_lt
  · rw [code, ← mono.le_iff_le (a := f.floorCode p u)]
    lia -abstractProof

omit h hu nonzero in
/-- Rounding toward zero gives the floor code. -/
theorem Fmt.roundCode_toward {mode : Nat} {neg : Bool} (toward : towardZero mode neg) : f.roundCode mode neg p u = f.floorCode p u := by
  unfold Fmt.roundCode
  rw [roundsUp_toward toward, if_neg Bool.false_ne_true]

end

end Sys2Proof.Machine
end

section
/-! PROOFS. Settling FloatRounding (R60 to R64, R73). -/

namespace Sys2Proof.Machine

open Sys2Proof

/-! ### Rounding in the values of codes -/

section
variable {f : Fmt} (h : f.Sound) {p : Nat} {u : Int} (hu : u ≤ f.qmin) (nonzero : p ≠ 0) (neg : Bool)
include h hu

/-- The code to which rounding to nearest rounds is the nearest. -/
theorem Fmt.nearest_of_fits {mode : Nat} (nearest : mode = 0 ∨ mode = 4) (fits : f.roundCode mode neg p u ≤ f.maxCode) :
    f.Nearest u p (f.roundCode mode neg p u) (mode == 4) := by
  refine ⟨fits, fun d hd => ?_⟩
  rw [Fmt.count_eq_place h hu fits, Fmt.count_eq_place h hu hd]
  exact Fmt.nearest_roundCode hu neg nearest d

include nonzero

/-- Rounding to nearest (R60 to R62). -/
theorem Fmt.round_nearest {mode : Nat} (nearest : mode = 0 ∨ mode = 4) :
    let r := f.round mode neg { n := p, e := u }
    let large := if mode = 0 ∧ f.maxCode % 2 = 0 then 2 * f.top u + f.topGap u < 2 * p else 2 * f.top u + f.topGap u ≤ 2 * p
    (large → r = (f.inf.getD f.maxCode, fOF ||| fNX))
    ∧ (¬ large → f.Nearest u p r.1 (mode == 4) ∧ r.2 = f.flags u p r.1 (4 * p + f.place u 1 < 4 * f.place u (2 ^ f.F))) := by
  intro r large
  have beyond := Fmt.nearest_beyond h (p := p) hu neg nearest
  constructor
  · intro hl
    have infinite : toInf mode neg = true := by rcases nearest with rfl | rfl <;> rfl
    rw [show r = _ from Fmt.round_overflow h hu nonzero (beyond.mpr hl), if_pos infinite]
  · intro hl
    have fits := Nat.le_of_not_lt (mt beyond.mp hl)
    rw [show r = _ from Fmt.round_fits h hu nonzero fits (Fmt.tiny_nearest h hu nonzero mode neg nearest)]
    exact ⟨Fmt.nearest_of_fits h hu neg nearest fits, rfl⟩

/-- Rounding away from zero. -/
theorem Fmt.round_away {mode : Nat} (away : awayFromZero mode neg) :
    let r := f.round mode neg { n := p, e := u }
    (f.top u < p → r = (f.inf.getD f.maxCode, fOF ||| fNX))
    ∧ (p ≤ f.top u → r.1 ≤ f.maxCode ∧ p ≤ f.count u r.1 ∧ (∀ d, d ≤ f.maxCode → p ≤ f.count u d → r.1 ≤ d)
        ∧ r.2 = f.flags u p r.1 (2 * p + f.place u 1 ≤ 2 * f.place u (2 ^ f.F))) := by
  intro r
  have code := Fmt.le_place_iff_of_away (p := p) hu away
  constructor
  · intro hl
    have infinite : toInf mode neg = true := by rcases away with ⟨rfl, rfl⟩ | ⟨rfl, rfl⟩ <;> rfl
    rw [show r = _ from Fmt.round_overflow h hu nonzero (by rw [← Nat.not_le, ← code]; exact Nat.not_le.mpr hl), if_pos infinite]
  · intro hl
    have fits := (code f.maxCode).mp hl
    rw [show r = _ from Fmt.round_fits h hu nonzero fits (Fmt.tiny_away h hu nonzero mode neg away)]
    refine ⟨fits, ?_, fun d hd => ?_, rfl⟩
    · rw [Fmt.count_eq_place h hu fits, code]
    · rw [Fmt.count_eq_place h hu hd, code]
      exact id

/-- Rounding toward zero. -/
theorem Fmt.round_toward {mode : Nat} (toward : towardZero mode neg) :
    let r := f.round mode neg { n := p, e := u }
    (f.top u + f.topGap u ≤ p → r = (f.maxCode, fOF ||| fNX))
    ∧ (p < f.top u + f.topGap u → r.1 ≤ f.maxCode ∧ f.count u r.1 ≤ p ∧ (∀ d, d ≤ f.maxCode → f.count u d ≤ p → d ≤ r.1)
        ∧ r.2 = f.flags u p r.1 (p < f.place u (2 ^ f.F))) := by
  intro r
  have code := Fmt.roundCode_toward (f := f) (p := p) (u := u) toward
  rw [← Fmt.place_top h u, Fmt.lt_place_iff hu, Fmt.place_le_iff hu]
  constructor
  · intro hl
    have finite : toInf mode neg = false := by
      obtain ⟨even, ties, away⟩ := toward
      unfold awayFromZero at away
      unfold toInf
      cases neg <;> simp_all
    rw [show r = _ from Fmt.round_overflow h hu nonzero (by rw [code]; exact hl), finite, if_neg Bool.false_ne_true]
  · intro hl
    have fits : f.roundCode mode neg p u ≤ f.maxCode := by
      rw [code]
      exact Nat.le_of_lt_succ hl
    rw [show r = _ from Fmt.round_fits h hu nonzero fits (Fmt.tiny_toward h hu nonzero mode neg toward)]
    refine ⟨fits, ?_, fun d hd => ?_, rfl⟩
    · rw [Fmt.count_eq_place h hu fits, Fmt.place_le_iff hu, code]
    · rw [Fmt.count_eq_place h hu hd, Fmt.place_le_iff hu, code]
      exact id

end

end Sys2Proof.Machine
end

section
/-! PROOFS. Roots, reciprocals, and the choice within a bound of ulps (R73). -/

namespace Sys2Proof.Machine

open Sys2Proof

/-! ### Square roots and reciprocals -/

/-- The bits of a root below 2^(k+1) are found by trying them from the highest down. -/
theorem isqrtFrom_eq (n : Nat) : ∀ k r, r * r ≤ n → n < (r + 2 ^ (k + 1)) * (r + 2 ^ (k + 1)) → isqrtFrom n k r = Nat.sqrt n
  | 0, r, low, high => by
    unfold isqrtFrom
    split_ifs with next
    · exact Nat.eq_sqrt.mpr ⟨next, high⟩
    · exact Nat.eq_sqrt.mpr ⟨low, Nat.lt_of_not_le next⟩
  | k + 1, r, low, high => by
    have double : 2 ^ (k + 1 + 1) = 2 ^ (k + 1) + 2 ^ (k + 1) := by ring
    unfold isqrtFrom
    split_ifs with next
    · refine isqrtFrom_eq n k _ next ?_
      rwa [Nat.add_assoc, ← double]
    · exact isqrtFrom_eq n k r low (Nat.lt_of_not_le next)

theorem isqrt_eq (n : Nat) : isqrt n = Nat.sqrt n := by
  refine isqrtFrom_eq n _ 0 (by lia -abstractProof) ?_
  rw [Nat.zero_add, ← Nat.pow_add]
  exact Nat.lt_of_lt_of_le Nat.lt_log2_self (Nat.pow_le_pow_right (by lia -abstractProof) (by lia -abstractProof))

/-- The reciprocal of m × 2^e, as the greatest multiple of its unit that it reaches. -/
theorem Mag.recip_spec {m : Nat} (hm : m ≠ 0) (e : Int) :
    let x := Mag.recip m e
    let P := 2 ^ (-(e + x.e)).toNat
    2 ^ 53 ≤ x.n ∧ e + x.e ≤ 0 ∧ m * x.n ≤ P ∧ P < m * (x.n + 1) ∧ (x.more = false ↔ m * x.n = P) := by
  unfold Mag.recip
  dsimp only
  rw [show -(e + (-((Nat.log2 m + 130 : Nat) : Int) - e)) = ((Nat.log2 m + 130 : Nat) : Int) by ring, Int.toNat_natCast]
  have divided := Nat.div_add_mod (2 ^ (Nat.log2 m + 130)) m
  have small := Nat.mod_lt (2 ^ (Nat.log2 m + 130)) (Nat.pos_of_ne_zero hm)
  refine ⟨?_, by lia -abstractProof, by lia -abstractProof, by rw [Nat.mul_succ]; lia -abstractProof, ?_⟩
  · rw [Nat.le_div_iff_mul_le (Nat.pos_of_ne_zero hm)]
    calc 2 ^ 53 * m ≤ 2 ^ 53 * 2 ^ (Nat.log2 m + 1) := Nat.mul_le_mul_left _ (Nat.le_of_lt Nat.lt_log2_self)
      _ = 2 ^ (53 + (Nat.log2 m + 1)) := (Nat.pow_add ..).symm
      _ ≤ 2 ^ (Nat.log2 m + 130) := Nat.pow_le_pow_right (by omega) (by omega)
  · rw [bne_eq_false_iff_eq]
    lia -abstractProof

/-- The square root of m × 2^e, likewise. -/
theorem Mag.root_spec {m : Nat} (hm : m ≠ 0) (e : Int) :
    let x := Mag.root m e
    let P := m * 2 ^ (e - 2 * x.e).toNat
    2 ^ 53 ≤ x.n ∧ 2 * x.e ≤ e ∧ x.n ^ 2 ≤ P ∧ P < (x.n + 1) ^ 2 ∧ (x.more = false ↔ x.n ^ 2 = P) := by
  unfold Mag.root
  dsimp only
  have unit : e - 2 * ((e - e % 2) / 2 - (130 : Nat)) = e % 2 + 260 := by lia -abstractProof
  have radicand : m * 2 ^ (e % 2).toNat * 2 ^ (2 * 130) = m * 2 ^ (e % 2 + 260).toNat := by
    rw [Nat.mul_assoc, ← Nat.pow_add]
    congr 2
    lia -abstractProof
  rw [unit, radicand, isqrt_eq, pow_two, pow_two]
  refine ⟨?_, by omega, Nat.sqrt_le _, Nat.lt_succ_sqrt _, bne_eq_false_iff_eq⟩
  rw [Nat.le_sqrt, ← Nat.pow_add]
  calc 2 ^ (53 + 53) ≤ 2 ^ (e % 2 + 260).toNat := Nat.pow_le_pow_right (by omega) (by omega)
    _ ≤ m * 2 ^ (e % 2 + 260).toNat := Nat.le_mul_of_pos_left _ (Nat.pos_of_ne_zero hm)

/-- The reciprocal square root of m × 2^e, likewise. -/
theorem Mag.rroot_spec {m : Nat} (hm : m ≠ 0) (e : Int) :
    let x := Mag.rroot m e
    let P := 2 ^ (-(e + 2 * x.e)).toNat
    e + 2 * x.e ≤ 0 ∧ m * x.n ^ 2 ≤ P ∧ P < m * (x.n + 1) ^ 2 ∧ (x.more = false ↔ m * x.n ^ 2 = P) := by
  unfold Mag.rroot
  dsimp only
  generalize hk : Nat.log2 (m * 2 ^ (e % 2).toNat) + 200 = k
  have unit : e + 2 * (-(e - e % 2) / 2 - (k : Int)) = e % 2 - 2 * k := by lia -abstractProof
  have power : 2 ^ (2 * k) = 2 ^ (2 * k - e % 2).toNat * 2 ^ (e % 2).toNat := by
    rw [← Nat.pow_add]
    congr 1
    lia -abstractProof
  rw [unit, Int.neg_sub, isqrt_eq, pow_two, pow_two]
  have pos := Nat.two_pow_pos (e % 2).toNat
  have d : 0 < m * 2 ^ (e % 2).toNat := Nat.mul_pos (Nat.pos_of_ne_zero hm) pos
  have low := Nat.sqrt_le (2 ^ (2 * k) / (m * 2 ^ (e % 2).toNat))
  have high := Nat.lt_succ_sqrt (2 ^ (2 * k) / (m * 2 ^ (e % 2).toNat))
  rw [Nat.le_div_iff_mul_le d] at low
  rw [Nat.div_lt_iff_lt_mul d] at high
  generalize Nat.sqrt (2 ^ (2 * k) / (m * 2 ^ (e % 2).toNat)) = r at *
  rw [power, ← Nat.mul_assoc, Nat.mul_comm (r * r)] at low
  rw [power, ← Nat.mul_assoc, Nat.mul_comm (r.succ * r.succ)] at high
  refine ⟨by lia -abstractProof, Nat.le_of_mul_le_mul_right low pos, Nat.lt_of_mul_lt_mul_right high, ?_⟩
  rw [bne_eq_false_iff_eq, power, ← Nat.mul_assoc, Nat.mul_comm (r * r), Nat.mul_left_inj (by lia -abstractProof)]

/-- The leading bit of a root. -/
theorem log2_sqrt {n a b : Nat} (low : 2 ^ a ≤ n) (high : n < 2 ^ (b + 1)) : a / 2 ≤ Nat.log2 (Nat.sqrt n) ∧ Nat.log2 (Nat.sqrt n) ≤ b / 2 := by
  have bit : 2 ^ (a / 2) ≤ Nat.sqrt n := by
    rw [Nat.le_sqrt, ← Nat.pow_add]
    exact Nat.le_trans (Nat.pow_le_pow_right (by lia -abstractProof) (by lia -abstractProof)) low
  have nonzero : Nat.sqrt n ≠ 0 := by
    have := Nat.two_pow_pos (a / 2)
    lia -abstractProof
  refine ⟨(Nat.le_log2 nonzero).mpr bit, Nat.le_of_lt_succ ((Nat.log2_lt nonzero).mpr ?_)⟩
  rw [Nat.sqrt_lt, ← Nat.pow_add]
  exact Nat.lt_of_lt_of_le high (Nat.pow_le_pow_right (by lia -abstractProof) (by lia -abstractProof))

theorem log2_mul_two_pow {m : Nat} (hm : m ≠ 0) (k : Nat) : Nat.log2 (m * 2 ^ k) = Nat.log2 m + k := by
  have pos := Nat.two_pow_pos k
  rw [Nat.log2_eq_iff (Nat.mul_ne_zero hm (by lia -abstractProof)), Nat.pow_add, Nat.add_right_comm, Nat.pow_add]
  exact ⟨Nat.mul_le_mul_right _ (Nat.log2_self_le hm), Nat.mul_lt_mul_of_pos_right Nat.lt_log2_self pos⟩

/-- Between which powers of two it lies. -/
theorem Mag.rroot_log2 {m : Nat} (hm : m ≠ 0) (e : Int) :
    let x := Mag.rroot m e
    199 ≤ Nat.log2 x.n ∧ -(Nat.log2 m : Int) - e - 2 ≤ 2 * ((Nat.log2 x.n : Int) + x.e)
    ∧ 2 * ((Nat.log2 x.n : Int) + x.e) ≤ -(Nat.log2 m : Int) - e := by
  have nonzero : m * 2 ^ (e % 2).toNat ≠ 0 := Nat.mul_ne_zero hm (by have := Nat.two_pow_pos (e % 2).toNat; lia -abstractProof)
  have bits := log2_mul_two_pow hm (e % 2).toNat
  have low := Nat.log2_self_le nonzero
  have high := Nat.lt_log2_self (n := m * 2 ^ (e % 2).toNat)
  unfold Mag.rroot
  dsimp only
  rw [bits] at low high ⊢
  rw [isqrt_eq]
  generalize m * 2 ^ (e % 2).toNat = d at *
  generalize hD : Nat.log2 m + (e % 2).toNat = D at *
  have log := log2_sqrt (n := 2 ^ (2 * (D + 200)) / d) (a := D + 399) (b := D + 400) ?_ ?_
  · omega
  · rw [Nat.le_div_iff_mul_le (Nat.pos_of_ne_zero nonzero)]
    calc 2 ^ (D + 399) * d ≤ 2 ^ (D + 399) * 2 ^ (D + 1) := Nat.mul_le_mul_left _ (Nat.le_of_lt high)
      _ = 2 ^ (2 * (D + 200)) := by rw [← Nat.pow_add]; congr 1; lia -abstractProof
  · rw [Nat.div_lt_iff_lt_mul (Nat.pos_of_ne_zero nonzero)]
    calc 2 ^ (2 * (D + 200)) < 2 ^ (D + 400 + 1) * 2 ^ D := by rw [← Nat.pow_add]; exact Nat.pow_lt_pow_right (by omega) (by omega)
      _ ≤ 2 ^ (D + 400 + 1) * d := Nat.mul_le_mul_left _ low

/-! ### A value within a bound of ulps -/

/-- A signed magnitude code's value. -/
def Fmt.signedPlace (f : Fmt) (u : Int) (z : Int) : Int := if z < 0 then -(f.place u z.natAbs : Int) else f.place u z.natAbs

/-- A count of 2^u, zero too, rounded in a direction from zero. -/
theorem Fmt.round_count {f : Fmt} (h : f.Sound) {p : Nat} {u : Int} (hu : u ≤ f.qmin) :
    (p ≤ f.top u → ∀ d, (f.round 2 false { n := p, e := u }).1 ≤ d ↔ p ≤ f.place u d)
    ∧ (f.round 1 false { n := p, e := u }).1 ≤ f.maxCode
    ∧ ∀ d, d ≤ f.maxCode → (d ≤ (f.round 1 false { n := p, e := u }).1 ↔ f.place u d ≤ p) := by
  rcases Nat.eq_zero_or_pos p with rfl | pos
  · have zero : ∀ mode, f.round mode false { n := 0, e := u } = (0, 0) := fun mode => if_pos rfl
    have mono := f.place_strictMono u
    have low := f.place_zero u
    rw [zero, zero]
    refine ⟨fun _ d => by lia -abstractProof, by lia -abstractProof, fun d _ => ?_⟩
    constructor
    · intro le
      obtain rfl : d = 0 := Nat.le_zero.mp le
      exact Nat.le_of_eq low
    · intro le
      by_contra above
      have := mono (show 0 < d by lia -abstractProof)
      lia -abstractProof
  · have nonzero : p ≠ 0 := by lia -abstractProof
    have away : awayFromZero 2 false := .inl ⟨rfl, rfl⟩
    have toward : towardZero 1 false := by simp [towardZero, awayFromZero]
    have up := Fmt.le_place_iff_of_away (p := p) hu away
    have down := Fmt.place_le_iff (p := p) hu
    rw [Fmt.round_exact h hu nonzero, Fmt.round_exact h hu nonzero, Fmt.roundCode_toward toward, if_neg (show ¬toInf 1 false = true by decide)]
    refine ⟨fun fits d => ?_, ?_, fun d hd => ?_⟩
    · rw [if_neg (Nat.not_lt.mpr ((up _).mp fits)), up]
    · split_ifs <;> lia -abstractProof
    · rw [down]
      split_ifs <;> lia -abstractProof

/-- The least signed code whose value is not below t. -/
def Fmt.leastCode (f : Fmt) (u t : Int) : Int :=
  if 0 ≤ t then ((f.round 2 false { n := t.toNat, e := u }).1 : Int) else -((f.round 1 false { n := (-t).toNat, e := u }).1 : Int)
/-- The largest code whose value is not above t. -/
def Fmt.mostCode (f : Fmt) (u t : Int) : Int := min ((f.round 1 false { n := t.toNat, e := u }).1 : Int) f.maxCode

theorem Fmt.leastCode_le_iff {f : Fmt} (h : f.Sound) {u : Int} (hu : u ≤ f.qmin) {t : Int} (fits : t ≤ f.top u) {z : Int}
    (hz : -(f.maxCode : Int) ≤ z) : f.leastCode u t ≤ z ↔ t ≤ f.signedPlace u z := by
  have pos : z < 0 → 0 < f.place u z.natAbs := fun hneg => by
    have := f.place_strictMono u (show 0 < z.natAbs by lia -abstractProof)
    lia -abstractProof
  unfold Fmt.leastCode Fmt.signedPlace
  split_ifs with sign neg neg
  · lia -abstractProof
  · obtain ⟨up, -, -⟩ := Fmt.round_count h (p := t.toNat) hu
    have up := up (by lia -abstractProof) z.natAbs
    lia -abstractProof
  · obtain ⟨-, -, down⟩ := Fmt.round_count h (p := (-t).toNat) hu
    have down := down z.natAbs (by lia -abstractProof)
    lia -abstractProof
  · lia -abstractProof

theorem Fmt.neg_le_leastCode {f : Fmt} (h : f.Sound) {u : Int} (hu : u ≤ f.qmin) (t : Int) :
    -(f.maxCode : Int) ≤ f.leastCode u t ∧ (0 ≤ t → 0 ≤ f.leastCode u t) := by
  obtain ⟨-, finite, -⟩ := Fmt.round_count h (p := (-t).toNat) hu
  unfold Fmt.leastCode
  split_ifs <;> lia -abstractProof

theorem Fmt.le_mostCode_iff {f : Fmt} (h : f.Sound) {u : Int} (hu : u ≤ f.qmin) {t : Int} (nonneg : 0 ≤ t) {z : Int} (hz : z ≤ f.maxCode) :
    z ≤ f.mostCode u t ↔ f.signedPlace u z ≤ t := by
  obtain ⟨-, -, down⟩ := Fmt.round_count h (p := t.toNat) hu
  unfold Fmt.mostCode Fmt.signedPlace
  split_ifs with neg
  · lia -abstractProof
  · have down := down z.natAbs (by lia -abstractProof)
    lia -abstractProof

/-- A count rounds the same in a finer unit. -/
theorem Fmt.round_finer (f : Fmt) (mode : Nat) (neg : Bool) (n : Nat) {e u : Int} (hu : u ≤ e) :
    f.round mode neg { n := n, e := e } = f.round mode neg { n := n * 2 ^ (e - u).toNat, e := u } := by
  rcases Nat.eq_zero_or_pos n with rfl | pos
  · rw [Nat.zero_mul]
    rfl
  · have has : Mag.Has { n := n, e := e } (n * 2 ^ (e - u).toNat) u := ⟨hu, rfl⟩
    exact has.round_eq (by simp; lia -abstractProof) (.inl rfl) mode neg

theorem toNat_mul_natCast (t : Int) (k : Nat) : (t * k).toNat = t.toNat * k := by
  rcases Int.le_total 0 t with nonneg | neg
  · obtain ⟨n, rfl⟩ := Int.eq_ofNat_of_zero_le nonneg
    rw [← Nat.cast_mul]
    rfl
  · rw [Int.toNat_of_nonpos neg, Int.toNat_of_nonpos (Int.mul_nonpos_of_nonpos_of_nonneg neg (by lia -abstractProof)), Nat.zero_mul]

theorem Fmt.leastCode_finer (f : Fmt) (t : Int) {e u : Int} (hu : u ≤ e) : f.leastCode e t = f.leastCode u (t * (2 ^ (e - u).toNat : Nat)) := by
  have sign : 0 ≤ t * (2 ^ (e - u).toNat : Nat) ↔ 0 ≤ t := mul_nonneg_iff_of_pos_right (Int.natCast_pos.mpr (Nat.two_pow_pos _))
  unfold Fmt.leastCode
  rw [if_congr sign rfl rfl, toNat_mul_natCast, ← Int.neg_mul, toNat_mul_natCast, ← f.round_finer _ _ _ hu, ← f.round_finer _ _ _ hu]

theorem Fmt.mostCode_finer (f : Fmt) (t : Int) {e u : Int} (hu : u ≤ e) : f.mostCode e t = f.mostCode u (t * (2 ^ (e - u).toNat : Nat)) := by
  unfold Fmt.mostCode
  rw [toNat_mul_natCast, ← f.round_finer _ _ _ hu]

/-- Between bounds that lie within one step of each other there is a code within a step of both. -/
theorem Fmt.exists_within {f : Fmt} (h : f.Sound) {u : Int} (hu : u ≤ f.qmin) {A B K : Nat} (step : f.gap A u ≤ K) (close : B ≤ A + f.gap A u)
    (fits : B ≤ f.top u + K) : f.leastCode u ((B : Int) - K) ≤ f.mostCode u ((A : Int) + K) := by
  have least := fun z => Fmt.leastCode_le_iff h hu (t := (B : Int) - K) (by lia -abstractProof) (z := z)
  have most := fun z => Fmt.le_mostCode_iff h hu (t := (A : Int) + K) (by lia -abstractProof) (z := z)
  have mono := f.place_strictMono u
  by_cases top : f.maxCode ≤ f.floorCode A u
  · have reached : f.top u ≤ A := (Fmt.place_le_iff hu f.maxCode).mpr top
    have place : f.signedPlace u f.maxCode = f.top u := by
      unfold Fmt.signedPlace
      rw [if_neg (by lia -abstractProof)]
      rfl
    exact Int.le_trans ((least f.maxCode (by lia -abstractProof)).mpr (by lia -abstractProof))
      ((most f.maxCode (by lia -abstractProof)).mpr (by lia -abstractProof))
  · have next := Fmt.place_floorCode_succ (f := f) (p := A) hu
    have floor := Fmt.mod_gap (f := f) (p := A) hu
    have small := Nat.mod_lt A (Fmt.gap_pos (f := f) (p := A) (u := u))
    have place : f.signedPlace u (f.floorCode A u + 1 : Nat) = f.place u (f.floorCode A u + 1) := by
      unfold Fmt.signedPlace
      rw [if_neg (by lia -abstractProof)]
      rfl
    exact Int.le_trans ((least (f.floorCode A u + 1 : Nat) (by lia -abstractProof)).mpr (by lia -abstractProof))
      ((most (f.floorCode A u + 1 : Nat) (by lia -abstractProof)).mpr (by lia -abstractProof))

/-- A free choice of an integer from a to b. -/
def sfuChoice (fn v : Nat) (a b : Int) : Int := a + (((Config.sfu fn (w64 v)).toNat % (b - a + 1).toNat : Nat) : Int)

theorem sfuChoice_between (fn v : Nat) {a b : Int} (h : a ≤ b) : a ≤ sfuChoice fn v a b ∧ sfuChoice fn v a b ≤ b := by
  have := Nat.mod_lt (Config.sfu fn (w64 v)).toNat (show 0 < (b - a + 1).toNat by lia -abstractProof)
  unfold sfuChoice
  lia -abstractProof

/-- The code within k ulp, in the codes at the ends. -/
theorem Fmt.within_fst (f : Fmt) (k fn v : Nat) (neg : Bool) (lo hi : Nat) (e : Int) :
    let q := if lo = 0 then f.qmin else max ((Nat.log2 lo : Int) + e - f.F) f.qmin
    let least := ((hi * 2 ^ (e - min e q).toNat : Nat) : Int) - (k * 2 ^ (q - min e q).toNat : Nat)
    let most := ((lo * 2 ^ (e - min e q).toNat : Nat) : Int) + (k * 2 ^ (q - min e q).toNat : Nat)
    let z := sfuChoice fn v (f.leastCode (min e q) least) (f.mostCode (min e q) most)
    (f.within k fn v neg lo hi e).1 = f.sign (neg != decide (z < 0)) z.natAbs := rfl

/-- The value that a bounded function takes lies within k ulp of both ends of the enclosure; it is negative only where the upper end
allows that. -/
theorem Fmt.within_spec {f : Fmt} (h : f.Sound) {k : Nat} (fn v : Nat) (neg : Bool) {lo hi : Nat} {e u : Int} (hk : 0 < k) (he : u ≤ e)
    (hu : u ≤ f.qmin) :
    let q := if lo = 0 then f.qmin else max ((Nat.log2 lo : Int) + e - f.F) f.qmin
    let ulp := 2 ^ (q - u).toNat
    let A := lo * 2 ^ (e - u).toNat
    let B := hi * 2 ^ (e - u).toNat
    B ≤ A + ulp → B ≤ f.top u + k * ulp →
    ∃ z : Int, z.natAbs ≤ f.maxCode ∧ (f.within k fn v neg lo hi e).1 = f.sign (neg != decide (z < 0)) z.natAbs
      ∧ (B : Int) - (k * ulp : Nat) ≤ f.signedPlace u z ∧ f.signedPlace u z ≤ A + (k * ulp : Nat)
      ∧ (k * ulp ≤ B → 0 ≤ z) := by
  intro q ulp A B close fits
  have gap : f.gap A u = ulp := by
    have quantum : f.quantum A u = q := by
      unfold Fmt.quantum
      rcases Nat.eq_zero_or_pos lo with rfl | pos
      · rw [show A = 0 from Nat.zero_mul _, show q = f.qmin from if_pos rfl, Nat.log2_zero]
        lia -abstractProof
      · rw [show q = _ from if_neg (by lia -abstractProof), log2_mul_two_pow (by lia -abstractProof)]
        lia -abstractProof
    unfold Fmt.gap
    rw [quantum]
  have finest : u ≤ min e q := by
    have : f.qmin ≤ q := by
      show f.qmin ≤ ite _ _ _
      split_ifs <;> lia -abstractProof
    lia -abstractProof
  have scale : ∀ {g : Int}, min e q ≤ g → ∀ n : Nat,
      ((n * 2 ^ (g - min e q).toNat : Nat) : Int) * (2 ^ (min e q - u).toNat : Nat) = (n * 2 ^ (g - u).toNat : Nat) := by
    intro g hg n
    rw [← Nat.cast_mul, Nat.mul_assoc, ← Nat.pow_add]
    congr 3
    lia -abstractProof
  have least : f.leastCode (min e q) (((hi * 2 ^ (e - min e q).toNat : Nat) : Int) - (k * 2 ^ (q - min e q).toNat : Nat))
      = f.leastCode u ((B : Int) - (k * ulp : Nat)) := by
    rw [f.leastCode_finer _ finest, Int.sub_mul, scale (by lia -abstractProof), scale (by lia -abstractProof)]
  have most : f.mostCode (min e q) (((lo * 2 ^ (e - min e q).toNat : Nat) : Int) + (k * 2 ^ (q - min e q).toNat : Nat))
      = f.mostCode u ((A : Int) + (k * ulp : Nat)) := by
    rw [f.mostCode_finer _ finest, Int.add_mul, scale (by lia -abstractProof), scale (by lia -abstractProof)]
  have some_ := Fmt.exists_within h hu (A := A) (B := B) (K := k * ulp) (by rw [gap]; exact Nat.le_mul_of_pos_left _ hk) (by rwa [gap]) fits
  obtain ⟨low, nonneg⟩ := Fmt.neg_le_leastCode h hu ((B : Int) - (k * ulp : Nat))
  have high : f.mostCode u ((A : Int) + (k * ulp : Nat)) ≤ f.maxCode := Int.min_le_right ..
  have code := f.within_fst k fn v neg lo hi e
  dsimp only at code
  rw [show (if lo = 0 then f.qmin else max ((Nat.log2 lo : Int) + e - f.F) f.qmin) = q from rfl, least, most] at code
  obtain ⟨above, below⟩ := sfuChoice_between fn v some_
  generalize sfuChoice fn v _ _ = z at *
  refine ⟨z, by lia -abstractProof, code, ?_, ?_, fun hB => by lia -abstractProof⟩
  · rwa [← Fmt.leastCode_le_iff h hu (by lia -abstractProof) (by lia -abstractProof)]
  · rwa [← Fmt.le_mostCode_iff h hu (by lia -abstractProof) (by lia -abstractProof)]

end Sys2Proof.Machine
end

section
/-! PROOFS. Settling FloatRounding (R60 to R64, R73): the reciprocal square root and the assembly. -/

namespace Sys2Proof.Machine

open Sys2Proof

/-! ### The numbers that codes read as -/

/-- A code that reads as a number reads as the significand and the binade of a finite code. -/
theorem Fmt.read_num {f : Fmt} (hf : f ∈ formats) {v m : Nat} {n : Bool} {e : Int} (h : f.read v = .num n m e) :
    ∃ c ≤ f.maxCode, m = f.sig c ∧ e = f.qmin + (f.binade c : Nat) := by
  have check : ∀ f ∈ formats, f.nanFrom = f.maxCode + 1 ∨ f.nanFrom = f.maxCode + 2 ∧ f.inf = some (f.maxCode + 1) := by decide +kernel
  have last := check f hf
  unfold Fmt.read at h
  dsimp only at h
  generalize v % 2 ^ (f.w - 1) = c at h
  have finite : ¬ c ≥ f.nanFrom → ¬ f.inf = some c → c ≤ f.maxCode := by
    intro nan inf
    by_contra above
    rcases last with last | ⟨last, infinite⟩
    · lia -abstractProof
    · exact inf (by rw [infinite]; congr 1; lia -abstractProof)
  split_ifs at h with nan inf low
  · cases h
    refine ⟨_, finite nan inf, ?_, ?_⟩
    · unfold Fmt.sig
      rw [if_pos low]
    · unfold Fmt.binade
      rw [low]
      simp
  · cases h
    refine ⟨_, finite nan inf, ?_, rfl⟩
    unfold Fmt.sig
    rw [if_neg low]

/-! ### The reciprocal square root -/

/-- A power of two among the values of codes. -/
theorem Fmt.place_two_pow (f : Fmt) (u : Int) (j : Nat) : f.place u (j * 2 ^ f.F + 2 ^ f.F) = 2 ^ (f.F + j) * 2 ^ (f.qmin - u).toNat := by
  unfold Fmt.place
  rw [f.val_mul_add (Nat.pow_le_pow_right (by lia -abstractProof) (by lia -abstractProof)) fun _ => Nat.le_refl _, ← Nat.pow_add]

/-- The reciprocal square root of an FP32 or FP64 number is a normal number of its format, well below the largest. -/
theorem Mag.rroot_range {f : Fmt} (hf : f = F32 ∨ f = F64) {v m : Nat} {n : Bool} {e : Int} (read : f.read v = .num n m e) (hm : m ≠ 0) :
    let E : Int := (Nat.log2 (Mag.rroot m e).n : Int) + (Mag.rroot m e).e
    2 ^ (f.F + 1) ≤ (Mag.rroot m e).n ∧ f.qmin ≤ E ∧ ∀ u, u ≤ f.qmin → 2 ^ (E + 1 - u).toNat ≤ f.top u := by
  intro E
  obtain ⟨bits, low, high⟩ := Mag.rroot_log2 hm e
  obtain ⟨c, hc, rfl, rfl⟩ := Fmt.read_num (by rcases hf with rfl | rfl <;> decide) read
  have sig : Nat.log2 (f.sig c) < f.F + 1 := (Nat.log2_lt hm).mpr (f.sig_lt c)
  have nonzero : (Mag.rroot (f.sig c) (f.qmin + (f.binade c : Nat))).n ≠ 0 := by
    intro zero
    rw [zero, Nat.log2_zero] at bits
    lia -abstractProof
  have top : ∀ j : Nat, j * 2 ^ f.F + 2 ^ f.F ≤ f.maxCode → E + 1 ≤ f.F + j + f.qmin →
      ∀ u, u ≤ f.qmin → 2 ^ (E + 1 - u).toNat ≤ f.top u := by
    intro j code reach u hu
    refine Nat.le_trans ?_ ((f.place_strictMono u).monotone code)
    rw [f.place_two_pow, ← Nat.pow_add]
    exact Nat.pow_le_pow_right (by lia -abstractProof) (by lia -abstractProof)
  have binade : f.binade c ≤ f.binade f.maxCode := Nat.sub_le_sub_right (Nat.div_le_div_right hc) 1
  rcases hf with rfl | rfl
  · have b : F32.binade F32.maxCode = 253 := by decide +kernel
    have F : F32.F = 23 := rfl
    have q : F32.qmin = -149 := rfl
    refine ⟨?_, by lia -abstractProof, top 201 (by decide +kernel) (by lia -abstractProof)⟩
    exact (Nat.le_log2 nonzero).mp (by lia -abstractProof)
  · have b : F64.binade F64.maxCode = 2045 := by decide +kernel
    have F : F64.F = 52 := rfl
    have q : F64.qmin = -1074 := rfl
    refine ⟨?_, by lia -abstractProof, top 1560 (by decide +kernel) (by lia -abstractProof)⟩
    exact (Nat.le_log2 nonzero).mp (by lia -abstractProof)

theorem sfRsqrt_num {f : Fmt} {v m : Nat} {e : Int} (read : f.read v = .num false m e) (hm : m ≠ 0) :
    sfRsqrt f v = (let x := Mag.rroot m e
      let near := f.round 1 false x
      let r := (f.within 1 6 v false x.n (if x.more then x.n + 1 else x.n) x.e).1
      (r, if near.2 = 0 ∧ r = near.1 then 0 else fNX)) := by
  unfold sfRsqrt
  rw [read]
  dsimp only
  rw [if_neg hm, if_neg Bool.false_ne_true]

section
variable {f : Fmt} (hf : f = F32 ∨ f = F64) {v m : Nat} {e : Int} (read : f.read v = .num false m e) (hm : m ≠ 0)
include hf read hm

/-- The code that `rsqrt` gives is finite and within 1 ulp of every number that the root stands for. -/
theorem sfRsqrt_within {p : Nat} {u : Int} (has : (Mag.rroot m e).Has p u) (hu : u ≤ f.qmin) :
    (sfRsqrt f v).1 ≤ f.maxCode ∧ ((f.place u (sfRsqrt f v).1 : Int) - p).natAbs
      ≤ 2 ^ (max ((Nat.log2 (Mag.rroot m e).n : Int) + (Mag.rroot m e).e - f.F) f.qmin - u).toNat := by
  have sound : f.Sound := Fmt.sound (by rcases hf with rfl | rfl <;> decide)
  obtain ⟨sharp, normal, top⟩ := Mag.rroot_range hf read hm
  rw [sfRsqrt_num read hm]
  generalize Mag.rroot m e = x at *
  dsimp only
  have nonzero : x.n ≠ 0 := by
    have := Nat.two_pow_pos (f.F + 1)
    lia -abstractProof
  have unit := has.1
  obtain ⟨low, high⟩ := has.bounds
  have lead : 2 ^ ((Nat.log2 x.n : Int) + x.e - u).toNat ≤ x.n * 2 ^ (x.e - u).toNat := by
    rw [show ((Nat.log2 x.n : Int) + x.e - u).toNat = Nat.log2 x.n + (x.e - u).toNat by lia -abstractProof, Nat.pow_add]
    exact Nat.mul_le_mul_right _ (Nat.log2_self_le nonzero)
  have trail : (x.n + 1) * 2 ^ (x.e - u).toNat ≤ 2 ^ ((Nat.log2 x.n : Int) + x.e + 1 - u).toNat := by
    rw [show ((Nat.log2 x.n : Int) + x.e + 1 - u).toNat = Nat.log2 x.n + 1 + (x.e - u).toNat by lia -abstractProof, Nat.pow_add]
    exact Nat.mul_le_mul_right _ Nat.lt_log2_self
  have bits : f.F + 1 ≤ Nat.log2 x.n := (Nat.le_log2 nonzero).mpr sharp
  have fine_ : 2 ^ (x.e - u).toNat ≤ 2 ^ (max ((Nat.log2 x.n : Int) + x.e - f.F) f.qmin - u).toNat :=
    Nat.pow_le_pow_right (by lia -abstractProof) (by lia -abstractProof)
  have coarse : 2 ^ (max ((Nat.log2 x.n : Int) + x.e - f.F) f.qmin - u).toNat ≤ 2 ^ ((Nat.log2 x.n : Int) + x.e - u).toNat :=
    Nat.pow_le_pow_right (by lia -abstractProof) (by lia -abstractProof)
  have far := top u hu
  have next : (x.n + 1) * 2 ^ (x.e - u).toNat = x.n * 2 ^ (x.e - u).toNat + 2 ^ (x.e - u).toNat := Nat.succ_mul ..
  have upper : x.n * 2 ^ (x.e - u).toNat ≤ (if x.more then x.n + 1 else x.n) * 2 ^ (x.e - u).toNat
      ∧ (if x.more then x.n + 1 else x.n) * 2 ^ (x.e - u).toNat ≤ (x.n + 1) * 2 ^ (x.e - u).toNat
      ∧ p ≤ (if x.more then x.n + 1 else x.n) * 2 ^ (x.e - u).toNat := by
    have number := has.exact_of_eq
    cases more : x.more
    · have := number more
      refine ⟨by simp, Nat.mul_le_mul_right _ (by simp), by simp; lia -abstractProof⟩
    · refine ⟨Nat.mul_le_mul_right _ (by simp), by simp, by simp; lia -abstractProof⟩
  obtain ⟨z, finite, code, least, most, sign⟩ := Fmt.within_spec sound (k := 1) 6 v false (lo := x.n)
    (hi := if x.more then x.n + 1 else x.n) (e := x.e)
    (by lia -abstractProof) unit hu (by rw [if_neg nonzero]; lia -abstractProof) (by rw [if_neg nonzero, Nat.one_mul]; lia -abstractProof)
  rw [if_neg nonzero, Nat.one_mul] at least most sign
  have nonneg : 0 ≤ z := sign (by lia -abstractProof)
  have plain : (f.within 1 6 v false x.n (if x.more then x.n + 1 else x.n) x.e).1 = z.natAbs := by
    rw [code, decide_eq_false (Int.not_lt.mpr nonneg)]
    rfl
  unfold Fmt.signedPlace at least most
  rw [if_neg (Int.not_lt.mpr nonneg)] at least most
  rw [plain]
  exact ⟨finite, by lia -abstractProof⟩

/-- The root rounds toward zero to the largest code that every number that it stands for reaches, and exactly when that is the number. -/
theorem Mag.rroot_round {p : Nat} {u : Int} (has : (Mag.rroot m e).Has p u) (hu : u ≤ f.qmin) :
    let near := f.round 1 false (Mag.rroot m e)
    near.1 ≤ f.maxCode ∧ f.place u near.1 ≤ p ∧ (∀ d, d ≤ f.maxCode → f.place u d ≤ p → d ≤ near.1) ∧ (near.2 = 0 ↔ f.place u near.1 = p) := by
  have sound : f.Sound := Fmt.sound (by rcases hf with rfl | rfl <;> decide)
  obtain ⟨sharp, normal, top⟩ := Mag.rroot_range hf read hm
  have nonzero : (Mag.rroot m e).n ≠ 0 := by
    have := Nat.two_pow_pos (f.F + 1)
    lia -abstractProof
  have below : p < f.top u := by
    refine Nat.lt_of_lt_of_le has.bounds.2 (Nat.le_trans ?_ (top u hu))
    have unit := has.1
    rw [show ((Nat.log2 (Mag.rroot m e).n : Int) + (Mag.rroot m e).e + 1 - u).toNat
      = Nat.log2 (Mag.rroot m e).n + 1 + ((Mag.rroot m e).e - u).toNat by lia -abstractProof, Nat.pow_add]
    exact Nat.mul_le_mul_right _ Nat.lt_log2_self
  intro near
  have toward : towardZero 1 false := by simp [towardZero, awayFromZero]
  obtain ⟨finite, low, largest, flags⟩ := (Fmt.round_toward sound hu (has.pos nonzero) false toward).2 (by lia -abstractProof)
  rw [← has.round_eq nonzero (.inr sharp)] at finite low largest flags
  rw [Fmt.count_eq_place sound hu finite] at low
  refine ⟨finite, low, fun d hd => ?_, ?_⟩
  · rw [← Fmt.count_eq_place sound hu hd]
    exact largest d hd
  · rw [flags, ← Fmt.count_eq_place sound hu finite]
    unfold Fmt.flags
    split_ifs with same tiny
    · exact iff_of_true rfl same
    · exact iff_of_false (by decide) same
    · exact iff_of_false (by decide) same

/-- Its result is exact where the root is and the code is its own. -/
theorem sfRsqrt_flags {p : Nat} {u : Int} (has : (Mag.rroot m e).Has p u) (hu : u ≤ f.qmin) :
    (sfRsqrt f v).2 = if (Mag.rroot m e).more = false ∧ f.count u (sfRsqrt f v).1 = p then 0 else fNX := by
  have sound : f.Sound := Fmt.sound (by rcases hf with rfl | rfl <;> decide)
  obtain ⟨finite, -⟩ := sfRsqrt_within hf read hm has hu
  obtain ⟨fits, low, largest, exact_⟩ := Mag.rroot_round hf read hm has hu
  have mono := f.place_strictMono u
  rw [Fmt.count_eq_place sound hu finite]
  have same : (f.round 1 false (Mag.rroot m e)).2 = 0 ∧ (sfRsqrt f v).1 = (f.round 1 false (Mag.rroot m e)).1
      ↔ (Mag.rroot m e).more = false ∧ f.place u (sfRsqrt f v).1 = p := by
    constructor
    · rintro ⟨zero, code⟩
      rw [code]
      refine ⟨?_, exact_.mp zero⟩
      by_contra more
      have finer : ∀ r, r < 2 → (Mag.rroot m e).Has (4 * p + r) (u - 2) := by
        intro r hr
        obtain ⟨unit, number⟩ := has
        rw [if_pos (by simpa using more)] at number
        refine ⟨by lia -abstractProof, ?_⟩
        rw [if_pos (by simpa using more), show ((Mag.rroot m e).e - (u - 2)).toNat = ((Mag.rroot m e).e - u).toNat + 2 by lia -abstractProof, Nat.pow_add,
          ← Nat.mul_assoc, ← Nat.mul_assoc]
        lia -abstractProof
      have here := (Mag.rroot_round hf read hm (finer 0 (by lia -abstractProof)) (by lia -abstractProof)).2.2.2.mp zero
      have there := (Mag.rroot_round hf read hm (finer 1 (by lia -abstractProof)) (by lia -abstractProof)).2.2.2.mp zero
      lia -abstractProof
    · rintro ⟨-, number⟩
      have below := largest _ finite (Nat.le_of_eq number)
      have code : (sfRsqrt f v).1 = (f.round 1 false (Mag.rroot m e)).1 := by
        refine Nat.le_antisymm below ?_
        rw [← mono.le_iff_le, number]
        exact low
      exact ⟨exact_.mpr (code ▸ number), code⟩
  rw [← if_congr same rfl rfl]
  conv_lhs => rw [sfRsqrt_num read hm]
  conv_rhs => rw [sfRsqrt_num read hm]

end

/-! ### The assembly -/

/-- Every magnitude stands for a number, in a unit as fine as is asked. -/
theorem Mag.exists_has (x : Mag) (q : Int) : ∃ p u, x.Has p u ∧ u ≤ q := by
  have two : 2 ^ 1 ≤ 2 ^ (x.e - (min x.e q - 1)).toNat := Nat.pow_le_pow_right (by lia -abstractProof) (by lia -abstractProof)
  refine ⟨x.n * 2 ^ (x.e - (min x.e q - 1)).toNat + (if x.more then 1 else 0), min x.e q - 1, ⟨by lia -abstractProof, ?_⟩, by lia -abstractProof⟩
  cases more : x.more
  · rfl
  · rw [if_pos rfl, if_pos rfl, Nat.succ_mul]
    lia -abstractProof

/-- A sum of finite values is one rounding of their exact sum. -/
theorem Fmt.addVals_num (f : Fmt) (mode : Nat) (a b : Bool) (m n : Nat) (e g : Int) :
    f.addVals mode (.num a m e) (.num b n g) = f.packInt mode (scaled a m e (min e g) + scaled b n g (min e g))
      (min e g) (if a = b then a else mode == 3) := rfl

theorem scaled_eq (neg : Bool) (m : Nat) (e q : Int) : scaled neg m e q = (if neg then -1 else 1) * (m * 2 ^ (e - q).toNat : Nat) := by
  unfold scaled
  cases neg
  · exact (Int.one_mul _).symm
  · exact (Int.neg_one_mul _).symm

section
variable {f : Fmt} {v m : Nat} {n : Bool} {e : Int} (read : f.read v = .num n m e) (hm : m ≠ 0)
include read hm

theorem sfRcp_num (mode : Nat) : sfRcp f mode v = f.pack mode n (Mag.recip m e) := by
  unfold sfRcp
  rw [read]
  exact if_neg hm

theorem sfSqrt_num (mode : Nat) (plus : n = false) : sfSqrt f mode v = f.pack mode false (Mag.root m e) := by
  unfold sfSqrt
  rw [read, plus]
  exact if_neg hm

end

theorem Fmt.inexactFlags_getLsbD (f : Fmt) (v : Nat) : (f.inexactFlags v).getLsbD 0 = true := by
  unfold Fmt.inexactFlags
  split_ifs <;> rfl

/-- Settles O15: rounding is exact on integers, to which sums, products and roots are brought. -/
theorem floatRounding : Obligations.FloatRounding := by
  unfold Obligations.FloatRounding
  intro f hf
  have sound : f.Sound := Fmt.sound hf
  refine ⟨fun neg x p u nonzero sharp has hu => ?_, fun neg c hc => ⟨_, _, Fmt.read_sign sound false hc, Fmt.read_sign sound neg hc⟩,
    fun mode a m e b n g => ?_, fun mode v a m e read hm => ?_, fun k fn v neg lo hi e u hk hle he hu => ?_⟩
  · have positive := has.pos nonzero
    have pos := Nat.two_pow_pos f.F
    obtain ⟨normal, -⟩ := sound.normal
    rw [Fmt.count_eq_place sound hu (Nat.le_refl _), Fmt.count_eq_place sound hu (Nat.sub_le ..), Fmt.count_eq_place sound hu normal,
      Fmt.count_eq_place sound hu (show 1 ≤ f.maxCode by lia -abstractProof)]
    refine ⟨fun mode nearest => ?_, fun mode directed => ?_⟩
    · rw [has.round_eq nonzero sharp]
      exact Fmt.round_nearest sound hu positive neg nearest
    · rw [has.round_eq nonzero sharp]
      refine ⟨fun away => Fmt.round_away sound hu positive neg away,
        fun toward => Fmt.round_toward sound hu positive neg ⟨by lia -abstractProof, by lia -abstractProof, toward⟩⟩
  · intro q z
    refine ⟨?_, ?_, fun z => rfl⟩
    · rw [Fmt.addVals_num, scaled_eq, scaled_eq]
      rfl
    · rfl
  · have big : 2 ^ (f.F + 1) ≤ 2 ^ 53 := Nat.pow_le_pow_right (by lia -abstractProof) (by have := sound.frac; lia -abstractProof)
    refine ⟨?_, fun plus => ⟨?_, ?_⟩⟩
    · obtain ⟨bits, rest⟩ := Mag.recip_spec hm e
      exact ⟨sfRcp_num read hm mode, Nat.le_trans big bits, rest⟩
    · obtain ⟨bits, rest⟩ := Mag.root_spec hm e
      exact ⟨sfSqrt_num read hm mode plus, Nat.le_trans big bits, rest⟩
    · obtain ⟨unit, low, high, exact_⟩ := Mag.rroot_spec hm e
      rw [plus] at read
      refine ⟨unit, low, high, exact_, fun wide => ⟨_, ?_, rfl, fun p u has hu => ⟨?_, sfRsqrt_flags wide read hm has hu⟩⟩⟩
      · obtain ⟨p, u, has, hu⟩ := (Mag.rroot m e).exists_has f.qmin
        exact (sfRsqrt_within wide read hm has hu).1
      · obtain ⟨finite, near⟩ := sfRsqrt_within wide read hm has hu
        rw [Fmt.count_eq_place sound hu finite]
        exact near
  · intro q ulp A B r close fits
    rw [Fmt.count_eq_place sound hu (Nat.le_refl _)] at fits
    obtain ⟨z, finite, code, least, most, -⟩ := Fmt.within_spec sound fn v neg hk he hu close fits
    refine ⟨z.natAbs, decide (z < 0), finite, code, f.inexactFlags_getLsbD _, ?_⟩
    rw [Fmt.count_eq_place sound hu finite]
    unfold Fmt.signedPlace at least most
    rw [if_congr (decide_eq_true_iff) rfl rfl]
    exact ⟨sub_le_iff_le_add.mp least, most⟩

end Sys2Proof.Machine
end

section
/-! PROOFS. Products, tile entries and the down-converter (R84, R145, R146, R148). -/

namespace Sys2Proof.Machine

open Sys2Proof

/-! ### Rounding to an anchor (R84) -/

/-- An exact magnitude in a finer unit. -/
theorem Mag.has_finer (m : Nat) {e u : Int} (he : u ≤ e) : Mag.Has { n := m, e := e } (m * 2 ^ (e - u).toNat) u := ⟨he, rfl⟩

/-- A finite value rounds to the nearest multiple of 2^a, of two to the even one. -/
theorem roundToAnchor_num (neg : Bool) (m : Nat) {e a u : Int} (ha : u ≤ a) (he : u ≤ e) :
    let r := roundTo 0 neg (m * 2 ^ (e - u).toNat) (2 ^ (a - u).toNat)
    roundToAnchor (.num neg m e) a = (if neg then -(r.1 : Int) else r.1, r.2) := by
  unfold roundToAnchor
  dsimp only
  rw [(Mag.has_finer m he).cut_eq (fun more => Bool.noConfusion more), Mag.cut_exact _ ha]

theorem roundToAnchor_nearest (neg : Bool) (m : Nat) {e a u : Int} (ha : u ≤ a) (he : u ≤ e) :
    let r := roundToAnchor (.num neg m e) a
    let P : Int := (if neg then -1 else 1) * (m * 2 ^ (e - u).toNat : Nat)
    let A : Nat := 2 ^ (a - u).toNat
    2 * (r.1 * A - P).natAbs ≤ A ∧ (2 * (r.1 * A - P).natAbs = A → r.1 % 2 = 0) ∧ (r.2 = true ↔ r.1 * A ≠ P) := by
  intro r P A
  obtain ⟨near, inexact⟩ := rounded_roundTo 0 neg (m * 2 ^ (e - u).toNat) (Nat.two_pow_pos (a - u).toNat)
  rw [show r = _ from roundToAnchor_num neg m ha he]
  rw [rounded_even, ← two_mul_natAbs_le_iff, ← two_mul_natAbs_eq_iff] at near
  change 2 * (_ * (A : Int) - _).natAbs ≤ A ∧ (2 * (_ * (A : Int) - _).natAbs = A → _) at near
  change _ ↔ _ * A ≠ _ at inexact
  rw [← Nat.cast_mul] at near
  rw [inexact]
  generalize (roundTo 0 neg (m * 2 ^ (e - u).toNat) (2 ^ (a - u).toNat)).1 = c at *
  generalize hp : m * 2 ^ (e - u).toNat = p at *
  have hA : (c : Int) * (A : Int) = (c * A : Nat) := (Nat.cast_mul ..).symm
  cases neg
  · rw [show P = p by simp [P, ← hp]]
    dsimp only
    rw [if_neg Bool.false_ne_true, hA]
    lia -abstractProof
  · rw [show P = -(p : Int) by simp [P, ← hp]]
    dsimp only
    rw [if_pos rfl, Int.neg_mul, hA]
    lia -abstractProof

/-- A whole number rounds exactly to an anchor of at most 0. -/
theorem roundToAnchor_whole (neg : Bool) (m : Nat) {a : Int} (ha : a ≤ 0) :
    roundToAnchor (.num neg m 0) a = ((if neg then -1 else 1) * (m : Int) * (2 ^ (-a).toNat : Nat), false) := by
  unfold roundToAnchor Mag.cut
  dsimp only
  rw [if_pos (show a - 0 ≤ 0 by lia -abstractProof), Int.sub_zero]
  cases neg <;> simp

/-! ### Products (R145, R230) -/

/-- An integer element reads as its number. -/
theorem decodeElem_int {fmt v : Nat} {z : Int} (h : intElem fmt v = some z) : decodeElem fmt v = .real (.num (decide (z < 0)) z.natAbs 0) := by
  have codes : fmt = 4 ∨ fmt = 8 ∨ fmt = 9 ∨ fmt = 16 ∨ fmt = 15 ∨ fmt = 18 ∨ fmt = 19 := by
    by_contra other
    simp only [not_or] at other
    simp [intElem, other] at h
  rcases codes with rfl | rfl | rfl | rfl | rfl | rfl | rfl <;> cases h <;> rfl

/-- The product of two integers. -/
theorem exactProduct_int (a w : Int) :
    exactProduct (.real (.ofInt a)) (.real (.ofInt w)) none none = .num (decide (a < 0) != decide (w < 0)) (a.natAbs * w.natAbs) 0 := by
  simp [exactProduct, Elem.times, FVal.times, FVal.ofInt, FVal.mul, FVal.isNan]

theorem signed_natAbs_mul (a w : Int) : (if (decide (a < 0) != decide (w < 0)) = true then -1 else 1) * ((a.natAbs * w.natAbs : Nat) : Int) = a * w := by
  by_cases ha : a < 0 <;> by_cases hw : w < 0
  · simp [ha, hw, abs_of_neg]
  · simp [ha, hw, abs_of_neg, abs_of_nonneg (Int.not_lt.mp hw)]
  · simp [ha, hw, abs_of_neg, abs_of_nonneg (Int.not_lt.mp ha)]
  · simp [ha, hw, abs_of_nonneg (Int.not_lt.mp ha), abs_of_nonneg (Int.not_lt.mp hw)]

/-! ### Entering a row in a tile (R146) -/

/-- What entering a product list does to an entry: its new value, and the flags it raises. -/
structure Entered where
  value : BitVec 96
  nan : Bool
  inexact : Bool
  sat : Bool

/-- The products p make an entry a NaN. -/
def nanProducts (ps : List FVal) : Bool := ps.any FVal.isNan || (ps.contains (.inf false) && ps.contains (.inf true))

/-- An entry's old value and the finite products, each rounded to the anchor. -/
def anchoredSum (x : BitVec 96) (a : Int) (ps : List FVal) : Int := x.toInt + (ps.map fun p => (roundToAnchor p a).1).sum

/-- Entering products in an entry x under an anchor a. -/
def enterEntry (x : BitVec 96) (a : Int) (ps : List FVal) : Entered :=
  if nanProducts ps then ⟨nanPattern, true, false, false⟩
  else if x = nanPattern then ⟨nanPattern, false, false, false⟩
  else if ps.contains (.inf false) || ps.contains (.inf true) then
    ⟨BitVec.ofInt 96 (if ps.contains (.inf true) then -(2 ^ 95 - 1) else 2 ^ 95 - 1), false, false, true⟩
  else ⟨BitVec.ofInt 96 (clampAF 96 (anchoredSum x a ps)), false, ps.any fun p => (roundToAnchor p a).2
    , clampAF 96 (anchoredSum x a ps) != anchoredSum x a ps⟩

section
variable (t : Tile) (i n : Nat) (ps : List FVal)

theorem Tile.enter_eq : t.enter i n ps =
    let E := enterEntry (t.entry i n) t.exponent ps
    if nanProducts ps = false ∧ t.entry i n = nanPattern then t
    else { t with e := FMap.set 0 t.e (64 * i + n) E.value, nan := t.nan || E.nan, inexact := t.inexact || E.inexact, sat := t.sat || E.sat } := by
  unfold Tile.enter enterEntry anchoredSum
  simp only [List.map_map, List.any_map, Function.comp_def]
  rw [show (ps.any FVal.isNan || (ps.contains (.inf false) && ps.contains (.inf true))) = nanProducts ps from rfl]
  cases nanProducts ps
  · by_cases x : t.entry i n = nanPattern
    · simp [x]
    · cases ps.contains (.inf false) || ps.contains (.inf true) <;> simp [x]
  · simp

theorem Tile.enter_kept : (t.enter i n ps).anchor = t.anchor ∧ (t.enter i n ps).allocated = t.allocated := by
  rw [Tile.enter_eq]
  dsimp only
  split_ifs <;> exact ⟨rfl, rfl⟩

theorem Tile.enter_entry (j k : Nat) :
    (t.enter i n ps).entry j k = if 64 * j + k = 64 * i + n then (enterEntry (t.entry i n) t.exponent ps).value else t.entry j k := by
  have stays : nanProducts ps = false → t.entry i n = nanPattern → (enterEntry (t.entry i n) t.exponent ps).value = nanPattern := by
    intro ok x
    unfold enterEntry
    rw [ok, if_neg Bool.false_ne_true, if_pos x]
  rw [Tile.enter_eq]
  dsimp only
  split_ifs with same here here
  · rw [stays same.1 same.2, ← same.2]
    exact congrArg (FMap.get 0 t.e) here
  · rfl
  · exact (FMap.get_set ..).trans (if_pos here)
  · exact (FMap.get_set ..).trans (if_neg here)

theorem Tile.enter_flags :
    let E := enterEntry (t.entry i n) t.exponent ps
    (t.enter i n ps).nan = (t.nan || E.nan) ∧ (t.enter i n ps).inexact = (t.inexact || E.inexact) ∧ (t.enter i n ps).sat = (t.sat || E.sat) := by
  rw [Tile.enter_eq]
  dsimp only
  split_ifs with same
  · unfold enterEntry
    rw [same.1, if_neg Bool.false_ne_true, if_pos same.2]
    simp
  · exact ⟨rfl, rfl, rfl⟩

end

/-! ### A row in all columns -/

section
variable (i : Nat) (ps : Nat → List FVal)

/-- Entering products in some columns of a row changes those alone, and raises what each of them raises. -/
theorem Tile.enter_columns (ns : List Nat) : ∀ t : Tile, ns.Nodup → (∀ n ∈ ns, n < 64) →
    let u := ns.foldl (fun t n => t.enter i n (ps n)) t
    u.anchor = t.anchor ∧ u.allocated = t.allocated
    ∧ (∀ j k, k < 64 → u.entry j k = if j = i ∧ k ∈ ns then (enterEntry (t.entry i k) t.exponent (ps k)).value else t.entry j k)
    ∧ (u.nan = true ↔ t.nan = true ∨ ∃ n ∈ ns, (enterEntry (t.entry i n) t.exponent (ps n)).nan = true)
    ∧ (u.inexact = true ↔ t.inexact = true ∨ ∃ n ∈ ns, (enterEntry (t.entry i n) t.exponent (ps n)).inexact = true)
    ∧ (u.sat = true ↔ t.sat = true ∨ ∃ n ∈ ns, (enterEntry (t.entry i n) t.exponent (ps n)).sat = true) := by
  induction ns with
  | nil => intro t _ _; simp
  | cons n ns ih =>
    intro t distinct columns
    obtain ⟨new, distinct⟩ := List.nodup_cons.mp distinct
    obtain ⟨hn, columns⟩ := List.forall_mem_cons.mp columns
    obtain ⟨anchor, allocated⟩ := t.enter_kept i n (ps n)
    obtain ⟨nan, inexact, sat⟩ := t.enter_flags i n (ps n)
    have exponent : (t.enter i n (ps n)).exponent = t.exponent := congrArg BitVec.toInt anchor
    have other : ∀ k ∈ ns, (t.enter i n (ps n)).entry i k = t.entry i k := by
      intro k hk
      have : k ≠ n := fun e => new (e ▸ hk)
      rw [t.enter_entry, if_neg (by lia -abstractProof)]
    have others : ∀ P : Entered → Prop, (∃ k ∈ ns, P (enterEntry ((t.enter i n (ps n)).entry i k) (t.enter i n (ps n)).exponent (ps k)))
        ↔ ∃ k ∈ ns, P (enterEntry (t.entry i k) t.exponent (ps k)) := by
      intro P
      refine exists_congr fun k => and_congr_right fun hk => ?_
      rw [other k hk, exponent]
    obtain ⟨anchor', allocated', entry', nan', inexact', sat'⟩ := ih (t.enter i n (ps n)) distinct columns
    rw [List.foldl_cons]
    refine ⟨anchor'.trans anchor, allocated'.trans allocated, fun j k hk => ?_, ?_, ?_, ?_⟩
    · rw [entry' j k hk, t.enter_entry i n (ps n) j k]
      by_cases row : j = i
      · subst row
        by_cases here : k = n
        · subst here
          rw [if_neg (fun h => new h.2), if_pos rfl, if_pos ⟨rfl, List.mem_cons_self⟩]
        · by_cases hk' : k ∈ ns
          · rw [if_pos ⟨rfl, hk'⟩, if_pos ⟨rfl, List.mem_cons_of_mem n hk'⟩, other k hk', exponent]
          · rw [if_neg (fun h => hk' h.2), if_neg (by lia -abstractProof), if_neg (by simp [here, hk'])]
      · rw [if_neg (fun h => row h.1), if_neg (by lia -abstractProof), if_neg (fun h => row h.1)]
    · rw [nan', others (fun E => E.nan = true), nan, List.exists_mem_cons_iff, Bool.or_eq_true, or_assoc]
    · rw [inexact', others (fun E => E.inexact = true), inexact, List.exists_mem_cons_iff, Bool.or_eq_true, or_assoc]
    · rw [sat', others (fun E => E.sat = true), sat, List.exists_mem_cons_iff, Bool.or_eq_true, or_assoc]

end

/-- A row entered in a tile changes the entries of its row alone, each by its own products (R145, R146). -/
theorem Tile.enterRow_spec (t : Tile) (B : Bank) (i : Nat) (row : List (Elem × Option FVal)) :
    let u := t.enterRow B i row
    let E := fun n => enterEntry (t.entry i n) t.exponent (B.products row n)
    u.anchor = t.anchor ∧ u.allocated = t.allocated ∧ (∀ j n, n < 64 → u.entry j n = if j = i then (E n).value else t.entry j n)
    ∧ ∀ n, n < 64 → ((E n).nan = true → u.nan = true) ∧ ((E n).inexact = true → u.inexact = true) ∧ ((E n).sat = true → u.sat = true) := by
  intro u E
  obtain ⟨anchor, allocated, entry, nan, inexact, sat⟩ := Tile.enter_columns i (B.products row) (List.range 64) t List.nodup_range
    fun n hn => List.mem_range.mp hn
  refine ⟨anchor, allocated, fun j n hn => ?_, fun n hn => ?_⟩
  · refine (entry j n hn).trans (if_congr ?_ rfl rfl)
    rw [List.mem_range, and_iff_left hn]
  · have column := List.mem_range.mpr hn
    exact ⟨fun h => nan.mpr (.inr ⟨n, column, h⟩), fun h => inexact.mpr (.inr ⟨n, column, h⟩), fun h => sat.mpr (.inr ⟨n, column, h⟩)⟩

theorem nanProducts_iff (ps : List FVal) : nanProducts ps = true ↔ (∃ p ∈ ps, p.isNan = true) ∨ FVal.inf false ∈ ps ∧ FVal.inf true ∈ ps := by
  unfold nanProducts
  rw [Bool.or_eq_true, List.any_eq_true, Bool.and_eq_true, List.contains_iff_mem, List.contains_iff_mem]

section
variable (x : BitVec 96) (a : Int) {ps : List FVal}

theorem enterEntry_nan (nan : nanProducts ps = true) : (enterEntry x a ps).value = nanPattern ∧ (enterEntry x a ps).nan = true := by
  unfold enterEntry
  rw [if_pos nan]
  exact ⟨rfl, rfl⟩

theorem enterEntry_pattern (ok : ¬ nanProducts ps = true) (pattern : x = nanPattern) : (enterEntry x a ps).value = nanPattern := by
  unfold enterEntry
  rw [if_neg ok, if_pos pattern]

theorem enterEntry_infinite (ok : ¬ nanProducts ps = true) (number : x ≠ nanPattern) {s : Bool} (infinite : FVal.inf s ∈ ps) :
    (enterEntry x a ps).value = BitVec.ofInt 96 ((if s then -1 else 1) * (2 ^ 95 - 1)) ∧ (enterEntry x a ps).sat = true := by
  rw [nanProducts_iff] at ok
  have signs : ps.contains (.inf false) = !s ∧ ps.contains (.inf true) = s := by
    cases s
    · simp only [List.contains_eq_mem, Bool.not_false, decide_eq_true_eq, decide_eq_false_iff_not]
      tauto
    · simp only [List.contains_eq_mem, Bool.not_true, decide_eq_true_eq, decide_eq_false_iff_not]
      tauto
  unfold enterEntry
  rw [← nanProducts_iff] at ok
  rw [if_neg ok, if_neg number, signs.1, signs.2]
  cases s <;> exact ⟨rfl, rfl⟩

theorem enterEntry_finite (ok : ¬ nanProducts ps = true) (number : x ≠ nanPattern) (finite : ∀ s, FVal.inf s ∉ ps) :
    enterEntry x a ps = ⟨BitVec.ofInt 96 (clampAF 96 (anchoredSum x a ps)), false, ps.any fun p => (roundToAnchor p a).2
      , clampAF 96 (anchoredSum x a ps) != anchoredSum x a ps⟩ := by
  have none_ : ¬ (ps.contains (.inf false) || ps.contains (.inf true)) = true := by
    rw [Bool.or_eq_true, List.contains_iff_mem, List.contains_iff_mem]
    exact fun h => h.elim (finite false) (finite true)
  unfold enterEntry
  rw [if_neg ok, if_neg number, if_neg none_]

end

/-- A sum beyond the clamp saturates. -/
theorem clampAF_ne {z : Int} (h : 2 ^ 95 ≤ z.natAbs) : (clampAF 96 z != z) = true := by
  rw [bne_iff_ne]
  unfold clampAF
  lia -abstractProof

/-! ### Integer elements -/

/-- The products of integers with a bank's integers in a column. -/
theorem Bank.products_int (B : Bank) (n : Nat) (as : List Int) (w : Nat → Int) (plain : B.scaled = false)
    (weights : ∀ k, k < as.length → intElem B.fmt.toNat (FMap.get 0 B.w (64 * k + n)).toNat = some (w k)) :
    B.products (as.map fun z => (.real (.ofInt z), none)) n
      = as.zipIdx.map fun x => .num (decide (x.1 < 0) != decide (w x.2 < 0)) (x.1.natAbs * (w x.2).natAbs) 0 := by
  unfold Bank.products
  rw [List.zipIdx_map, List.map_map]
  refine List.map_congr_left fun x hx => ?_
  have index : x.2 < as.length := by
    have := List.snd_lt_of_mem_zipIdx hx
    lia -abstractProof
  dsimp only [Function.comp, Prod.map, id]
  rw [decodeElem_int (weights x.2 index), plain, if_neg Bool.false_ne_true]
  exact exactProduct_int x.1 (w x.2)

/-- Integer elements add the sum of their products, in the unit of an anchor of at most 0. -/
theorem Tile.enterRow_int (t : Tile) (B : Bank) (i n : Nat) (as : List Int) (w : Nat → Int) (hn : n < 64) (plain : B.scaled = false)
    (anchor : t.exponent ≤ 0) (weights : ∀ k, k < as.length → intElem B.fmt.toNat (FMap.get 0 B.w (64 * k + n)).toNat = some (w k))
    (number : t.entry i n ≠ nanPattern) :
    let S := (t.entry i n).toInt + (as.zipIdx.map fun x => x.1 * w x.2).sum * (2 ^ (-t.exponent).toNat : Nat)
    (t.enterRow B i (as.map fun z => (.real (.ofInt z), none))).entry i n = BitVec.ofInt 96 (max (-(2 ^ 95 - 1)) (min (2 ^ 95 - 1) S)) := by
  intro S
  obtain ⟨-, -, entry, -⟩ := t.enterRow_spec B i (as.map fun z => (.real (.ofInt z), none))
  rw [entry i n hn, if_pos rfl]
  dsimp only
  rw [B.products_int n as w plain weights]
  generalize hps : (as.zipIdx.map fun x => FVal.num (decide (x.1 < 0) != decide (w x.2 < 0)) (x.1.natAbs * (w x.2).natAbs) 0) = ps
  have numbers : ∀ p ∈ ps, ∃ b m, p = .num b m 0 := by
    rw [← hps]
    intro p hp
    obtain ⟨x, -, rfl⟩ := List.mem_map.mp hp
    exact ⟨_, _, rfl⟩
  have finite : ∀ s, FVal.inf s ∉ ps := fun s hs => by
    obtain ⟨b, m, e⟩ := numbers _ hs
    cases e
  have ok : ¬ nanProducts ps = true := by
    rw [nanProducts_iff]
    rintro (⟨p, hp, nan⟩ | ⟨plus, -⟩)
    · obtain ⟨b, m, rfl⟩ := numbers p hp
      cases nan
    · exact finite false plus
  rw [enterEntry_finite _ _ ok number finite]
  have sum : anchoredSum (t.entry i n) t.exponent ps = S := by
    unfold anchoredSum
    rw [← hps, List.map_map]
    refine congrArg ((t.entry i n).toInt + ·) ?_
    rw [← List.sum_map_mul_right]
    refine congrArg List.sum (List.map_congr_left fun x _ => ?_)
    dsimp only [Function.comp]
    rw [roundToAnchor_whole _ _ anchor, signed_natAbs_mul]
  rw [sum]
  rfl

end Sys2Proof.Machine
end

section
/-! PROOFS. The down-converter (R148, R238 to R240). -/

namespace Sys2Proof.Machine

open Sys2Proof

/-! ### Exact products (R145) -/

@[simp] theorem FVal.times_num (a b : Bool) (m n : Nat) (e g : Int) : (FVal.num a m e).times (.num b n g) = .num (a != b) (m * n) (e + g) := rfl

theorem exactProduct_num (a b : Bool) (m n : Nat) (e g : Int) :
    exactProduct (.real (.num a m e)) (.real (.num b n g)) none none = .num (a != b) (m * n) (e + g) := by
  simp only [exactProduct, Elem.times, Option.getD_none, FVal.times_num, Bool.bne_false, Nat.mul_one, Int.add_zero]

theorem exactProduct_scaled (a b p q : Bool) (m n i j : Nat) (e g d h : Int) :
    exactProduct (.real (.num a m e)) (.real (.num b n g)) (some (.num p i d)) (some (.num q j h))
      = .num (((a != b) != p) != q) (m * n * i * j) (e + g + d + h) := rfl

theorem exactProduct_log (a b : Bool) (d e : Int) :
    exactProduct (.log a d) (.log b e) none none = .num (a != b) (logTable ((d + e) % 8).toNat) ((d + e) / 8 - 16) := by
  simp only [exactProduct, Elem.times, Option.getD_none, FVal.times_num, Bool.bne_false, Nat.mul_one, Int.add_zero]

theorem exactProduct_nan (a : Bool) (x : Elem) :
    (exactProduct (.real (.nan a)) x none none).isNan = true ∧ (exactProduct x (.real (.nan a)) none none).isNan = true := by
  cases x with
  | real v => cases v <;> exact ⟨rfl, rfl⟩
  | log b l => exact ⟨rfl, rfl⟩

theorem exactProduct_inf (a b : Bool) (n : Nat) (g : Int) :
    exactProduct (.real (.inf a)) (.real (.num b n g)) none none = if n = 0 then .nan false else .inf (a != b) := by
  by_cases h : n = 0
  · subst h
    rfl
  · have product : (FVal.inf a).times (.num b n g) = .inf (a != b) := by
      show (if n = 0 then (none : Option FVal) else some (.inf (a != b))).getD _ = _
      rw [if_neg h]
      rfl
    unfold exactProduct Elem.times
    dsimp only
    rw [product, if_neg h]
    cases a <;> cases b <;> rfl

/-! ### Rounding of the down-converter (R148, R239) -/

/-- A format of matrix results is one of those known. -/
theorem fmtFloat_mem {c : Nat} {f : Fmt} (h : fmtFloat c = some f) : f ∈ formats := by
  have all_ : ∀ c < 15, ∀ f ∈ fmtFloat c, f ∈ formats := by decide +kernel
  rcases Nat.lt_or_ge c 15 with small | large
  · exact all_ c small f h
  · have none_ : fmtFloat c = none := by
      unfold fmtFloat
      repeat rw [if_neg (by lia -abstractProof)]
    rw [none_] at h
    cases h

section
variable {f : Fmt} (sound : f.Sound) {n p : Nat} {e u : Int} (nonzero : n ≠ 0) (has : Mag.Has { n := n, e := e } p u) (hu : u ≤ f.qmin)
include sound nonzero has hu

/-- A magnitude exceeds a format where it lies beyond its largest value. -/
theorem Fmt.exceeds_iff : f.exceeds { n := n, e := e } = true ↔ f.top u < p := by
  obtain ⟨beyond, within⟩ := Fmt.round_away sound hu (has.pos nonzero) false (mode := 2) (.inl ⟨rfl, rfl⟩)
  unfold Fmt.exceeds
  rw [has.round_eq nonzero (.inl rfl), bne_iff_ne]
  constructor
  · intro overflow
    by_contra inside
    obtain ⟨-, -, -, flags⟩ := within (Nat.le_of_not_lt inside)
    rw [flags] at overflow
    unfold Fmt.flags at overflow
    split_ifs at overflow <;> exact overflow (by decide)
  · intro h
    rw [beyond h]
    exact show (fOF ||| fNX) &&& fOF ≠ 0 by decide

/-- Code 0 gives infinity beyond the largest value, and rounds to nearest else. -/
theorem Fmt.drain_even (neg : Bool) :
    (f.top u < p → f.drain 0 neg { n := n, e := e } = f.sign neg (f.inf.getD f.maxCode))
    ∧ (p ≤ f.top u → f.drain 0 neg { n := n, e := e } = f.sign neg (f.round 0 neg { n := n, e := e }).1) := by
  have exceeds := Fmt.exceeds_iff sound nonzero has hu
  unfold Fmt.drain
  refine ⟨fun h => if_pos ⟨rfl, exceeds.mpr h⟩, fun h => if_neg fun both => ?_⟩
  have := exceeds.mp both.2
  lia -abstractProof

end

theorem Fmt.drain_directed (f : Fmt) {rnd : Nat} (h : rnd ≠ 0) (neg : Bool) (x : Mag) : f.drain rnd neg x = f.sign neg (f.round rnd neg x).1 :=
  if_neg fun both => h both.1

/-- What stochastic rounding takes of a number: its floor code, and the remainder in the gap there, both in a unit as fine as they need. -/
theorem Fmt.stochastic_parts {f : Fmt} {n : Nat} {e u : Int} (nonzero : n ≠ 0) (hu : u ≤ f.qmin) (he : u ≤ e) :
    let q := max ((Nat.log2 n : Int) + e - f.F) f.qmin
    let sh := (q - e).toNat
    let s := 2 ^ (min e q - u).toNat
    let p := n * 2 ^ (e - u).toNat
    (q - f.qmin).toNat * 2 ^ f.F + n * 2 ^ (e - q).toNat / 2 ^ sh = f.floorCode p u ∧ f.gap p u = 2 ^ sh * s
    ∧ p % f.gap p u = n * 2 ^ (e - q).toNat % 2 ^ sh * s := by
  intro q sh s p
  have quantum : f.quantum p u = q := by
    unfold Fmt.quantum
    rw [log2_mul_two_pow nonzero]
    lia -abstractProof
  have whole : n * 2 ^ (e - q).toNat * s = p := by
    rw [Nat.mul_assoc, ← Nat.pow_add]
    congr 2
    lia -abstractProof
  have gap : f.gap p u = 2 ^ sh * s := by
    unfold Fmt.gap
    rw [quantum, ← Nat.pow_add]
    congr 1
    lia -abstractProof
  refine ⟨?_, gap, ?_⟩
  · unfold Fmt.floorCode
    rw [quantum, gap, ← whole, Nat.mul_div_mul_right _ _ (Nat.two_pow_pos _)]
  · rw [gap, ← whole, Nat.mul_mod_mul_right]

section
variable {f : Fmt} (sound : f.Sound) {n : Nat} {e u : Int} (nonzero : n ≠ 0) (hu : u ≤ f.qmin) (he : u ≤ e) (word : Nat) (neg : Bool)
include nonzero hu he

omit sound in
/-- Stochastic rounding (R240), in the floor code and the gap: an exact code stays, from the largest code on it is code 0's rounding, and
else the word decides between the floor code and the next. -/
theorem Fmt.stochastic_eq :
    let p := n * 2 ^ (e - u).toNat
    let k := f.floorCode p u
    let r := p % f.gap p u
    f.stochastic word neg n e = if r = 0 ∧ k ≤ f.maxCode then f.sign neg k
      else if f.maxCode ≤ k then f.drain 0 neg { n := n, e := e }
      else f.sign neg (if neg then (if word < (f.gap p u - r) * 2 ^ 32 / f.gap p u then k else k + 1)
        else (if word < r * 2 ^ 32 / f.gap p u then k + 1 else k)) := by
  intro p k r
  obtain ⟨code, gap, remainder⟩ := Fmt.stochastic_parts (f := f) nonzero hu he
  have unit : 0 < 2 ^ (min e (max ((Nat.log2 n : Int) + e - f.F) f.qmin) - u).toNat := Nat.two_pow_pos _
  unfold Fmt.stochastic
  dsimp only at code gap remainder ⊢
  change _ = k at code
  change r = _ at remainder
  change f.gap p u = _ at gap
  rw [code]
  generalize n * 2 ^ (e - max ((Nat.log2 n : Int) + e - f.F) f.qmin).toNat % 2 ^ (max ((Nat.log2 n : Int) + e - f.F) f.qmin - e).toNat = a at *
  generalize 2 ^ (max ((Nat.log2 n : Int) + e - f.F) f.qmin - e).toNat = g at *
  generalize 2 ^ (min e (max ((Nat.log2 n : Int) + e - f.F) f.qmin) - u).toNat = s at *
  have zero : r = 0 ↔ a = 0 := by
    rw [remainder, Nat.mul_eq_zero]
    lia -abstractProof
  have away : r * 2 ^ 32 / f.gap p u = a * 2 ^ 32 / g := by
    rw [gap, remainder, Nat.mul_right_comm, Nat.mul_div_mul_right _ _ unit]
  have toward : (f.gap p u - r) * 2 ^ 32 / f.gap p u = (g - a) * 2 ^ 32 / g := by
    rw [gap, remainder, ← Nat.sub_mul, Nat.mul_right_comm, Nat.mul_div_mul_right _ _ unit]
  rw [away, toward, if_congr (and_congr_left' zero) rfl rfl]
  cases neg
  · simp only [Bool.false_eq_true, if_false, decide_eq_true_eq, ge_iff_le]
  · by_cases below : word < (g - a) * 2 ^ 32 / g
    · simp only [if_true, below, decide_true, Bool.not_true, Bool.false_eq_true, if_false, ge_iff_le]
    · simp only [if_true, below, decide_false, Bool.not_false, if_false, ge_iff_le]

end

section
variable {f : Fmt} (sound : f.Sound) {n p : Nat} {e u : Int} (nonzero : n ≠ 0) (has : Mag.Has { n := n, e := e } p u) (hu : u ≤ f.qmin)
  (word : Nat) (neg : Bool)
include nonzero has hu

/-- A code's number stays as it is. -/
theorem Fmt.stochastic_exact {k : Nat} (fits : k ≤ f.maxCode) (number : f.place u k = p) : f.stochastic word neg n e = f.sign neg k := by
  obtain ⟨he, rfl⟩ := has
  have mono := f.place_strictMono u
  have floor := Fmt.mod_gap (f := f) (p := n * 2 ^ (e - u).toNat) hu
  have reaches := (Fmt.place_le_iff (f := f) hu k).mp (Nat.le_of_eq number)
  have code : f.floorCode (n * 2 ^ (e - u).toNat) u = k := by
    refine Nat.le_antisymm ?_ reaches
    rw [← mono.le_iff_le, number]
    exact Nat.le.intro floor
  have exact_ := Fmt.stochastic_eq nonzero hu he word neg (f := f)
  dsimp only at exact_ number floor
  rw [code] at exact_ floor
  rw [exact_, if_pos ⟨by lia -abstractProof, fits⟩]

include sound in
/-- Beyond the largest code it is as code 0 has it. -/
theorem Fmt.stochastic_beyond (beyond : f.top u < p) : f.stochastic word neg n e = f.sign neg (f.inf.getD f.maxCode) := by
  have drain := (Fmt.drain_even sound nonzero has hu neg).1 beyond
  obtain ⟨he, rfl⟩ := has
  have floor := Fmt.mod_gap (f := f) (p := n * 2 ^ (e - u).toNat) hu
  have reaches := (Fmt.place_le_iff (f := f) hu f.maxCode).mp (Nat.le_of_lt beyond)
  have rounds := Fmt.stochastic_eq nonzero hu he word neg (f := f)
  dsimp only at rounds beyond floor reaches
  rw [rounds, if_neg, if_pos reaches, drain]
  rintro ⟨zero, fits⟩
  rw [Nat.le_antisymm fits reaches] at floor
  unfold Fmt.top at beyond
  lia -abstractProof

/-- Between two codes the word decides. -/
theorem Fmt.stochastic_between {k : Nat} (fits : k < f.maxCode) (above : f.place u k < p) (below : p < f.place u (k + 1)) :
    f.stochastic word neg n e = f.sign neg (
      if neg then (if word < (f.place u (k + 1) - p) * 2 ^ 32 / (f.place u (k + 1) - f.place u k) then k else k + 1)
      else (if word < (p - f.place u k) * 2 ^ 32 / (f.place u (k + 1) - f.place u k) then k + 1 else k)) := by
  obtain ⟨he, rfl⟩ := has
  have floor := Fmt.mod_gap (f := f) (p := n * 2 ^ (e - u).toNat) hu
  have next := Fmt.place_floorCode_succ (f := f) (p := n * 2 ^ (e - u).toNat) hu
  have low := (Fmt.place_le_iff (f := f) hu k).mp (Nat.le_of_lt above)
  have high := (Fmt.lt_place_iff (f := f) hu (k + 1)).mp below
  have code : f.floorCode (n * 2 ^ (e - u).toNat) u = k := by dsimp only at low high; lia -abstractProof
  have rounds := Fmt.stochastic_eq nonzero hu he word neg (f := f)
  dsimp only at rounds above below
  rw [code] at floor next rounds
  have up : n * 2 ^ (e - u).toNat - f.place u k = n * 2 ^ (e - u).toNat % f.gap (n * 2 ^ (e - u).toNat) u := by lia -abstractProof
  have down : f.place u (k + 1) - n * 2 ^ (e - u).toNat
      = f.gap (n * 2 ^ (e - u).toNat) u - n * 2 ^ (e - u).toNat % f.gap (n * 2 ^ (e - u).toNat) u := by lia -abstractProof
  have gap : f.place u (k + 1) - f.place u k = f.gap (n * 2 ^ (e - u).toNat) u := by lia -abstractProof
  dsimp only
  rw [rounds, if_neg (by lia -abstractProof), if_neg (by lia -abstractProof), up, down, gap]

end

/-! ### Down-converting an entry (R148) -/

/-- The random word of stochastic rounding (R240). -/
def ditherWord (i n h : Nat) (c : ConvRecord) : Nat :=
  (philox 10 (w32 n, w32 i, w32 h, 0) (c.seed.setWidth 32) (c.seed.extractLsb' 32 32)).1.toNat

/-- A code as it is stored: TF32 has 13 bits more (R229). -/
def ConvRecord.widen (c : ConvRecord) (v : Nat) : Nat := if c.fmt = 1 then v * 2 ^ 13 else v

section
variable (t : Tile) (i n h : Nat) (c : ConvRecord) {f : Fmt} (format : fmtFloat c.fmt = some f)
include format

theorem downConvert_nan (pattern : t.entry i n = nanPattern) : downConvert t i n h c = c.widen f.nanBits := by
  unfold downConvert
  simp only [format]
  exact if_pos pattern

theorem downConvert_num (number : t.entry i n ≠ nanPattern) {s : Bool} {m : Nat} {e : Int} (scale : c.scale = .num s m e) :
    let neg := decide ((t.entry i n).toInt < 0) != s
    let k := (t.entry i n).toInt.natAbs * m
    downConvert t i n h c = if k = 0 then 0
      else if c.rnd = 5 then c.widen (f.stochastic (ditherWord i n h c) neg k (t.exponent + e))
      else c.widen (f.drain c.rnd neg { n := k, e := t.exponent + e }) := by
  unfold downConvert
  simp only [format, scale, FVal.times_num]
  exact if_neg number

end

end Sys2Proof.Machine
end

section
/-! PROOFS. `mma` and `acc.rd` of one row (R145, R148, R152), and the settlement of MatrixEntries. -/

namespace Sys2Proof

/-- A key outside a cleared run keeps its value; one within it has none. -/
theorem FMap.get_clear {α : Type} (d : α) (m : List (Nat × α)) (lo n k : Nat) :
    FMap.get d (FMap.clear m lo n) k = if lo ≤ k ∧ k < lo + n then d else FMap.get d m k := by
  induction m with
  | nil => simp [FMap.clear, FMap.get]
  | cons e t ih =>
    obtain ⟨j, v⟩ := e
    by_cases inside : lo ≤ j ∧ j < lo + n
    · have gone : FMap.clear ((j, v) :: t) lo n = FMap.clear t lo n := List.filter_cons_of_neg (by simp [inside])
      rw [gone, ih]
      by_cases here : j = k
      · subst here
        rw [if_pos inside, if_pos inside]
      · rw [show FMap.get d ((j, v) :: t) k = FMap.get d t k from if_neg here]
    · have stays : FMap.clear ((j, v) :: t) lo n = (j, v) :: FMap.clear t lo n := List.filter_cons_of_pos <| by
        rw [Bool.not_eq_true', Bool.and_eq_false_iff, decide_eq_false_iff_not, decide_eq_false_iff_not]
        lia -abstractProof
      rw [stays]
      by_cases here : j = k
      · subst here
        rw [if_neg inside]
        exact (if_pos rfl).trans (if_pos rfl).symm
      · exact (if_neg here).trans (ih.trans (by rw [show FMap.get d ((j, v) :: t) k = FMap.get d t k from if_neg here]))

end Sys2Proof

namespace Sys2Proof.Machine

open Sys2Proof

/-! ### States that differ from a word's in lanes, tiles and local memory alone -/

/-- State c is b but for the issuing party's lanes, which stand where they stood, and the team's tiles and local memory. -/
structure State.Worked (b c : State) : Prop where
  cur : c.cur = b.cur
  near : c.near = b.near
  team : { c.curTeam with parties := b.curTeam.parties, tiles := b.curTeam.tiles, mem := b.curTeam.mem } = b.curTeam
  party : { c.curParty with lanes := b.curParty.lanes } = b.curParty
  pc : ∀ l, (c.curParty.lane l).pc = (b.curParty.lane l).pc

theorem State.curParty_setCurTeam (s : State) (T : Team) : (s.setCurTeam T).curParty = T.party s.cur.party := by
  unfold State.curParty State.party State.setCurTeam
  rw [State.team_setTeam]
  exact congrArg (fun T' : Team => T'.party s.cur.party) (if_pos rfl)

theorem State.Worked.mapLanes {b c : State} (h : b.Worked c) {f : Nat → Lane → Lane} (hf : ∀ l x, (f l x).pc = x.pc) : b.Worked (c.mapLanes f) := by
  refine ⟨h.cur, h.near, ?_, ?_, fun l => ?_⟩
  · unfold State.mapLanes
    rw [State.curTeam_setCurParty]
    exact h.team
  · rw [State.curParty_mapLanes]
    exact h.party
  · rw [State.curParty_mapLanes, Party.lane_mapLanes, ← h.pc l]
    split
    · exact hf l _
    · rfl

theorem State.Worked.setCurTeam {b c : State} (h : b.Worked c) {T : Team}
    (hT : { T with tiles := c.curTeam.tiles, mem := c.curTeam.mem } = c.curTeam) : b.Worked (c.setCurTeam T) := by
  have party : (c.setCurTeam T).curParty = c.curParty := by
    rw [State.curParty_setCurTeam]
    have parties := congrArg Team.parties hT
    exact congrArg (FMap.get {} · c.cur.party) parties
  refine ⟨h.cur, h.near, ?_, ?_, fun l => ?_⟩
  · rw [State.curTeam_setCurTeam, ← h.team, ← hT]
  · rw [party]
    exact h.party
  · rw [party]
    exact h.pc l

theorem State.Worked.setMem {b c : State} (h : b.Worked c) (m : List (Nat × W8)) : b.Worked (c.setCurTeam { c.curTeam with mem := m }) :=
  h.setCurTeam rfl

/-- What is left of such a state once its lanes have gone on and the word is counted. -/
theorem State.Worked.settled {b c : State} (h : b.Worked c) (calm : b.curTeam.halt.calm = true) (i : Instr) (u : Uses) :
    let t := c.advance.settle i u b
    t.curTeam.tiles = c.curTeam.tiles ∧ t.curTeam.mem = c.curTeam.mem ∧ t.near = b.near ∧ (∀ j, t.tile j = c.tile j)
    ∧ ∀ l ∈ b.cur.lanes, (t.curParty.lane l).pc = b.nextPc l := by
  intro t
  have party : c.advance.curParty = c.curParty.mapLanes c.cur.lanes fun _ x => x.next := State.curParty_mapLanes ..
  have team : c.advance.curTeam = c.curTeam.setParty c.cur.party (c.curParty.mapLanes c.cur.lanes fun _ x => x.next) := State.curTeam_setCurParty ..
  have counted : c.advance.Counted t := State.settle_counted ..
  have cur : t.cur = c.cur := by
    have e := congrArg State.cur counted.rest
    exact e
  have framed : c.curParty.Framed t.curParty := by
    refine State.framed_settle (r := c.advance) (by rw [party]; rfl) ?_ i u b
    rw [team]
    have e := congrArg Team.halt h.team
    exact (congrArg Halt.calm e).trans calm
  have here : t.curTeam = t.team c.advance.cur.team := congrArg (fun x : Issue => t.team x.team) cur
  have teams := counted.team
  rw [← here, team] at teams
  have tiles := congrArg Team.tiles teams
  have mem := congrArg Team.mem teams
  have core := congrArg Team.core teams
  have near := congrArg State.near counted.rest
  refine ⟨tiles, mem, near.trans h.near, fun j => ?_, fun l hl => ?_⟩
  · have core' := congrArg Party.core framed
    unfold State.tile State.tileKey
    rw [show t.curTeam.tiles = c.curTeam.tiles from tiles, show t.curTeam.core = c.curTeam.core from core,
      show t.curParty.core = c.curParty.core from core']
  · have lane := congrArg Lane.pc (counted.party.lanes l)
    have standing : t.curParty = t.party c.advance.cur.team c.advance.cur.party := congrArg (fun x : Issue => t.party x.team x.party) cur
    rw [standing]
    refine lane.trans ?_
    rw [party, Party.lane_mapLanes, if_pos (by rw [h.cur]; exact hl)]
    exact congrArg (· + 4) (h.pc l)

/-! ### Reading and writing tiles -/

theorem State.curTeam_setTile (c : State) (k : Nat) (x : Tile) :
    (c.setTile k x).curTeam = { c.curTeam with tiles := FMap.set {} c.curTeam.tiles (c.tileKey k) x } := State.curTeam_setCurTeam ..

theorem State.tile_setTile (c : State) (k j : Nat) (x : Tile) : (c.setTile k x).tile j = if j = k then x else c.tile j := by
  have party : (c.setTile k x).curParty = c.curParty := State.curParty_setCurTeam ..
  unfold State.tile
  rw [State.curTeam_setTile]
  have key : (c.setTile k x).tileKey j = c.tileKey j := by
    unfold State.tileKey
    rw [party, State.curTeam_setTile]
  rw [key]
  refine (FMap.get_set ..).trans (if_congr ?_ rfl rfl)
  unfold State.tileKey
  lia -abstractProof

theorem State.Worked.setTile {b c : State} (h : b.Worked c) (k : Nat) (x : Tile) : b.Worked (c.setTile k x) := h.setCurTeam rfl

/-! ### The lanes name the tiles that they use -/

section
variable (b : State) (rs : List (Nat × Nat))

theorem State.worked_useTiles : b.Worked (b.useTiles rs) :=
  State.Worked.mapLanes ⟨rfl, rfl, rfl, rfl, fun _ => rfl⟩ fun _ _ => rfl

theorem State.curTeam_useTiles : { (b.useTiles rs).curTeam with parties := b.curTeam.parties } = b.curTeam := by
  unfold State.useTiles State.mapLanes
  rw [State.curTeam_setCurParty]
  rfl

theorem State.lane_useTiles (l : Nat) :
    (b.useTiles rs).curParty.lane l = if l ∈ b.cur.lanes then { b.curParty.lane l with tiles := rs } else b.curParty.lane l := by
  unfold State.useTiles
  rw [State.curParty_mapLanes, Party.lane_mapLanes]

@[simp] theorem State.rdS_useTiles (n : Nat) : (b.useTiles rs).rdS n = b.rdS n := by
  have stale : ∀ l, ((b.useTiles rs).curParty.lane l).stale b.free l (.s n) = (b.curParty.lane l).stale b.free l (.s n) := by
    intro l
    rw [State.lane_useTiles]
    split <;> rfl
  have party : (b.useTiles rs).curParty.sreg n = b.curParty.sreg n := by
    unfold State.useTiles
    rw [State.curParty_mapLanes]
    rfl
  have found : ((b.useTiles rs).cur.lanes.findSome? fun l => ((b.useTiles rs).curParty.lane l).stale (b.useTiles rs).free l (.s n))
      = b.cur.lanes.findSome? fun l => (b.curParty.lane l).stale b.free l (.s n) :=
    congrArg (List.findSome? · b.cur.lanes) (funext stale)
  unfold State.rdS
  dsimp only
  rw [party, found]

@[simp] theorem State.desc_useTiles (a : BitVec 6) : (b.useTiles rs).desc a = b.desc a := by
  unfold State.desc State.getS
  rw [State.rdS_useTiles, State.rdS_useTiles]

@[simp] theorem State.convRecord_useTiles (a : BitVec 6) (fmts : List Nat) : (b.useTiles rs).convRecord a fmts = b.convRecord a fmts := by
  unfold State.convRecord State.getS
  rw [State.rdS_useTiles, State.rdS_useTiles]

@[simp] theorem State.tile_useTiles (j : Nat) : (b.useTiles rs).tile j = b.tile j := by
  have tiles := congrArg Team.tiles (b.curTeam_useTiles rs)
  have core := congrArg Team.core (b.curTeam_useTiles rs)
  have party := congrArg Party.core (b.worked_useTiles rs).party
  unfold State.tile State.tileKey
  rw [show (b.useTiles rs).curTeam.tiles = b.curTeam.tiles from tiles, show (b.useTiles rs).curTeam.core = b.curTeam.core from core,
    show (b.useTiles rs).curParty.core = b.curParty.core from party]

@[simp] theorem State.tilesOk_useTiles (j n : Nat) : (b.useTiles rs).tilesOk j n = b.tilesOk j n := by
  unfold State.tilesOk
  simp only [State.tile_useTiles]

@[simp] theorem State.tilesBad_useTiles (j n : Nat) : (b.useTiles rs).tilesBad j n = b.tilesBad j n := by
  unfold State.tilesBad
  simp only [State.tile_useTiles]

@[simp] theorem State.bank_useTiles (one : Bool) : (b.useTiles rs).bank one = b.bank one := by
  have w0 := congrArg Party.w0 (b.worked_useTiles rs).party
  have w1 := congrArg Party.w1 (b.worked_useTiles rs).party
  unfold State.bank
  rw [show (b.useTiles rs).curParty.w0 = b.curParty.w0 from w0, show (b.useTiles rs).curParty.w1 = b.curParty.w1 from w1]

@[simp] theorem State.cur_useTiles : (b.useTiles rs).curParty.cur = b.curParty.cur := by
  have e := congrArg Party.cur (b.worked_useTiles rs).party
  exact e

@[simp] theorem State.mem_useTiles : (b.useTiles rs).curTeam.mem = b.curTeam.mem := by
  have e := congrArg Team.mem (b.curTeam_useTiles rs)
  exact e

@[simp] theorem State.alloc_useTiles : (b.useTiles rs).curTeam.alloc = b.curTeam.alloc := by
  have e := congrArg Team.alloc (b.curTeam_useTiles rs)
  exact e

@[simp] theorem State.busyRow_useTiles (r : Rows) : (b.useTiles rs).busyRow r = b.busyRow r := rfl

@[simp] theorem State.activation_useTiles (d : Desc) (m : Nat) : (b.useTiles rs).activation d m = b.activation d m := by
  unfold State.activation
  rw [State.mem_useTiles]

theorem State.unit_useTiles : ((b.useTiles rs).curParty.lane (b.useTiles rs).firstLane).unit = (b.curParty.lane b.firstLane).unit := by
  show ((b.useTiles rs).curParty.lane b.firstLane).unit = _
  rw [State.lane_useTiles]
  split <;> rfl

end

/-! ### One row of `mma` -/

theorem State.tilesBad_one (b : State) (j : Nat) : b.tilesBad j 1 = (b.tile j).bad := by
  unfold State.tilesBad
  simp

/-- Rows that lie in the allocation and under no range entry let a word go on. -/
theorem State.checkRows_fit (s : State) {r : Rows} (acc : Acc) (p : Plan) (fits : r.end_ ≤ s.curTeam.alloc) : s.checkRows [r] acc p = p := by
  have none_ : ([r].find? fun r => decide (s.curTeam.alloc < r.end_)) = none := by
    rw [List.find?_singleton, if_neg (by simpa using fits)]
  unfold State.checkRows
  rw [none_]

theorem State.awaitRows_free (s : State) {r : Rows} (k : Except State State) (free : s.busyRow r = none) : s.awaitRows [r] k = k := by
  unfold State.awaitRows
  rw [List.findSome?_singleton, free]

theorem Rows.row_zero {r : Rows} (one : r.n = 1) : r.row 0 = r := by
  unfold Rows.row
  rw [Nat.zero_mul, Nat.add_zero, ← one]

/-- A long word of one unit that is not yet begun. -/
theorem longResult_one {b c : State} {unit : State → Nat → Except State State} (fresh : (b.curParty.lane b.firstLane).unit = 0)
    (done : unit b 0 = .ok c) : longResult (.ok (1, unit)) b = some c.advance := by
  unfold longResult
  dsimp only
  rw [fresh]
  show ((unit b 0).toOption).map State.advance = _
  rw [done]
  rfl

section
variable {b : State} {t a e : BitVec 6} {st : BitVec 2}

/-- What `mma` of one unscaled row asks of the state (R140, R145). -/
structure State.MmaRow (b : State) (t a e : BitVec 6) : Prop where
  one : b.rdS e.toNat = 1
  good : (b.desc a).bad = false
  unscaled : (b.desc a).scaled = false
  rowOrder : (b.desc a).column = false
  placed : ((b.desc a).rows 1 (fmtDepth (b.desc a).fmt * fmtBits (b.desc a).fmt / 8)).misplaced = false
  fits : ((b.desc a).rows 1 (fmtDepth (b.desc a).fmt * fmtBits (b.desc a).fmt / 8)).end_ ≤ b.curTeam.alloc
  free : b.busyRow ((b.desc a).rows 1 (fmtDepth (b.desc a).fmt * fmtBits (b.desc a).fmt / 8)) = none
  loaded : (b.bank b.curParty.cur).loaded = true
  sound : (b.bank b.curParty.cur).bad = false
  meets : fmtMeet (b.desc a).fmt (b.bank b.curParty.cur).fmt.toNat = true
  tiles : b.tilesOk t.toNat 1 = true
  tile : (b.tile t.toNat).bad = false

/-- Its plan is one unit, which enters the row in row 0 of the tile. -/
theorem State.MmaRow.plan (h : b.MmaRow t a e) (rs : List (Nat × Nat)) :
    ∃ unit, (b.useTiles rs).mmaPlan t a e = .ok (1, unit) ∧ unit (b.useTiles rs) 0
      = .ok ((b.useTiles rs).setTile t.toNat ((b.tile t.toNat).enterRow (b.bank b.curParty.cur) 0 (b.activation (b.desc a) 0))) := by
  have count : ((b.useTiles rs).getS e).toNat = 1 := by
    unfold State.getS
    rw [State.rdS_useTiles, h.one]
    rfl
  have one : tilesOf 1 = 1 := rfl
  unfold State.mmaPlan
  dsimp only
  rw [count, State.desc_useTiles, State.cur_useTiles, State.bank_useTiles, show 1 % 2 ^ 11 = 1 from rfl, one, State.tilesOk_useTiles,
    State.tilesBad_useTiles, State.tilesBad_one, h.unscaled, lowest_eq_none]
  · dsimp only
    rw [h.sound, h.tile, Bool.or_self, if_neg Bool.false_ne_true, if_neg Bool.false_ne_true,
      State.checkRows_fit _ _ _ (by rw [State.alloc_useTiles]; exact h.fits)]
    refine ⟨_, rfl, ?_⟩
    rw [if_neg Bool.false_ne_true, Rows.row_zero rfl, State.awaitRows_free _ _ (by rw [State.busyRow_useTiles]; exact h.free)]
    rw [State.tile_useTiles, State.cur_useTiles, State.bank_useTiles, State.activation_useTiles]
    rfl
  · simp only [List.mem_cons, List.not_mem_nil, or_false]
    rintro x (rfl | rfl | rfl | rfl | rfl | rfl)
    · simp [h.good]
    · simp [h.placed]
    · rfl
    · simp [h.rowOrder, h.meets]
    · simp [h.tiles]
    · simp [h.loaded]

/-- The row that it enters. -/
theorem State.MmaRow.activation_eq (h : b.MmaRow t a e) :
    b.activation (b.desc a) 0 = (List.range (fmtDepth (b.desc a).fmt)).map fun k => (decodeElem (b.desc a).fmt
      (Mem.read b.curTeam.mem (bits (b.desc a).word0 31 0) (fmtDepth (b.desc a).fmt * fmtBits (b.desc a).fmt / 8)
        / 2 ^ (fmtBits (b.desc a).fmt * k) % 2 ^ fmtBits (b.desc a).fmt), none) := by
  unfold State.activation
  dsimp only
  rw [h.unscaled, Nat.zero_mul, Nat.add_zero]
  rfl

/-- It completes with that row entered in its tile, and changes no other tile and no memory. -/
theorem mma_row {s : State} (ready : s.Ready (.mma t a e st)) (hb : s.before (.mma t a e st) = b) (units : b.cur.units = none)
    (fresh : (b.curParty.lane b.firstLane).unit = 0) (h : b.MmaRow t a e) :
    ∃ u, exec (.mma t a e st) s = .next u ∧ u.tile t.toNat = (b.tile t.toNat).enterRow (b.bank b.curParty.cur) 0 (b.activation (b.desc a) 0)
      ∧ (∀ j, j ≠ t.toNat → u.tile j = b.tile j) ∧ u.curTeam.mem = b.curTeam.mem ∧ u.near = b.near
      ∧ ∀ l ∈ s.cur.lanes, (u.curParty.lane l).pc = b.nextPc l := by
  obtain ⟨unit, plan, done⟩ := h.plan [(t.toNat, tilesOf ((b.rdS e.toNat).toNat % 2 ^ 11))]
  have result := longResult_one ((b.unit_useTiles _).trans fresh) done
  rw [← plan] at result
  have worked := (b.worked_useTiles [(t.toNat, tilesOf ((b.rdS e.toNat).toNat % 2 ^ 11))]).setTile t.toNat
    ((b.tile t.toNat).enterRow (b.bank b.curParty.cur) 0 (b.activation (b.desc a) 0))
  have calm : b.curTeam.halt.calm = true := by
    rw [← hb]
    exact (State.before_from ready rfl).calm
  have lanes : b.cur.lanes = s.cur.lanes := by
    rw [← hb, State.before_cur rfl]
  have completes := mma_completes t a e st s _ ready (by rw [hb]; exact units) (by rw [hb]; exact result)
  obtain ⟨tiles, mem, near, tile, pc⟩ := worked.settled calm (.mma t a e st) ((s.looked (.mma t a e st)).uses (.mma t a e st))
  unfold State.after at completes
  rw [hb] at completes
  rw [lanes] at pc
  refine ⟨_, completes, ?_, fun j hj => ?_, ?_, near, pc⟩
  · rw [tile, State.tile_setTile, if_pos rfl]
  · rw [tile, State.tile_setTile, if_neg hj, State.tile_useTiles]
  · rw [mem, State.curTeam_setTile]
    exact b.mem_useTiles _

end

/-! ### One row of `acc.rd` -/

/-- Element n of a packed row (R137). -/
theorem packRow_element (w : Nat) (es : List Nat) : ∀ n (h : n < es.length), packRow w es / 2 ^ (w * n) % 2 ^ w = es[n] % 2 ^ w := by
  have pos := Nat.two_pow_pos w
  induction es with
  | nil => intro n h; cases h
  | cons e es ih =>
    intro n h
    have cons_ : packRow w (e :: es) = e % 2 ^ w + 2 ^ w * packRow w es := rfl
    rw [cons_]
    cases n with
    | zero =>
      rw [Nat.mul_zero, Nat.pow_zero, Nat.div_one, Nat.add_mul_mod_self_left, Nat.mod_mod]
      rfl
    | succ n =>
      rw [Nat.mul_succ, Nat.add_comm (w * n), Nat.pow_add, ← Nat.div_div_eq_div_mul, Nat.add_mul_div_left _ _ pos,
        Nat.div_eq_of_lt (Nat.mod_lt e pos), Nat.zero_add]
      exact ih n (Nat.lt_of_succ_lt_succ h)

theorem Tile.entry_zeroRow (t : Tile) (i j : Nat) {n : Nat} (hn : n < 64) : (t.zeroRow i).entry j n = if j = i then 0 else t.entry j n := by
  refine (FMap.get_clear ..).trans (if_congr ?_ rfl rfl)
  lia -abstractProof

section
variable {b : State} {t a e : BitVec 6} {z : BitVec 1} {st : BitVec 2}

/-- The record, and the local row, of an `acc.rd` of one row. -/
def State.accRecord (b : State) (a : BitVec 6) : ConvRecord := (b.convRecord a []).1
def State.accRows (b : State) (a e : BitVec 6) : Rows := placeRows (b.rdS e.toNat) 1 (8 * fmtBits (b.accRecord a).fmt)

/-- What `acc.rd` of one row asks of the state (R139, R140, R152). -/
structure State.AccRow (b : State) (t a e : BitVec 6) : Prop where
  reserved : bits (b.rdS a.toNat).toNat 31 19 = 0
  one : (b.accRecord a).rows = 1
  fmt : (b.accRecord a).fmt ∈ [0, 1, 2, 3, 5, 6, 7, 11, 12, 14]
  rnd : (b.accRecord a).rnd ∈ [0, 1, 2, 3, 5]
  scale : ∃ n m g, (b.accRecord a).scale = .num n m g
  place : (b.rdS e.toNat).toNat < 2 ^ 48
  placed : (b.accRows a e).misplaced = false
  fits : (b.accRows a e).end_ ≤ b.curTeam.alloc
  free : b.busyRow (b.accRows a e) = none
  tiles : b.tilesOk t.toNat 1 = true
  tile : (b.tile t.toNat).bad = false

/-- The row that it stores, packed. -/
def State.accValue (b : State) (t a : BitVec 6) : Nat :=
  packRow (fmtBits (b.accRecord a).fmt) ((List.range 64).map fun n => downConvert (b.tile t.toNat) 0 n t.toNat (b.accRecord a))

/-- The state in which its one unit leaves a state c (R152). -/
def State.accDone (b c : State) (t a e : BitVec 6) (z : BitVec 1) : State :=
  let d := c.setCurTeam { c.curTeam with mem := Mem.write c.curTeam.mem (b.accRows a e).off (8 * fmtBits (b.accRecord a).fmt) (b.accValue t a) }
  if z = 1 then d.setTile t.toNat ((d.tile t.toNat).zeroRow 0) else d

/-- No cause of its record applies. -/
theorem State.AccRow.record_good (h : b.AccRow t a e) :
    ∀ x ∈ (b.convRecord a [0, 1, 2, 3, 5, 6, 7, 11, 12, 14]).2, x.1 = false := by
  obtain ⟨n, m, g, scale⟩ := h.scale
  have rnd := h.rnd
  have fmt := h.fmt
  have rows := h.one
  have reserved := h.reserved
  unfold State.accRecord State.convRecord at scale rnd fmt rows
  unfold State.convRecord
  dsimp only at scale rnd fmt rows ⊢
  simp only [List.mem_cons, List.not_mem_nil, or_false]
  rintro x (rfl | rfl | rfl | rfl)
  · simp only [List.mem_cons, List.not_mem_nil, or_false] at rnd fmt
    have codes : bits (b.getS a).toNat 18 16 ≠ 4 ∧ bits (b.getS a).toNat 18 16 ≠ 6 ∧ bits (b.getS a).toNat 18 16 ≠ 7 := by lia -abstractProof
    have known : bits (b.getS a).toNat 15 11 ≤ 19 := by lia -abstractProof
    simp [codes, known, show bits (b.getS a).toNat 31 19 = 0 from reserved]
  · simp [rows]
  · dsimp only
    rw [List.contains_iff_mem.mpr fmt]
    rfl
  · rw [scale]

/-- Its plan is one unit, which stores the row and clears it where `z` asks. -/
theorem State.AccRow.plan (h : b.AccRow t a e) (rs : List (Nat × Nat)) :
    ∃ unit, (b.useTiles rs).accRdPlan t a e z = .ok (1, unit) ∧ unit (b.useTiles rs) 0 = .ok (b.accDone (b.useTiles rs) t a e z) := by
  have fmt : (b.accRecord a).fmt ≤ 19 := by
    have := h.fmt
    simp only [List.mem_cons, List.not_mem_nil, or_false] at this
    lia -abstractProof
  have bytes : 64 * fmtBits (b.accRecord a).fmt / 8 = 8 * fmtBits (b.accRecord a).fmt := by lia -abstractProof
  have good := h.record_good
  have record : (b.convRecord a [0, 1, 2, 3, 5, 6, 7, 11, 12, 14]).1 = b.accRecord a := rfl
  have place : (b.useTiles rs).getS e = b.rdS e.toNat := b.rdS_useTiles rs e.toNat
  have rows : placeRows (b.rdS e.toNat) 1 (8 * fmtBits (b.accRecord a).fmt) = b.accRows a e := rfl
  have one : tilesOf 1 = 1 := rfl
  unfold State.accRdPlan
  dsimp only
  rw [State.convRecord_useTiles, record, place, h.one, bytes, rows, one, State.tilesOk_useTiles, State.tilesBad_useTiles, State.tilesBad_one,
    lowest_eq_none]
  · dsimp only
    rw [h.tile, if_neg Bool.false_ne_true, State.checkRows_fit _ _ _ (by rw [State.alloc_useTiles]; exact h.fits)]
    refine ⟨_, rfl, ?_⟩
    rw [Rows.row_zero rfl, State.awaitRows_free _ _ (by rw [State.busyRow_useTiles]; exact h.free), Nat.zero_mul, Nat.add_zero]
    simp only [State.tile_useTiles]
    rfl
  · intro x hx
    rcases List.mem_append.mp hx with hx | hx
    · exact good x hx
    · simp only [List.mem_cons, List.not_mem_nil, or_false] at hx
      rcases hx with rfl | rfl | rfl
      · simpa using h.place
      · simp [h.placed]
      · simp [h.tiles]

theorem State.worked_accDone {c : State} (h : b.Worked c) : b.Worked (b.accDone c t a e z) := by
  unfold State.accDone
  dsimp only
  split
  · exact (h.setMem _).setTile _ _
  · exact h.setMem _

theorem State.mem_accDone (c : State) : (b.accDone c t a e z).curTeam.mem
    = Mem.write c.curTeam.mem (b.accRows a e).off (8 * fmtBits (b.accRecord a).fmt) (b.accValue t a) := by
  unfold State.accDone
  dsimp only
  split
  · rw [State.curTeam_setTile, State.curTeam_setCurTeam]
  · rw [State.curTeam_setCurTeam]

theorem State.tile_setMem (c : State) (m : List (Nat × W8)) (j : Nat) : (c.setCurTeam { c.curTeam with mem := m }).tile j = c.tile j := by
  have party : (c.setCurTeam { c.curTeam with mem := m }).curParty = c.curParty := State.curParty_setCurTeam ..
  unfold State.tile State.tileKey
  rw [party, State.curTeam_setCurTeam]

theorem State.entry_accDone (c : State) (j : Nat) {n : Nat} (hn : n < 64) :
    ((b.accDone c t a e z).tile t.toNat).entry j n = if z = 1 ∧ j = 0 then 0 else (c.tile t.toNat).entry j n := by
  unfold State.accDone
  dsimp only
  split
  · next clears =>
    rw [State.tile_setTile, if_pos rfl, Tile.entry_zeroRow _ _ _ hn, State.tile_setMem, if_congr (and_iff_right clears) rfl rfl]
  · next keeps => rw [State.tile_setMem, if_neg fun h => keeps h.1]

/-- It completes with the down-converted entries in local memory, and its row cleared where `z` asks. -/
theorem accRd_row {s : State} (ready : s.Ready (.accRd t a e z st)) (hb : s.before (.accRd t a e z st) = b) (units : b.cur.units = none)
    (fresh : (b.curParty.lane b.firstLane).unit = 0) (h : b.AccRow t a e) :
    ∃ u v, exec (.accRd t a e z st) s = .next u ∧ BytesWritten b.curTeam.mem u.curTeam.mem (b.accRows a e).off (8 * fmtBits (b.accRecord a).fmt) v
      ∧ (∀ n, n < 64 → v / 2 ^ (fmtBits (b.accRecord a).fmt * n) % 2 ^ fmtBits (b.accRecord a).fmt
          = downConvert (b.tile t.toNat) 0 n t.toNat (b.accRecord a) % 2 ^ fmtBits (b.accRecord a).fmt)
      ∧ (∀ j n, n < 64 → (u.tile t.toNat).entry j n = if z = 1 ∧ j = 0 then 0 else (b.tile t.toNat).entry j n)
      ∧ ∀ l ∈ s.cur.lanes, (u.curParty.lane l).pc = b.nextPc l := by
  obtain ⟨unit, plan, done⟩ := h.plan (z := z) [(t.toNat, tilesOf (b.accRecord a).rows)]
  have result := longResult_one ((b.unit_useTiles _).trans fresh) done
  rw [← plan] at result
  have worked := State.worked_accDone (t := t) (a := a) (e := e) (z := z) (b.worked_useTiles [(t.toNat, tilesOf (b.accRecord a).rows)])
  have calm : b.curTeam.halt.calm = true := by
    rw [← hb]
    exact (State.before_from ready rfl).calm
  have lanes : b.cur.lanes = s.cur.lanes := by
    rw [← hb, State.before_cur rfl]
  have completes := accRd_completes t a e z st s _ ready (by rw [hb]; exact units) (by rw [hb]; exact result)
  obtain ⟨-, mem, -, tile, pc⟩ := worked.settled calm (.accRd t a e z st) ((s.looked (.accRd t a e z st)).uses (.accRd t a e z st))
  unfold State.after at completes
  rw [hb] at completes
  rw [lanes] at pc
  refine ⟨_, b.accValue t a, completes, fun x => ?_, fun n hn => ?_, fun j n hn => ?_, pc⟩
  · rw [mem, State.mem_accDone, State.mem_useTiles, Mem.get_write, Nat.pow_mul]
  · have element := packRow_element (fmtBits (b.accRecord a).fmt)
      ((List.range 64).map fun n => downConvert (b.tile t.toNat) 0 n t.toNat (b.accRecord a)) n (by simpa using hn)
    rw [List.getElem_map, List.getElem_range] at element
    exact element
  · rw [tile, State.entry_accDone _ _ hn, State.tile_useTiles]

end

/-! ### The assembly -/

/-- Settles O37: a row enters a tile column by column, each entry by its anchored sum, and `acc.rd` rounds each once. -/
theorem matrixEntries : Obligations.MatrixEntries := by
  unfold Obligations.MatrixEntries
  refine ⟨fun neg m e a u ha he => roundToAnchor_nearest neg m ha he, fun a m e b n g p i d q j h => ?_, fun fmt v z h => decodeElem_int h,
    fun t B i row => ?_, fun t B i n as w hn plain anchor weights number => t.enterRow_int B i n as w hn plain anchor weights number,
    fun s t a e st ready => ?_, fun s t a e z st ready => ?_, fun t i n h c f format => ?_⟩
  · refine ⟨exactProduct_num .., exactProduct_scaled .., exactProduct_log .., fun x => exactProduct_nan a x, ?_, fun nonzero => ?_⟩
    · rw [exactProduct_inf]
      rfl
    · rw [exactProduct_inf, if_neg nonzero]
  · obtain ⟨anchor, allocated, entry, flags⟩ := t.enterRow_spec B i row
    refine ⟨anchor, allocated, fun j n hn hj => (entry j n hn).trans (if_neg hj), fun n hn => ?_⟩
    obtain ⟨nan, inexact, sat⟩ := flags n hn
    rw [entry i n hn, if_pos rfl]
    dsimp only at nan inexact sat ⊢
    rw [← nanProducts_iff]
    refine ⟨fun bad => ?_, fun ok pattern => enterEntry_pattern _ _ ok pattern, fun ok number => ⟨fun s infinite => ?_, fun finite => ?_⟩⟩
    · obtain ⟨value, raised⟩ := enterEntry_nan (t.entry i n) t.exponent bad
      exact ⟨value, nan raised⟩
    · obtain ⟨value, raised⟩ := enterEntry_infinite (t.entry i n) t.exponent ok number infinite
      exact ⟨value, sat raised⟩
    · have sum := enterEntry_finite (t.entry i n) t.exponent ok number finite
      rw [sum] at inexact sat ⊢
      refine ⟨rfl, fun large => sat (clampAF_ne large), fun ⟨p, hp, off⟩ => inexact ?_⟩
      exact List.any_eq_true.mpr ⟨p, hp, off⟩
  · intro b d B w n rows v units fresh one good unscaled rowOrder placed fits free loaded sound meets tiles tile
    have row : b.MmaRow t a e := ⟨one, good, unscaled, rowOrder, placed, fits, free, loaded, sound, meets, tiles, tile⟩
    obtain ⟨u, done, entered, others, mem, near, pc⟩ := mma_row ready rfl units fresh row
    exact ⟨u, done, entered.trans (by rw [row.activation_eq]), others, mem, near, pc⟩
  · intro b c w place rows units fresh reserved one fmt rnd scale inside placed fits free tiles tile
    exact accRd_row ready rfl units fresh ⟨reserved, one, fmt, rnd, scale, inside, placed, fits, free, tiles, tile⟩
  · have sound := Fmt.sound (fmtFloat_mem format)
    intro E widen word
    refine ⟨fun pattern => downConvert_nan t i n h c format pattern, fun s m e scale number => ?_⟩
    intro neg x
    have converts := downConvert_num t i n h c format number scale
    refine ⟨fun zero => ?_, fun nonzero directed plain => ?_, fun nonzero even p u has hu => ?_, fun nonzero random p u has hu => ?_⟩
    · exact converts.trans (if_pos zero)
    · rw [converts, if_neg nonzero, if_neg plain, Fmt.drain_directed f directed]
      rfl
    · rw [converts, if_neg nonzero, if_neg (by lia -abstractProof), even, Fmt.count_eq_place sound hu (Nat.le_refl _)]
      obtain ⟨beyond, inside⟩ := Fmt.drain_even sound nonzero has hu neg
      exact ⟨fun large => congrArg widen (beyond large), fun fits => congrArg widen (inside fits)⟩
    · rw [converts, if_neg nonzero, if_pos random, Fmt.count_eq_place sound hu (Nat.le_refl _)]
      refine ⟨fun k fits exact_ => ?_, fun large => congrArg widen (Fmt.stochastic_beyond sound nonzero has hu word neg large),
        fun k fits above below => ?_⟩
      · rw [Fmt.count_eq_place sound hu fits] at exact_
        exact congrArg widen (Fmt.stochastic_exact nonzero has hu word neg fits exact_)
      · rw [Fmt.count_eq_place sound hu (Nat.le_of_lt fits)] at above ⊢
        rw [Fmt.count_eq_place sound hu fits] at below ⊢
        exact congrArg widen (Fmt.stochastic_between nonzero has hu word neg fits above below)

end Sys2Proof.Machine
end

section
/-! PROOFS. Floating lane words (R60 to R74): each writes the result of its operation and raises its flags. -/

namespace Sys2Proof.Machine

open Sys2Proof

/-! ### Results in lanes -/

theorem LaneCompletes.of_eachLane {w : State → Nat → Instr → Write} {i : Instr} {f : State → Nat → Lane → Lane}
    (hs : systemRelease i = false) (hr : returns i = false) (hexec : ∀ s, exec i s = gate i s fun s => s.eachLane (f s))
    (hf : ∀ b l x, Lane.Same x (f b l x))
    (hw : ∀ (b : State) l, (b.curParty.lane l).Holds (f b l (b.curParty.lane l)) (w b l i)) : LaneCompletes w i := by
  intro s ready
  rw [hexec]
  exact gate_eachLane ready hs hr f _ hf fun l _ => hw _ l

theorem bit_cases (t : BitVec 1) : t = 0 ∨ t = 1 := by
  revert t
  decide

/-- A word of R64. -/
theorem LaneCompletes.of_laneFloat {i : Instr} {t : BitVec 2} {d a e : BitVec 7} {op : State → Fmt → Nat → Nat → Nat → FRes}
    (hs : systemRelease i = false) (hr : returns i = false) (hexec : ∀ s, exec i s = gate i s fun s => s.laneFloat t d a e (op s))
    (hw : ∀ (b : State) l, floatWrite b l i = .float (t == 1) d (perElement t (op b) (b.floatOperand t l (b.curParty.lane l) a)
      (b.floatOperand t l (b.curParty.lane l) e) (b.floatOperand t l (b.curParty.lane l) d))) : LaneCompletes floatWrite i :=
  .of_eachLane hs hr hexec (fun _ _ _ => Lane.same_putFloat ..) fun b l => by
    rw [hw]
    exact Lane.holds_putFloat ..

/-- A word of R72. -/
theorem LaneCompletes.of_special {i : Instr} {t : BitVec 1} {d a : BitVec 7} {op : State → Fmt → Nat → FRes}
    (hs : systemRelease i = false) (hr : returns i = false) (hexec : ∀ s, exec i s = gate i s fun s => s.special t d a (op s))
    (hw : ∀ (b : State) l, floatWrite b l i = if t = 1 then Write.float true d (op b F64 (b.look64 l (b.curParty.lane l) a).toNat)
      else Write.float false d (op b F32 (b.look l (b.curParty.lane l) a).toNat)) : LaneCompletes floatWrite i := by
  refine .of_eachLane hs hr hexec (fun b l x => ?_) fun b l => ?_
  · rcases bit_cases t with rfl | rfl
    · exact (Lane.same_setReg ..).trans (Lane.same_raise ..)
    · exact (Lane.same_setReg64 ..).trans (Lane.same_raise ..)
  · rw [hw]
    rcases bit_cases t with rfl | rfl
    · exact (Lane.holds_one ..).raise rfl _
    · exact (Lane.holds_pair ..).raise rfl _

/-! ### Words of one kind each -/

theorem fcmp_completes (d a e : BitVec 7) (t st : BitVec 2) : LaneCompletes floatWrite (.fcmp d a e t st) := by
  refine .of_eachLane rfl rfl (fun _ => rfl) (fun _ _ _ => (Lane.same_setFlag ..).trans (Lane.same_raise ..)) fun b l => ?_
  dsimp only
  rw [combineFlag_eq]
  rcases mode_cases t with rfl | rfl | rfl | rfl
  · exact (Lane.holds_flag ..).raise rfl _
  · exact (Lane.holds_flag ..).raise rfl _
  · exact (Lane.holds_flag ..).raise rfl _
  · exact (Lane.holds_flag ..).raise rfl _

theorem testBit_31 (x : W32) : x.toNat.testBit 31 = x.msb := by
  rw [BitVec.testBit_toNat, BitVec.msb_eq_getLsbD_last]

theorem ofNat_31 (x : W32) : BitVec.ofNat 31 x.toNat = x.extractLsb' 0 31 := by
  rw [← BitVec.setWidth_eq_extractLsb' (by lia -abstractProof)]
  rfl

theorem fsgn_completes (d a e : BitVec 7) (m st : BitVec 2) : LaneCompletes floatWrite (.fsgn d a e m st) := by
  refine .of_lane32 rfl rfl (fun _ => rfl) fun b l => ?_
  unfold floatWrite
  dsimp only
  rw [testBit_31, testBit_31, ofNat_31, bne_comm]
  rfl

/-- The source of a conversion (R67). -/
theorem State.cvtSource_eq (b : State) (l : Nat) (x : Lane) (a : BitVec 7) (code : Nat) (h : BitVec 1) :
    b.cvtSource l x a code h = if code = 0 then (x.rd b.free l a.toNat).toNat else if code = 1 then (x.rd64 b.free l a.toNat).toNat
      else if h = 0 then (x.rd b.free l a.toNat).toNat % 2 ^ 16 else (x.rd b.free l a.toNat).toNat / 2 ^ 16 := by
  unfold State.cvtSource State.look State.look64
  by_cases single : code = 0
  · rw [if_neg (by lia -abstractProof), if_pos single, if_pos single]
  · rw [if_neg single, if_neg single]
    rcases bit_cases h with rfl | rfl
    · rfl
    · rfl

theorem Lane.same_cvtWrite (b : State) (l : Nat) (x : Lane) (d : BitVec 7) (code : Nat) (h : BitVec 1) (r : FRes) :
    x.Same ((b.cvtWrite l x d code h r.1).raise r.2) := by
  unfold State.cvtWrite
  split_ifs
  · exact (Lane.same_setReg64 ..).trans (Lane.same_raise ..)
  · exact (Lane.same_setReg ..).trans (Lane.same_raise ..)
  · exact (Lane.same_setReg ..).trans (Lane.same_raise ..)

/-- The destination of a conversion to a float. -/
theorem Lane.holds_cvtWrite (b : State) (l : Nat) (x : Lane) (d : BitVec 7) {code : Nat} (h : BitVec 1) (r : FRes) :
    x.Holds ((b.cvtWrite l x d code h r.1).raise r.2) (.converted d code h (x.rd b.free l d.toNat) r) := by
  unfold State.cvtWrite Write.converted
  by_cases wide : code = 1
  · rw [if_pos wide, if_pos wide]
    exact (Lane.holds_pair ..).raise rfl _
  · rw [if_neg wide, if_neg wide]
    by_cases upper : h = 1 ∧ 2 ≤ code
    · rw [if_pos upper, if_neg, halfWord_append]
      · exact (Lane.holds_one ..).raise rfl _
      · rintro (zero | low)
        · lia -abstractProof
        · exact absurd (low.symm.trans upper.1) (by decide)
    · rw [if_neg upper, if_pos]
      · exact (Lane.holds_one ..).raise rfl _
      · rcases bit_cases h with low | high
        · exact .inr low
        · exact .inl (by have := not_and.mp upper high; lia -abstractProof)

theorem cvtF_completes (d a c : BitVec 7) (h t : BitVec 1) (st : BitVec 2) : LaneCompletes floatWrite (.cvtF d a c h t st) := by
  refine .of_eachLane rfl rfl (fun _ => rfl) (fun _ _ _ => Lane.same_cvtWrite ..) fun b l => ?_
  dsimp only
  rw [State.cvtSource_eq]
  exact Lane.holds_cvtWrite ..

/-- The range of an integer type (R67). -/
theorem intRange_eq {code : Nat} (h : code < 4) : intRange code
    = (if code = 0 then -(2 ^ 31) else if code = 2 then -(2 ^ 63) else 0
      , if code = 0 then 2 ^ 31 - 1 else if code = 1 then 2 ^ 32 - 1 else if code = 2 then 2 ^ 63 - 1 else 2 ^ 64 - 1) := by
  have codes : code = 0 ∨ code = 1 ∨ code = 2 ∨ code = 3 := by lia -abstractProof
  rcases codes with rfl | rfl | rfl | rfl <;> rfl

theorem cvtFi_completes (d a c : BitVec 7) (h : BitVec 1) (st : BitVec 2) : LaneCompletes floatWrite (.cvtFi d a c h st) := by
  refine .of_eachLane rfl rfl (fun _ => rfl) (fun b l x => ?_) fun b l => ?_
  · dsimp only
    split_ifs
    · exact (Lane.same_setReg ..).trans (Lane.same_raise ..)
    · exact (Lane.same_setReg64 ..).trans (Lane.same_raise ..)
  · unfold floatWrite
    dsimp only
    rw [State.cvtSource_eq, intRange_eq (Nat.mod_lt _ (by decide))]
    by_cases single : c.toNat / 4 % 4 < 2
    · rw [if_pos single, if_pos single]
      exact (Lane.holds_one ..).raise rfl _
    · rw [if_neg single, if_neg single]
      exact (Lane.holds_pair ..).raise rfl _

theorem cvtIf_completes (d a c : BitVec 7) (h : BitVec 1) (st : BitVec 2) : LaneCompletes floatWrite (.cvtIf d a c h st) :=
  .of_eachLane rfl rfl (fun _ => rfl) (fun _ _ _ => Lane.same_cvtWrite ..) fun _ _ => Lane.holds_cvtWrite ..

theorem fclass_completes (d a : BitVec 7) (t st : BitVec 2) : LaneCompletes floatWrite (.fclass d a t st) := by
  refine .of_lane32 rfl rfl (fun _ => rfl) fun b l => ?_
  rcases mode_cases t with rfl | rfl | rfl | rfl
  · rfl
  · have wide := ((b.curParty.lane l).rd64 b.free l a.toNat).isLt
    exact congrArg (fun v => Write.one d (BitVec.ofNat 32 (2 ^ F64.classBit v))) (Nat.mod_eq_of_lt wide).symm
  · rfl
  · rfl

/-! ### Every floating word -/

/-- Each floating lane word writes the result of its operation. -/
theorem floatCompletes {i : Instr} (floating : laneFloating i = true) : LaneCompletes floatWrite i := by
  cases i with
  | fcmp d a e t st => exact fcmp_completes d a e t st
  | fsgn d a e m st => exact fsgn_completes d a e m st
  | cvtF d a c h t st => exact cvtF_completes d a c h t st
  | cvtFi d a c h st => exact cvtFi_completes d a c h st
  | cvtIf d a c h st => exact cvtIf_completes d a c h st
  | fclass d a t st => exact fclass_completes d a t st
  | fadd d a e t | fsub d a e t | fmul d a e t | ffma d a e t | fmin d a e t | fmax d a e t =>
    refine .of_laneFloat (t := t) rfl rfl (fun _ => rfl) fun _ _ => ?_
    rcases mode_cases t with rfl | rfl | rfl | rfl <;> rfl
  | rcp | rsqrt | sqrt | exp2 | log2 | sin | cos | tanh | lgst => exact .of_special rfl rfl (fun _ => rfl) fun _ _ => rfl
  | _ => exact absurd floating Bool.false_ne_true

end Sys2Proof.Machine
end

section
/-! PROOFS. What the floating operations give for NaNs, infinities and zeros, and how they order values (R63 to R65, R71). -/

namespace Sys2Proof.Machine

open Sys2Proof

/-- The formats of floating lane words. -/
def laneFormats : List Fmt := [F32, F64, F16, BF16]

/-! ### NaNs and infinities -/

theorem FVal.isSig_iff (x : FVal) : x.isSig = true ↔ x = .nan true := by
  cases x with
  | nan s => cases s <;> simp [FVal.isSig]
  | inf | num => simp [FVal.isSig]

theorem sigFlag_eq (xs : List FVal) : sigFlag xs = if FVal.nan true ∈ xs then fNV else 0 := by
  have any : xs.any FVal.isSig = true ↔ FVal.nan true ∈ xs := by
    simp only [List.any_eq_true, FVal.isSig_iff, exists_eq_right]
  exact if_congr any rfl rfl

/-- A NaN operand gives the canonical NaN, and NV when it signals. -/
theorem Fmt.vals_nan (f : Fmt) (mode : Nat) (x y z : FVal) (h : x.isNan = true ∨ y.isNan = true) :
    f.addVals mode x y = (f.nanBits, sigFlag [x, y]) ∧ f.mulVals mode x y = (f.nanBits, sigFlag [x, y])
    ∧ f.fmaVals mode x y z = (f.nanBits, sigFlag [x, y, z]) := by
  have either : (x.isNan || y.isNan) = true := by simpa using h
  refine ⟨?_, if_pos either, if_pos either⟩
  cases x with
  | nan => rfl
  | inf | num =>
    cases y with
    | nan => rfl
    | inf | num => exact absurd h (by simp [FVal.isNan])

/-- An infinity times a number: invalid where that is zero, else infinite. -/
theorem Fmt.vals_inf_num (f : Fmt) (mode : Nat) {a b : Bool} {n : Nat} {e : Int} {x y : FVal}
    (h : x = .inf a ∧ y = .num b n e ∨ x = .num a n e ∧ y = .inf b) :
    f.mulVals mode x y = (if n = 0 then (f.nanBits, fNV) else (f.infBits (a != b), 0))
    ∧ ∀ z, f.fmaVals mode x y z = if n = 0 then (f.nanBits, fNV) else f.addVals mode (.inf (a != b)) z := by
  have product : x.mul y = if n = 0 then none else some (.inf (a != b)) := by
    rcases h with ⟨rfl, rfl⟩ | ⟨rfl, rfl⟩ <;> rfl
  have number : ¬ (x.isNan || y.isNan) = true := by
    rcases h with ⟨rfl, rfl⟩ | ⟨rfl, rfl⟩ <;> exact Bool.false_ne_true
  unfold Fmt.mulVals Fmt.fmaVals
  rw [if_neg number, product]
  by_cases zero : n = 0
  · rw [if_pos zero, if_pos zero]
    exact ⟨rfl, fun z => (if_neg number).trans (if_pos zero).symm⟩
  · rw [if_neg zero, if_neg zero]
    exact ⟨rfl, fun z => (if_neg number).trans (if_neg zero).symm⟩

/-! ### Reading a pattern -/

/-- A format of IEEE 754: the magnitudes with the largest exponent are the infinity and the NaNs above it. -/
structure Fmt.Ieee (f : Fmt) : Prop where
  wide : 0 < 2 ^ (f.w - 1 - f.F) - 1
  inf : f.inf = some ((2 ^ (f.w - 1 - f.F) - 1) * 2 ^ f.F)
  nan : f.nanFrom = (2 ^ (f.w - 1 - f.F) - 1) * 2 ^ f.F + 1

theorem Fmt.ieee {f : Fmt} (h : f ∈ laneFormats) : f.Ieee := by
  have check : ∀ f ∈ laneFormats, 0 < 2 ^ (f.w - 1 - f.F) - 1
      ∧ f.inf = some ((2 ^ (f.w - 1 - f.F) - 1) * 2 ^ f.F) ∧ f.nanFrom = (2 ^ (f.w - 1 - f.F) - 1) * 2 ^ f.F + 1 := by decide +kernel
  obtain ⟨wide, inf, nan⟩ := check f h
  exact ⟨wide, inf, nan⟩

section
variable {f : Fmt} (h : f.Ieee) {v : Nat}
include h

theorem Fmt.Ieee.read_nan (top : v % 2 ^ (f.w - 1) / 2 ^ f.F = 2 ^ (f.w - 1 - f.F) - 1) (frac : v % 2 ^ (f.w - 1) % 2 ^ f.F ≠ 0) :
    f.read v = .nan (decide (v % 2 ^ (f.w - 1) / 2 ^ (f.F - 1) % 2 = 0)) := by
  have parts := Nat.div_add_mod' (v % 2 ^ (f.w - 1)) (2 ^ f.F)
  rw [top] at parts
  unfold Fmt.read
  dsimp only
  rw [if_pos (by rw [h.nan]; lia -abstractProof)]
  rfl

theorem Fmt.Ieee.read_inf (top : v % 2 ^ (f.w - 1) / 2 ^ f.F = 2 ^ (f.w - 1 - f.F) - 1) (frac : v % 2 ^ (f.w - 1) % 2 ^ f.F = 0) :
    f.read v = .inf (decide (v / 2 ^ (f.w - 1) % 2 = 1)) := by
  have parts := Nat.div_add_mod' (v % 2 ^ (f.w - 1)) (2 ^ f.F)
  rw [top, frac] at parts
  unfold Fmt.read
  dsimp only
  rw [if_neg (by rw [h.nan]; lia -abstractProof), h.inf, if_pos (by rw [← parts, Nat.add_zero])]
  rfl

/-- A pattern with a smaller exponent reads as a number. -/
theorem Fmt.Ieee.read_finite (low : v % 2 ^ (f.w - 1) / 2 ^ f.F < 2 ^ (f.w - 1 - f.F) - 1) :
    f.read v = if v % 2 ^ (f.w - 1) / 2 ^ f.F = 0 then .num (decide (v / 2 ^ (f.w - 1) % 2 = 1)) (v % 2 ^ (f.w - 1)) f.qmin
      else .num (decide (v / 2 ^ (f.w - 1) % 2 = 1)) (2 ^ f.F + v % 2 ^ (f.w - 1) % 2 ^ f.F)
        (f.qmin + (v % 2 ^ (f.w - 1) / 2 ^ f.F - 1 : Nat)) := by
  have below : v % 2 ^ (f.w - 1) < (2 ^ (f.w - 1 - f.F) - 1) * 2 ^ f.F := (Nat.div_lt_iff_lt_mul (Nat.two_pow_pos _)).mp low
  unfold Fmt.read
  dsimp only
  rw [if_neg (by rw [h.nan]; lia -abstractProof), h.inf, if_neg fun e => by injection e with e; lia -abstractProof]
  rfl

/-- The class of a number's pattern (R71). -/
theorem Fmt.Ieee.classBit_finite (low : v % 2 ^ (f.w - 1) / 2 ^ f.F < 2 ^ (f.w - 1 - f.F) - 1) :
    f.classBit v = if v % 2 ^ (f.w - 1) = 0 then (if v / 2 ^ (f.w - 1) % 2 = 1 then 3 else 4)
      else if v % 2 ^ (f.w - 1) / 2 ^ f.F = 0 then (if v / 2 ^ (f.w - 1) % 2 = 1 then 2 else 5)
      else (if v / 2 ^ (f.w - 1) % 2 = 1 then 1 else 6) := by
  have subnormal : v % 2 ^ (f.w - 1) / 2 ^ f.F = 0 ↔ v % 2 ^ (f.w - 1) < 2 ^ f.F := Nat.div_eq_zero_iff_lt (Nat.two_pow_pos f.F)
  unfold Fmt.classBit
  rw [h.read_finite low]
  by_cases zero : v % 2 ^ (f.w - 1) / 2 ^ f.F = 0
  · rw [if_pos zero, if_pos zero]
    dsimp only
    rw [decide_eq_false (Nat.not_le.mpr (subnormal.mp zero))]
    simp only [decide_eq_true_eq, if_neg Bool.false_ne_true]
  · have normal : 2 ^ f.F ≤ v % 2 ^ (f.w - 1) := by rwa [← Nat.not_lt, ← subnormal]
    have pos := Nat.two_pow_pos f.F
    rw [if_neg zero, if_neg zero, if_neg (by lia -abstractProof : ¬ v % 2 ^ (f.w - 1) = 0)]
    dsimp only
    rw [if_neg (by lia -abstractProof), decide_eq_true normal, if_pos rfl]
    simp only [decide_eq_true_eq]

end

/-! ### The order of values (R64, R65) -/

theorem FVal.lt_asymm {x y : FVal} (h : x.lt y = true) : y.lt x = false := by
  cases x with
  | nan => cases y <;> cases h
  | inf a =>
    cases y with
    | nan => rfl
    | inf b =>
      obtain ⟨rfl, rfl⟩ : a = true ∧ b = false := by simpa [FVal.lt] using h
      rfl
    | num => exact congrArg Bool.not h
  | num a m e =>
    cases y with
    | nan => rfl
    | inf b =>
      cases b
      · rfl
      · cases h
    | num b n g =>
      have less : scaled a m e (min e g) < scaled b n g (min e g) := of_decide_eq_true h
      refine decide_eq_false ?_
      rw [min_comm]
      exact Int.not_lt.mpr (Int.le_of_lt less)

/-- Numbers are ordered as integers, in any unit that both are multiples of. -/
theorem FVal.lt_num (a b : Bool) (m n : Nat) {e g u : Int} (he : u ≤ e) (hg : u ≤ g) :
    FVal.lt (.num a m e) (.num b n g) = decide (scaled a m e u < scaled b n g u) := by
  have finer : ∀ (c : Bool) (k : Nat) {i : Int}, min e g ≤ i → scaled c k i u = scaled c k i (min e g) * (2 ^ (min e g - u).toNat : Nat) := by
    intro c k i hi
    have unit : (i - u).toNat = (i - min e g).toNat + (min e g - u).toNat := by lia -abstractProof
    rw [scaled_eq, scaled_eq, unit, Nat.pow_add, ← Nat.mul_assoc, Nat.cast_mul (k * _), Int.mul_assoc]
  rw [finer a m (Int.min_le_left ..), finer b n (Int.min_le_right ..)]
  refine decide_eq_decide.mpr ?_
  exact (Int.mul_lt_mul_right (Int.natCast_pos.mpr (Nat.two_pow_pos _))).symm

/-- The lesser value, or the negative zero of two zeros. -/
def FVal.below (x y : FVal) : Bool := x.lt y || (!y.lt x && x.isNeg && !y.isNeg)

theorem FVal.below_of_less {x y : FVal} (h : x.lt y = true ∨ y.lt x = false ∧ x.isNeg = true ∧ y.isNeg = false) : x.below y = true := by
  unfold FVal.below
  rcases h with less | ⟨level, negative, positive⟩
  · rw [less]
    rfl
  · rw [level, negative, positive]
    exact Bool.or_true _

theorem FVal.not_below_of_greater {x y : FVal} (h : y.lt x = true ∨ x.lt y = false ∧ y.isNeg = true ∧ x.isNeg = false) : x.below y = false := by
  unfold FVal.below
  rcases h with greater | ⟨level, negative, positive⟩
  · rw [FVal.lt_asymm greater, greater]
    rfl
  · rw [level, positive, Bool.and_false]
    rfl

theorem sigFlag_pair (x y : FVal) : sigFlag [x, y] = if x = .nan true ∨ y = .nan true then fNV else 0 := by
  have mem : FVal.nan true ∈ [x, y] ↔ x = .nan true ∨ y = .nan true := by
    rw [List.mem_cons, List.mem_singleton, eq_comm, @eq_comm _ _ y]
  rw [sigFlag_eq, if_congr mem rfl rfl]

theorem Fmt.minMax_eq (f : Fmt) (big : Bool) (a b : Nat) :
    f.minMax big a b = ((if (f.read a).isNan then (if (f.read b).isNan then f.nanBits else b) else if (f.read b).isNan then a
      else if (f.read a).below (f.read b) != big then a else b), sigFlag [f.read a, f.read b]) := by
  unfold Fmt.minMax
  dsimp only
  by_cases nan : (f.read a).isNan = true
  · rw [if_pos nan, if_pos nan]
  · rw [if_neg nan, if_neg nan]
    by_cases other : (f.read b).isNan = true
    · rw [if_pos other, if_pos other]
    · rw [if_neg other, if_neg other]
      rfl

/-- `fmin` and `fmax` (R64). -/
theorem Fmt.minMax_spec (f : Fmt) (a b : Nat) (big : Bool) :
    let x := f.read a
    let y := f.read b
    let un := x.isNan = true ∨ y.isNan = true
    (f.minMax big a b).2 = (if x = .nan true ∨ y = .nan true then fNV else 0)
    ∧ (x.isNan = true → (f.minMax big a b).1 = (if y.isNan then f.nanBits else b))
    ∧ (x.isNan = false → y.isNan = true → (f.minMax big a b).1 = a)
    ∧ (¬ un → x.lt y = true ∨ y.lt x = false ∧ x.isNeg = true ∧ y.isNeg = false → (f.minMax big a b).1 = (if big then b else a))
    ∧ (¬ un → y.lt x = true ∨ x.lt y = false ∧ y.isNeg = true ∧ x.isNeg = false → (f.minMax big a b).1 = (if big then a else b)) := by
  intro x y un
  rw [Fmt.minMax_eq]
  have numbers : ¬ un → ¬ x.isNan = true ∧ ¬ y.isNan = true := not_or.mp
  refine ⟨sigFlag_pair x y, fun nan => if_pos nan, fun number nan => ?_, fun ordered less => ?_, fun ordered greater => ?_⟩
  · exact (if_neg (Bool.eq_false_iff.mp number)).trans (if_pos nan)
  · refine (if_neg (numbers ordered).1).trans ((if_neg (numbers ordered).2).trans ?_)
    rw [FVal.below_of_less less]
    cases big <;> rfl
  · refine (if_neg (numbers ordered).1).trans ((if_neg (numbers ordered).2).trans ?_)
    rw [FVal.not_below_of_greater greater]
    cases big <;> rfl

/-- `fcmp` (R65). -/
theorem Fmt.rel_spec (f : Fmt) (a b rel : Nat) (code : rel < 8) :
    let x := f.read a
    let y := f.read b
    let un := x.isNan = true ∨ y.isNan = true
    let r := f.rel rel a b
    (un → r.1 = (rel == 1 || rel == 6))
    ∧ (¬ un → r.1 = (if rel = 0 then !x.lt y && !y.lt x else if rel = 1 then x.lt y || y.lt x else if rel = 2 then x.lt y
        else if rel = 3 then !y.lt x else if rel = 4 then y.lt x else if rel = 5 then !x.lt y else rel == 7))
    ∧ r.2 = (if 2 ≤ rel ∧ rel ≤ 5 ∧ un then fNV else if x = .nan true ∨ y = .nan true then fNV else 0) := by
  intro x y un r
  have codes : rel = 0 ∨ rel = 1 ∨ rel = 2 ∨ rel = 3 ∨ rel = 4 ∨ rel = 5 ∨ rel = 6 ∨ rel = 7 := by lia -abstractProof
  have either : (x.isNan || y.isNan) = true ↔ un := Bool.or_eq_true_iff
  have quiet : ¬ un → ¬ (x = .nan true ∨ y = .nan true) := fun ordered => by
    rintro (signal | signal)
    · exact ordered (.inl (by rw [signal]; rfl))
    · exact ordered (.inr (by rw [signal]; rfl))
  rw [← sigFlag_pair]
  refine ⟨fun unordered => ?_, fun ordered => ?_, ?_⟩
  · have bit := either.mpr unordered
    show Prod.fst (Fmt.rel f rel a b) = _
    unfold Fmt.rel
    dsimp only
    rw [bit]
    rcases codes with rfl | rfl | rfl | rfl | rfl | rfl | rfl | rfl <;> rfl
  · have bit : (x.isNan || y.isNan) = false := Bool.eq_false_iff.mpr (mt either.mp ordered)
    show Prod.fst (Fmt.rel f rel a b) = _
    unfold Fmt.rel
    dsimp only
    rw [bit]
    rcases codes with rfl | rfl | rfl | rfl | rfl | rfl | rfl | rfl <;> rfl
  · show (if 2 ≤ rel ∧ rel ≤ 5 then (if (x.isNan || y.isNan) = true then fNV else 0) else sigFlag [x, y]) = _
    by_cases order : 2 ≤ rel ∧ rel ≤ 5
    · rw [if_pos order, if_congr either rfl rfl]
      by_cases unordered : un
      · rw [if_pos unordered, if_pos ⟨order.1, order.2, unordered⟩]
      · rw [if_neg unordered, if_neg fun h => unordered h.2.2, sigFlag_pair, if_neg (quiet unordered)]
    · rw [if_neg order, if_neg fun h => order ⟨h.1, h.2.1⟩]

/-! ### Conversions (R68 to R70) -/

theorem convert_spec (src dst : Fmt) (mode : Nat) (sat : Bool) (v : Nat) :
    (∀ s, src.read v = .nan s → convert src dst mode sat v = (dst.nanBits, if s then fNV else 0))
    ∧ (∀ n, src.read v = .inf n → convert src dst mode sat v = (if sat then (dst.sign n dst.maxCode, fNX) else (dst.infBits n, 0)))
    ∧ ∀ n m e, src.read v = .num n m e →
      (m = 0 → convert src dst mode sat v = (dst.sign n 0, 0))
      ∧ (m ≠ 0 →
        let r := dst.round mode n { n := m, e := e }
        convert src dst mode sat v = if sat = true ∧ r.2.getLsbD 2 = true then (dst.sign n dst.maxCode, fNX) else (dst.sign n r.1, r.2)) := by
  unfold convert
  refine ⟨fun s read => by rw [read], fun n read => by rw [read], fun n m e read => ?_⟩
  rw [read]
  exact ⟨fun zero => if_pos zero, fun nonzero => (if_neg nonzero).trans (if_congr Bool.and_eq_true_iff rfl rfl)⟩

/-- `Rounded`, with its distances as integers. -/
theorem rounded_int (mode : Nat) (neg : Bool) (p m c : Nat) : Rounded mode neg p m c ↔
    if mode = 0 then 2 * (((c : Int) * m - p).natAbs : Int) ≤ m ∧ (2 * (((c : Int) * m - p).natAbs : Int) = m → c % 2 = 0)
    else if mode = 4 then 2 * (((c : Int) * m - p).natAbs : Int) ≤ m ∧ (2 * (((c : Int) * m - p).natAbs : Int) = m → (p : Int) < c * m)
    else if mode = 2 ∧ neg = false ∨ mode = 3 ∧ neg = true then (p : Int) ≤ c * m ∧ (c * m : Int) < p + m
    else (c * m : Int) ≤ p ∧ (p : Int) < (c + 1) * m := by
  unfold Rounded
  split_ifs <;> norm_cast

/-- A number rounded to an integer lies as near to it as the rounding code asks, and is within the bounds or is taken to them. -/
theorem toInteger_num {src : Fmt} {v m : Nat} {n : Bool} {e : Int} (read : src.read v = .num n m e) (mode : Nat) (lo hi : Int) {u : Int}
    (he : u ≤ e) (hu : u ≤ 0) :
    let p := m * 2 ^ (e - u).toNat
    let one : Int := 2 ^ (-u).toNat
    ∃ k : Nat, (if mode = 0 then 2 * (((k : Int) * one - p).natAbs : Int) ≤ one ∧ (2 * (((k : Int) * one - p).natAbs : Int) = one → k % 2 = 0)
        else if mode = 4 then 2 * (((k : Int) * one - p).natAbs : Int) ≤ one ∧ (2 * (((k : Int) * one - p).natAbs : Int) = one → p < k * one)
        else if mode = 2 ∧ n = false ∨ mode = 3 ∧ n = true then p ≤ k * one ∧ k * one < p + one
        else k * one ≤ p ∧ p < (k + 1) * one)
      ∧ (let z : Int := if n then -(k : Int) else k
         toInteger src mode lo hi v = if z < lo then (lo, fNV) else if hi < z then (hi, fNV) else (z, if k * one = p then 0 else fNX)) := by
  intro p one
  have unit : ((2 ^ (-u).toNat : Nat) : Int) = one := Nat.cast_pow ..
  have cut : Mag.cut { n := m, e := e } mode n 0 = roundTo mode n p (2 ^ (-u).toNat) := by
    have has : Mag.Has { n := m, e := e } p u := ⟨he, rfl⟩
    rw [has.cut_eq (fun more => Bool.noConfusion more), Mag.cut_exact p hu, Int.zero_sub]
  obtain ⟨near, inexact⟩ := rounded_roundTo mode n p (Nat.two_pow_pos (-u).toNat)
  rw [rounded_int, unit] at near
  rw [ne_eq, ← Int.natCast_inj, Nat.cast_mul, unit] at inexact
  refine ⟨_, near, ?_⟩
  unfold toInteger
  rw [read]
  dsimp only
  rw [cut, if_congr inexact rfl rfl, ite_not]

theorem toInteger_spec (src : Fmt) (mode : Nat) (lo hi : Int) (v : Nat) :
    (∀ s, src.read v = .nan s → toInteger src mode lo hi v = (0, fNV))
    ∧ ∀ n, src.read v = .inf n → toInteger src mode lo hi v = (if n then lo else hi, fNV) := by
  unfold toInteger
  exact ⟨fun s read => by rw [read], fun n read => by rw [read]⟩

end Sys2Proof.Machine
end

section
/-! PROOFS. The special inputs of R74, and settling LaneFloatResults (R60 to R74). -/

namespace Sys2Proof.Machine

open Sys2Proof

/-! ### Numbers that a format holds -/

/-- A number that is a multiple of its quantum, and no larger than the largest value, is the value of a code. -/
theorem Fmt.round_of_dvd {f : Fmt} (h : f.Sound) {p : Nat} {u : Int} (hu : u ≤ f.qmin) (nonzero : p ≠ 0) (dvd : f.gap p u ∣ p)
    (fits : p ≤ f.top u) (mode : Nat) (neg : Bool) :
    ∃ c ≤ f.maxCode, f.round mode neg { n := p, e := u } = (c, 0) ∧ f.count u c = p := by
  have rest : p % f.gap p u = 0 := Nat.mod_eq_zero_of_dvd dvd
  have value := Fmt.mod_gap (f := f) (p := p) hu
  rw [rest, Nat.add_zero] at value
  have finite : f.floorCode p u ≤ f.maxCode := by
    rw [← (f.place_strictMono u).le_iff_le, value]
    exact fits
  have code : f.roundCode mode neg p u = f.floorCode p u := by
    unfold Fmt.roundCode
    rw [rest, roundsUp_zero _ _ _ Fmt.gap_pos, if_neg Bool.false_ne_true]
  refine ⟨_, finite, ?_, by rw [Fmt.count_eq_place h hu finite, value]⟩
  rw [Fmt.round_exact h hu nonzero, code, if_neg (Nat.not_lt.mpr finite), if_neg (not_not.mpr rest)]

/-- A significand in a binade of the format is exact. -/
theorem Fmt.round_significand {f : Fmt} (h : f.Sound) {n : Nat} {e : Int} (nonzero : n ≠ 0) (bits : n < 2 ^ (f.F + 1)) (he : f.qmin ≤ e)
    (fits : n * 2 ^ (e - f.qmin).toNat ≤ f.top f.qmin) (mode : Nat) (neg : Bool) :
    ∃ c ≤ f.maxCode, f.round mode neg { n := n, e := e } = (c, 0) ∧ f.count f.qmin c = n * 2 ^ (e - f.qmin).toNat := by
  have lead := (Nat.log2_lt nonzero).mpr bits
  have dvd : f.gap (n * 2 ^ (e - f.qmin).toNat) f.qmin ∣ n * 2 ^ (e - f.qmin).toNat := by
    refine Nat.dvd_trans (Nat.pow_dvd_pow 2 ?_) (Nat.dvd_mul_left ..)
    unfold Fmt.quantum
    rw [log2_mul_two_pow nonzero]
    lia -abstractProof
  rw [f.round_finer mode neg n he]
  exact Fmt.round_of_dvd h (Int.le_refl _) (Nat.mul_ne_zero nonzero (Nat.two_pow_pos _).ne') dvd fits mode neg

/-- The powers of two up to the format's last binade. -/
theorem Fmt.two_pow_le_top {f : Fmt} (h : f.Sound) {i : Nat} (hi : i < f.maxCode / 2 ^ f.F + f.F) : 2 ^ i ≤ f.top f.qmin := by
  have whole : 1 ≤ f.maxCode / 2 ^ f.F := (Nat.one_le_div_iff (Nat.two_pow_pos _)).mpr h.normal.1
  have code : (f.maxCode / 2 ^ f.F - 1) * 2 ^ f.F + 2 ^ f.F ≤ f.maxCode := by
    rw [← Nat.succ_mul, Nat.succ_eq_add_one, Nat.sub_add_cancel whole]
    exact Nat.div_mul_le_self ..
  refine Nat.le_trans ?_ ((f.place_strictMono f.qmin).monotone code)
  rw [f.place_two_pow, ← Nat.pow_add]
  exact Nat.pow_le_pow_right (by decide) (by lia -abstractProof)

/-! ### Integers among values -/

/-- A value compared with an integer. -/
theorem FVal.lt_int (n : Bool) (m : Nat) {e u : Int} (he : u ≤ e) (hu : u ≤ 0) (t : Int) :
    FVal.lt (.num n m e) (.num (decide (t < 0)) t.natAbs 0) = decide (scaled n m e u < t * (2 ^ (-u).toNat : Nat)) := by
  have int : scaled (decide (t < 0)) t.natAbs 0 u = t * (2 ^ (-u).toNat : Nat) := by
    rw [scaled_eq, Int.zero_sub, Nat.cast_mul, ← Int.mul_assoc]
    congr 1
    by_cases neg : t < 0
    · rw [decide_eq_true neg, if_pos rfl]
      lia -abstractProof
    · rw [decide_eq_false neg, if_neg Bool.false_ne_true]
      lia -abstractProof
  rw [FVal.lt_num _ _ _ _ he hu, int]

/-- A value that is an integer is found to be one. -/
theorem FVal.toInt?_of_scaled {n : Bool} {m : Nat} {e u k : Int} (he : u ≤ e) (hu : u ≤ 0)
    (int : scaled n m e u = k * (2 ^ (-u).toNat : Nat)) : (FVal.num n m e).toInt? = some k := by
  have signed : ∀ K : Nat, (if n = true then -(K : Int) else K) = (if n then -1 else 1) * (K : Int) := fun K => by
    cases n
    · exact (Int.one_mul _).symm
    · exact (Int.neg_one_mul _).symm
  have pos : ((2 ^ (-u).toNat : Nat) : Int) ≠ 0 := Int.natCast_ne_zero.mpr (Nat.two_pow_pos _).ne'
  rw [scaled_eq] at int
  unfold FVal.toInt?
  dsimp only
  by_cases whole : 0 ≤ e
  · rw [if_pos whole, signed]
    refine congrArg some (Int.eq_of_mul_eq_mul_right pos ?_)
    rw [Int.mul_assoc, ← Nat.cast_mul, Nat.mul_assoc, ← Nat.pow_add, show e.toNat + (-u).toNat = (e - u).toNat by lia -abstractProof]
    exact int
  · have unit : (-u).toNat = (-e).toNat + (e - u).toNat := by lia -abstractProof
    have fraction : m = k.natAbs * 2 ^ (-e).toNat := by
      have size := congrArg Int.natAbs int
      rw [Int.natAbs_mul, Int.natAbs_mul, Int.natAbs_natCast, Int.natAbs_natCast, unit, Nat.pow_add] at size
      refine Nat.eq_of_mul_eq_mul_right (Nat.two_pow_pos (e - u).toNat) ?_
      rw [Nat.mul_assoc k.natAbs, ← size]
      cases n
      · exact (Nat.one_mul _).symm
      · exact (Nat.one_mul _).symm
    have sign : (if n = true then -1 else 1) * ((k.natAbs : Nat) : Int) = k := by
      refine Int.eq_of_mul_eq_mul_right pos ?_
      rw [← int, Int.mul_assoc, ← Nat.cast_mul]
      congr 2
      rw [unit, Nat.pow_add, ← Nat.mul_assoc, ← fraction]
    rw [if_neg whole, fraction, Nat.mul_mod_left, if_pos rfl, Nat.mul_div_cancel _ (Nat.two_pow_pos _), signed, sign]

/-! ### The special inputs of R74 -/

section
variable {f : Fmt} {v : Nat}

theorem sf_nan {s : Bool} (read : f.read v = .nan s) (mode : Nat) :
    ∀ r ∈ [sfRcp f mode v, sfSqrt f mode v, sfRsqrt f v, sfExp2 f v, sfLog2 f v], r = (f.nanBits, if s then fNV else 0) := by
  unfold sfRcp sfSqrt sfRsqrt sfExp2 sfLog2
  rw [read]
  simp

theorem sf_inf (read : f.read v = .inf false) (mode : Nat) : sfRcp f mode v = (0, 0) ∧ sfSqrt f mode v = (f.infBits false, 0)
    ∧ sfRsqrt f v = (0, 0) ∧ sfExp2 f v = (f.infBits false, 0) ∧ sfLog2 f v = (f.infBits false, 0) := by
  unfold sfRcp sfSqrt sfRsqrt sfExp2 sfLog2
  rw [read]
  exact ⟨rfl, rfl, rfl, rfl, rfl⟩

theorem sf_neg_inf (read : f.read v = .inf true) (mode : Nat) : sfRcp f mode v = (f.sign true 0, 0) ∧ sfSqrt f mode v = (f.nanBits, fNV)
    ∧ sfRsqrt f v = (f.nanBits, fNV) ∧ sfExp2 f v = (0, 0) ∧ sfLog2 f v = (f.nanBits, fNV) := by
  unfold sfRcp sfSqrt sfRsqrt sfExp2 sfLog2
  rw [read]
  exact ⟨rfl, rfl, rfl, rfl, rfl⟩

theorem sf_zero {n : Bool} {e : Int} (read : f.read v = .num n 0 e) (mode : Nat) : sfRcp f mode v = (f.infBits n, fDZ)
    ∧ sfRsqrt f v = (f.infBits n, fDZ) ∧ sfSqrt f mode v = (f.sign n 0, 0) ∧ sfLog2 f v = (f.infBits true, fDZ) := by
  unfold sfRcp sfSqrt sfRsqrt sfLog2
  rw [read]
  exact ⟨rfl, rfl, rfl, rfl⟩

theorem sf_negative {m : Nat} {e : Int} (read : f.read v = .num true m e) (hm : m ≠ 0) (mode : Nat) :
    sfSqrt f mode v = (f.nanBits, fNV) ∧ sfRsqrt f v = (f.nanBits, fNV) ∧ sfLog2 f v = (f.nanBits, fNV) := by
  unfold sfSqrt sfRsqrt sfLog2
  rw [read]
  exact ⟨if_neg hm, if_neg hm, if_neg hm⟩

end

/-- The first power of two beyond FP32 or FP64. -/
def Fmt.expTop (f : Fmt) : Int := if f = F32 then 128 else 1024

section
variable {f : Fmt} (hf : f ∈ [F32, F64]) {v : Nat}
include hf

theorem Fmt.expTop_eq : f.qmin + ((f.maxCode / 2 ^ f.F + f.F : Nat) : Int) = f.expTop := by
  have check : ∀ f ∈ [F32, F64], f.qmin + ((f.maxCode / 2 ^ f.F + f.F : Nat) : Int) = f.expTop := by decide +kernel
  exact check f hf

theorem Fmt.sound_of_wide : f.Sound := by
  have wide : ∀ f ∈ [F32, F64], f ∈ formats := by decide
  exact Fmt.sound (wide f hf)

theorem sfExp2_overflow {m : Nat} {e u : Int} (read : f.read v = .num false m e) (he : u ≤ e) (hu : u ≤ 0)
    (beyond : f.expTop.toNat * 2 ^ (-u).toNat ≤ m * 2 ^ (e - u).toNat) : sfExp2 f v = (f.infBits false, fOF ||| fNX) := by
  have pos : 0 ≤ f.expTop := by
    unfold Fmt.expTop
    split_ifs <;> decide
  have reached : f.expTop * (2 ^ (-u).toNat : Nat) ≤ scaled false m e u := by
    rw [← Int.toNat_of_nonneg pos, ← Nat.cast_mul]
    exact Int.ofNat_le.mpr beyond
  unfold sfExp2
  rw [read]
  dsimp only
  rw [Fmt.expTop_eq hf, FVal.lt_int false m he hu, decide_eq_false (Int.not_lt.mpr reached)]
  rfl

/-- 2^k is exact. -/
theorem sfExp2_int {n : Bool} {m : Nat} {e u k : Int} (read : f.read v = .num n m e) (he : u ≤ e) (hu : u ≤ 0) (low : f.qmin ≤ k)
    (high : k < f.expTop) (int : scaled n m e u = k * (2 ^ (-u).toNat : Nat)) :
    (sfExp2 f v).2 = 0 ∧ (sfExp2 f v).1 ≤ f.maxCode ∧ f.count f.qmin (sfExp2 f v).1 = 2 ^ (k - f.qmin).toNat := by
  have sound := Fmt.sound_of_wide hf
  have below : scaled n m e u < f.expTop * (2 ^ (-u).toNat : Nat) := by
    rw [int]
    exact (Int.mul_lt_mul_right (Int.natCast_pos.mpr (Nat.two_pow_pos _))).mpr high
  have value : sfExp2 f v = f.pack 0 false { n := 1, e := k } := by
    unfold sfExp2
    rw [read]
    dsimp only
    rw [Fmt.expTop_eq hf, FVal.lt_int n m he hu, decide_eq_true below, FVal.toInt?_of_scaled he hu int]
    exact if_pos low
  have fits : 1 * 2 ^ (k - f.qmin).toNat ≤ f.top f.qmin := by
    rw [Nat.one_mul]
    refine Fmt.two_pow_le_top sound ?_
    rw [← Fmt.expTop_eq hf] at high
    lia -abstractProof
  obtain ⟨c, finite, round, count⟩ := Fmt.round_significand sound Nat.one_ne_zero (Nat.one_lt_two_pow (Nat.succ_ne_zero _)) low fits 0 false
  rw [Nat.one_mul] at count
  rw [value]
  unfold Fmt.pack
  rw [round]
  exact ⟨rfl, finite, count⟩

/-- The logarithm of a power of two that a code reads as is a small integer. -/
theorem Fmt.log2_small {n : Bool} {j : Nat} {e : Int} (read : f.read v = .num n (2 ^ j : Nat) e) : ((j : Int) + e).natAbs < 2 ^ 11 := by
  have wide : ∀ f ∈ [F32, F64], f ∈ formats ∧ f.binade f.maxCode + f.F + 1 ≤ 2 ^ 11 - f.qmin ∧ -2 ^ 11 < f.qmin := by decide +kernel
  obtain ⟨format, top, bottom⟩ := wide f hf
  obtain ⟨c, hc, sig, exponent⟩ := Fmt.read_num format read
  have lead : j < f.F + 1 := (Nat.pow_lt_pow_iff_right (by decide)).mp (sig ▸ f.sig_lt c)
  have binade : f.binade c ≤ f.binade f.maxCode := Nat.sub_le_sub_right (Nat.div_le_div_right hc) 1
  lia -abstractProof

/-- The logarithm of a power of two is exact. -/
theorem sfLog2_two_pow {j : Nat} {e : Int} (read : f.read v = .num false (2 ^ j : Nat) e) :
    ∃ c, c ≤ f.maxCode ∧ sfLog2 f v = (f.sign (decide ((j : Int) + e < 0)) c, 0)
      ∧ f.count f.qmin c = ((j : Int) + e).natAbs * 2 ^ (-f.qmin).toNat := by
  have sound := Fmt.sound_of_wide hf
  have wide : ∀ f ∈ [F32, F64], 2 ^ 11 ≤ 2 ^ (f.F + 1) ∧ f.qmin ≤ 0 ∧ 11 + (-f.qmin).toNat < f.maxCode / 2 ^ f.F + f.F := by decide +kernel
  obtain ⟨bits, low, room⟩ := wide f hf
  have small := Fmt.log2_small hf read
  have value : sfLog2 f v = f.packInt 0 ((j : Int) + e) 0 false := by
    unfold sfLog2
    rw [read]
    dsimp only
    rw [if_neg (Nat.two_pow_pos j).ne', Nat.log2_two_pow]
    exact if_pos rfl
  rw [value]
  unfold Fmt.packInt
  generalize (j : Int) + e = z at *
  by_cases zero : z = 0
  · subst zero
    refine ⟨0, Nat.zero_le _, rfl, ?_⟩
    rw [Fmt.count_eq_place sound (Int.le_refl _) (Nat.zero_le _), f.place_zero]
    exact (Nat.zero_mul _).symm
  · have fits : z.natAbs * 2 ^ (0 - f.qmin).toNat ≤ f.top f.qmin := by
      refine Nat.le_trans ?_ (Fmt.two_pow_le_top sound room)
      rw [Nat.pow_add, Int.zero_sub]
      exact Nat.mul_le_mul_right _ (Nat.le_of_lt small)
    obtain ⟨c, finite, round, count⟩ := Fmt.round_significand sound (Int.natAbs_ne_zero.mpr zero) (Nat.lt_of_lt_of_le small bits) low fits 0
      (decide (z < 0))
    rw [Int.zero_sub] at count
    refine ⟨c, finite, ?_, count⟩
    rw [if_neg zero]
    unfold Fmt.pack
    rw [round]

end

/-! ### The functions of FP32 alone -/

section
variable {v : Nat}

theorem F32.sf_nan {s : Bool} (read : F32.read v = .nan s) :
    ∀ r ∈ [sfTrig false F32 v, sfTrig true F32 v, sfTanh F32 v, sfLgst F32 v], r = (0x7FC00000, if s then fNV else 0) := by
  unfold sfTrig sfTanh sfLgst
  rw [read]
  simp [Fmt.nanBits, F32]

theorem F32.one (n : Bool) : F32.pack 0 n { n := 1, e := 0 } = (F32.sign n 0x3F800000, 0) := by
  revert n
  decide +kernel

theorem F32.sf_inf {n : Bool} (read : F32.read v = .inf n) : sfTrig false F32 v = (0x7FC00000, fNV) ∧ sfTrig true F32 v = (0x7FC00000, fNV)
    ∧ sfTanh F32 v = (F32.sign n 0x3F800000, 0) ∧ sfLgst F32 v = (if n then 0 else 0x3F800000, 0) := by
  unfold sfTrig sfTanh sfLgst
  rw [read]
  dsimp only
  rw [F32.one, F32.one]
  refine ⟨rfl, rfl, rfl, ?_⟩
  cases n <;> rfl

theorem F32.sf_zero {n : Bool} {e : Int} (read : F32.read v = .num n 0 e) : sfTrig false F32 v = (F32.sign n 0, 0)
    ∧ sfTrig true F32 v = (0x3F800000, 0) ∧ sfTanh F32 v = (F32.sign n 0, 0) ∧ sfLgst F32 v = (0x3F000000, 0) := by
  have half : F32.pack 0 false { n := 1, e := -1 } = (0x3F000000, 0) := by decide +kernel
  unfold sfTrig sfTanh sfLgst
  rw [read]
  dsimp only
  rw [F32.one, half]
  exact ⟨rfl, rfl, rfl, rfl⟩

end

/-! ### Every clause -/

/-- Settles O14: each word writes the result of its operation, and each operation gives what its rule says. -/
theorem laneFloatResults : Obligations.LaneFloatResults := by
  refine ⟨fun s i floating => floatCompletes floating s, fun f hf => ⟨fun mode x y z nan => ?_, fun mode a b n m e => ?_, fun v => ?_,
    fun a b => ?_⟩,
    fun a m e b n g u he hg => ⟨FVal.lt_num a b m n he hg, rfl, rfl, rfl⟩, fun src _ dst _ mode sat v => convert_spec src dst mode sat v,
    fun src _ mode lo hi v => ?_, fun dst _ mode z => rfl, fun f hf mode v => ?_,
    fun v => ⟨fun s => F32.sf_nan, fun n => F32.sf_inf, fun n e => F32.sf_zero⟩⟩
  · dsimp only
    rw [← sigFlag_eq, ← sigFlag_eq]
    exact f.vals_nan mode x y z nan
  · exact ⟨rfl, rfl, rfl, rfl, fun x y h => f.vals_inf_num mode h, fun z => rfl, rfl, rfl⟩
  · have h := Fmt.ieee hf
    refine ⟨fun top frac => ⟨h.read_nan top frac, ?_⟩, fun top frac => ⟨h.read_inf top frac, ?_⟩, fun zero => ?_,
      fun pos subnormal => ?_, fun low top => ?_⟩
    · unfold Fmt.classBit
      rw [h.read_nan top frac]
      exact if_congr decide_eq_true_iff rfl rfl
    · unfold Fmt.classBit
      rw [h.read_inf top frac]
      exact if_congr decide_eq_true_iff rfl rfl
    · rw [h.classBit_finite (by rw [zero, Nat.zero_div]; exact h.wide), if_pos zero]
    · rw [h.classBit_finite (by rw [subnormal]; exact h.wide), if_neg (Nat.pos_iff_ne_zero.mp pos), if_pos subnormal]
    · have nonzero : v % 2 ^ (f.w - 1) ≠ 0 := fun zero => by rw [zero, Nat.zero_div] at low; exact absurd low (Nat.lt_irrefl 0)
      rw [h.classBit_finite top, if_neg nonzero, if_neg (Nat.pos_iff_ne_zero.mp low)]
  · exact ⟨fun big => f.minMax_spec a b big, fun rel code => f.rel_spec a b rel code⟩
  · obtain ⟨nan, inf⟩ := toInteger_spec src mode lo hi v
    exact ⟨nan, inf, fun n m e u read he hu _ => toInteger_num read mode lo hi he hu⟩
  · exact ⟨fun s read => sf_nan read mode, fun read => sf_inf read mode, fun read => sf_neg_inf read mode, fun n e read => sf_zero read mode,
      fun m e read hm => sf_negative read hm mode, fun m e u read he hu => sfExp2_overflow hf read he hu,
      fun n m e u k read he hu low high int => sfExp2_int hf read he hu low high int, fun j e read => sfLog2_two_pow hf read⟩

end Sys2Proof.Machine
end
